-- ==== Sys2Proof/Word.lean ====
section
/-! DEFINITION. The word types of the Glasia G9 (spec 00 R4, 07 R119): bit vectors of the widths the manual gives. -/

namespace Sys2Proof

/-- One byte of memory. -/
abbrev Byte := BitVec 8
/-- A 16-bit value. -/
abbrev W16 := BitVec 16
/-- A 32-bit register, word of a packet or table field. -/
abbrev W32 := BitVec 32
/-- A 40-bit accumulator element (spec 02 R41). -/
abbrev W40 := BitVec 40
/-- A 64-bit register, queue slot or address operand. -/
abbrev W64 := BitVec 64
/-- A 128-bit value (spec 11 R219). -/
abbrev W128 := BitVec 128
/-- A mask of the 32 lanes of a group, bit l for lane l. -/
abbrev LaneMask := BitVec 32

end Sys2Proof
end

