-- ==== Sys2Proof/Config.lean ====
section
/-! DEFINITION. The free values: what the manual leaves open, as constants without a body. Each is applied to a counter of
the state, or to the operands it depends on; nothing can evaluate one. -/

namespace Sys2Proof.Config

/-- Nanoseconds that pass before the device time is next looked at (spec 08 R167, 22 R426). -/
opaque elapsedNs : Nat → W64
/-- Arithmetic-clock cycles that pass on a core before its counter is next looked at (spec 08 R166). -/
opaque elapsedCycles : Nat → W64
/-- Nanoseconds a vacate took, before the bound of R413 is applied (spec 20 R413). -/
opaque vacateNs : Nat → Nat
/-- Whether an SLH-DSA-SHA2-128s signature verifies over a digest under a public key (spec 22 R431); the manual does not give
the scheme. -/
opaque slhVerify : List Byte → BitVec 256 → List Byte → Bool
/-- Fields of a firmware image, whose layout the manual does not give (spec 22 R431): the header magic. -/
opaque imageMagic : List Byte → Nat
/-- The length of an image in bytes. -/
opaque imageLength : List Byte → Nat
/-- The public key in an image. -/
opaque imageKey : List Byte → List Byte
/-- The header and body that an image's signature covers. -/
opaque imageSigned : List Byte → List Byte
/-- The signature in an image. -/
opaque imageSignature : List Byte → List Byte
/-- The security version number of an image. -/
opaque imageVersion : List Byte → Nat
/-- The minimum security version number that an image requests, if it requests one (spec 22 R432). -/
opaque imageRaises : List Byte → Option Nat
/-- The correction of the clock's rate in ppm, before the bound of R426 is applied. -/
opaque servoPpm : Nat → Int
/-- The mask-ROM digest, and what stands for the digest of the running firmware while none runs (spec 22 Table 22-4, indices 1 and 2). -/
opaque fixedMeasurement : Nat → List Byte
/-- The fuse configuration under a fused minimum security version number (spec 22 Table 22-4, index 3). -/
opaque fuseMeasurement : Nat → List Byte
/-- The firmware image that the flash holds as the device is made (spec 22 R431). -/
opaque factoryImage : List Byte
/-- The digest of the fused public key (spec 22 R431). -/
opaque fusedKeyDigest : BitVec 256
/-- The fused minimum security version number (spec 22 R431). -/
opaque fusedMinimum : Nat
/-- The bytes the device answers to an SPDM request (spec 22 R433). -/
opaque spdmAnswer : Nat → List Byte → List Byte
/-- Bytes of a tape region that Medlar uses for `raw` recorded bytes over `n` streams, before the bound of R321. (DESIGN CHOICE, log 71.) -/
opaque tapeUse : Nat → Nat → Nat
/-- The home slice of a 128-byte line (spec 10 R204): an address hash the manual does not give. -/
opaque homeSlice : Nat → BitVec 8
/-- Package power in watts and the hottest junction, as sensors read them (spec 22 R435). (DESIGN CHOICE, log 139.) -/
opaque sensor : Nat → Nat
/-- A result bit pattern where the manual states an operation and no value. -/
opaque unstated : Nat → W64

end Sys2Proof.Config
end

