-- ==== Sys2Proof/Syntax.lean ====
section
/-! DEFINITION. The abstract syntax: one constructor of `Instr` for every row of the opcode table. Rows with an encoding
carry the fields of their word format (spec 05 R96) and the words that follow them in their packet; rows without one are
the events of the device and of the outside, and carry the event's inputs. -/

namespace Sys2Proof

/-- An extension word (spec 05 Table 5-1, format X). -/
structure Ext where
  chain : Bool
  gn    : Bool
  mod3  : BitVec 3
  mod1  : BitVec 1
  imm16 : BitVec 16
  xop   : BitVec 4
  deriving DecidableEq, Repr

/-- What stands around an instruction word in its packet: its chain bit, its literal word and its extension (spec 05 R91). -/
structure Mods where
  chain : Bool := false
  lit   : Option W32 := none
  ext   : Option Ext := none
  deriving DecidableEq, Repr

/-- Formats V3 and M: destination (or data) field and two selectors (spec 05 Table 5-1). -/
structure V3 where
  d : BitVec 6
  a : BitVec 6
  b : BitVec 6
  g : BitVec 3
  deriving DecidableEq, Repr

/-- Formats V4 and E: three selectors (spec 05 Table 5-1). -/
structure V4 where
  a : BitVec 6
  b : BitVec 6
  c : BitVec 6
  g : BitVec 3
  deriving DecidableEq, Repr

/-- Format S (spec 05 Table 5-1). -/
structure FS where
  sd : BitVec 5
  sa : BitVec 5
  sb : BitVec 6
  sx : BitVec 5
  deriving DecidableEq, Repr

/-- Format B (spec 05 Table 5-1). -/
structure FB where
  gn  : BitVec 1
  g   : BitVec 3
  off : BitVec 17
  deriving DecidableEq, Repr

/-- The fields of BRS in place of those of format B (spec 05 Table 5-9). -/
structure FBrs where
  sa  : BitVec 5
  off : BitVec 15
  deriving DecidableEq, Repr

/-- Format Y (spec 05 Table 5-1). -/
structure FY where
  d : BitVec 6
  a : BitVec 6
  n : BitVec 9
  deriving DecidableEq, Repr

/-- The operations of an atomic in the order of the minor codes (spec 11 Table 11-3). -/
inductive AtomOp where
  | add | minS | maxS | minN | maxN | and | or | xor | exch | cas | fadd
  deriving DecidableEq, Repr

/-- An atomic carried over the fabric (spec 11 R235, 12 R246): operation, width in bytes, operand and compare value. -/
structure PeerAtomic where
  op      : AtomOp
  wide    : Bool
  operand : W64
  cmp     : W64
  deriving DecidableEq, Repr

/-- A byte of a write to a peer: its address at the home, its value, and the bits of it that are written (spec 12 R255, 18 R364). -/
structure PeerCell where
  addr : Nat
  val  : Byte
  mask : Byte
  deriving DecidableEq, Repr

/-- A request from a peer that arrives at this device as the home of a line; `poisoned` marks one whose data is poisoned
(spec 12 R245, R247, R263, 21 R420). -/
inductive PeerReq where
  | readShared (line : Nat)
  | readExclusive (line : Nat)
  | upgrade (line : Nat)
  | writeback (line : Nat) (data : List Byte)
  | evictNotice (line : Nat)
  | uncachedRead (addr : Nat) (n : Nat)
  | uncachedWrite (cells : List PeerCell)
  | atomic (addr : Nat) (op : PeerAtomic)
  | discard (line : Nat)
  | collective (ctag : W32) (rank : Nat) (kind : Byte) (nelem cctl : W32) (ranks : List (BitVec 12)) (elem : Nat) (data : List Byte)
  | poisoned (r : PeerReq)
  deriving DecidableEq, Repr

/-- What the home answers to a request of this device; `poisoned` marks an answer whose data is poisoned (spec 12 R245, R248,
21 R420). (DEDUCED, log 116.) -/
inductive PeerAnswer where
  | shared (data : List Byte)
  | exclusive (data : List Byte)
  | upgraded
  | done
  | old (v : W64)
  | bytes (data : List Byte)
  | remoteRange
  | poisoned (a : PeerAnswer)
  deriving DecidableEq, Repr

/-- Where a message arrives: the port, and the sequence number of the first flit that it brings; the key index its group was sealed
under; and whether its quarter of a header flit came with an earlier message (spec 12 R256, R259, R262). -/
structure Via where
  port   : BitVec 6
  seq    : W16
  key    : BitVec 1 := 0
  shared : Bool := false
  deriving DecidableEq, Repr

/-- What a message brings, and where it arrives. -/
structure Arrived (α : Type) where
  what : α
  via  : Via
  deriving DecidableEq, Repr

/-- Bytes that cross a link, and whether they are poisoned (spec 21 R420). -/
structure LinkData where
  bytes    : List Byte
  poisoned : Bool
  deriving DecidableEq, Repr

/-- Where an uncorrectable state error strikes (spec 21 R421). -/
inductive StateErr where
  | register (team group lane : Nat) (isQueue : Bool) (no : Nat)
  | core (team group : Nat)
  | accumulator (team tile : Nat)
  deriving DecidableEq, Repr

/-- The instructions and events of the Glasia G9: one constructor per row of the opcode table. -/
inductive Instr where
  /-- Software writes a launch queue's write index, which exposes new slots to the command processor. (R68) -/
  | qwriteWrite (q : BitVec 6) (v : W32)
  /-- Clearing QCTL.EN stops dispatch from the queue and cancels launches that have not begun dispatch. (R69) -/
  | queueDisable (q : BitVec 6) (v : W32)
  /-- A write of SEGREL with GO = 1 releases a recorded segment of the queue. (R325) -/
  | segrelGo (q : BitVec 6) (v : W32)
  /-- The command processor reads the next covered slot once, checks it, then accepts or rejects it. (R66) -/
  | readLaunchPacket (q : BitVec 6)
  /-- The command processor begins dispatch of the highest-ordered eligible launch. (R71) -/
  | beginDispatch
  /-- The next team in ascending index is placed and its allotment is reserved once its core can hold it. (R78) -/
  | dispatchTeam (grid : Nat)
  /-- Device time reaches a launch's RELEASE, which makes it eligible. (R71) -/
  | releaseTimeReached (grid : Nat)
  /-- Device time reaches DEADLINE before completion, and every group of the grid takes cause group 22 when DLTRAP is set. (R74) -/
  | deadlineReached (grid : Nat)
  /-- A predicted finish beyond the deadline makes the command processor request spatial pre-emption of lower-priority cores. (R74) -/
  | deadlinePreemptRequest (grid : Nat)
  /-- The next recorded packet of a segment is launched after the previous one completes. (R77) -/
  | replayLaunchPacket (replay : Nat)
  /-- The grid completes once all its teams, non-detached cards, matrix operations and requests have ended. (R416) -/
  | gridComplete (grid : Nat)
  /-- A team ends once all its groups have ended and its submitted operations and cards have ended. (R286) -/
  | teamEnd (team : Nat)
  /-- A packet is fetched and checked for legality before any of its words executes. (R94) -/
  | fetchPacket
  /-- A switched-out group returns to its core when a sub-group becomes runnable and a slot is free. (R212) -/
  | groupSwitchIn (team group : Nat)
  /-- A pending cause group 20 or 22 is taken at the group's next issue cycle. (R402) -/
  | asyncTrapDelivery (team group : Nat)
  /-- A wait at BARTEAM, BARCLU or BOWAIT that reaches SYNCTO traps with cause group 17. (R388) -/
  | syncTimeout (team group lane : Nat)
  /-- The lanes of a YIELD instance may issue again once 16 × n cycles have passed. (R410) -/
  | yieldExpire (team group lane : Nat)
  /-- The hub writes a pending fault record into the fault ring when there is room. (R213) -/
  | faultRecordDeliver
  /-- The driver advances FQREAD, which frees ring slots and retries records held back. (R213) -/
  | fqreadWrite (v : W32)
  /-- A write of FQBASE retries the fault-record writes that failed. (R213) -/
  | fqbaseWrite (v : W64)
  /-- The driver resolves a fault record as mapped, and the sub-groups and items waiting on the page count it off. (R211) -/
  | fresolveMapped (handle : W32)
  /-- The driver resolves a fault record as unresolvable, so waiting items fail and re-executing lanes trap. (R211) -/
  | fresolveUnresolvable (handle : W32)
  /-- A page invalidation removes the translations that contain INVADDR. (R214) -/
  | invcmdPage (ctx : Byte)
  /-- A context invalidation removes every translation of one context. (R214) -/
  | invcmdContext (ctx : Byte)
  /-- An invalidation removes the translations of all contexts. (R214) -/
  | invcmdAll (ctx : Byte)
  /-- BUSY clears once every access that used a removed translation has been performed. (R214) -/
  | invalidationDone
  /-- The host requests migration of a page toward itself. (R215) -/
  | migreqGo (v : W64)
  /-- At the end of MIGHOLD the unit clears HOLD and invalidates the page. (R215) -/
  | holdExpire (ctx : Byte) (page : Nat)
  /-- A read miss on a peer line sends a read-shared request to the home. (R245) -/
  | fabricReadShared (line : Nat)
  /-- A store to a peer line in I sends a read-exclusive request. (R245) -/
  | fabricReadExclusive (line : Nat)
  /-- A store to a peer line in S sends an upgrade request. (R245) -/
  | fabricUpgrade (line : Nat)
  /-- Eviction of an M proxy line writes it back with data. (R245) -/
  | fabricWriteback (line : Nat)
  /-- Eviction of an S or E line sends a notice without data. (R245) -/
  | fabricEvictNotice (line : Nat)
  /-- The home invalidates a remote copy. (R245) -/
  | fabricInvalidate (line : Arrived Nat)
  /-- The home recalls a modified remote copy. (R245) -/
  | fabricRecall (line : Arrived Nat)
  /-- A holder acknowledges an invalidation or recall, with data from M. (R245) -/
  | fabricInvalAck (peer : Nat) (line : Nat) (data : Arrived LinkData)
  /-- An atomic on a peer line is performed at its home as a UALink atomic. (R246) -/
  | fabricAtomic (op : PeerAtomic) (addr : Nat)
  /-- The home's answer arrives, and the access is performed. (R247) -/
  | fabricResponse (tag : Nat) (answer : Arrived PeerAnswer)
  /-- A request unanswered for FABTO is abandoned and its failure is reported. (R248) -/
  | fabricTimeout (tag : Nat)
  /-- A read, write, atomic or collective request from a peer arrives at this device as the line's home and is served by the home directory. (R247) -/
  | fabricRequestArrival (src : BitVec 12) (tag : Nat) (reissued : Bool) (req : Arrived PeerReq)
  /-- A receiver's PAUSE stops a virtual channel. (R257) -/
  | flowPause (port : BitVec 6) (vc : BitVec 2)
  /-- A receiver's RESUME restarts a virtual channel. (R257) -/
  | flowResume (port : BitVec 6) (vc : BitVec 2)
  /-- A receiver finding a bad flit sends a NAK and begins a replay event. (R259) -/
  | replayEvent (port : BitVec 6) (badGroup : Option Nat)
  /-- A sender receiving a NAK resends every later flit in order. (R259) -/
  | linkNak (port : BitVec 6) (seq : W16)
  /-- The receiver's in-order acknowledgement frees replay-buffer flits. (R259) -/
  | linkAck (port : BitVec 6) (seq : W16)
  /-- A lane loses lock, and the port retrains to fewer lanes or goes down. (R260) -/
  | laneLoss (port : BitVec 6) (lane : BitVec 2)
  /-- Retraining ends, and the port replays from the last acknowledged sequence. (R260) -/
  | linkRetrainDone (port : BitVec 6)
  /-- A new key is installed at both ends, and sealing moves to the new index. (R262) -/
  | keyInstall (port : BitVec 6)
  /-- A receiver erases the old key on the clear flit. (R262) -/
  | keyClearFlit (port : BitVec 6)
  /-- A port trains, learns its partner's peer number and flags a miscable. (R250) -/
  | linkTraining (port : BitVec 6) (partner : BitVec 12) (compat : Bool) (lanes : BitVec 2)
  /-- Writing ROUTEDATA installs the route entry of ROUTEIDX for later requests. (R252) -/
  | routedataWrite (v : W64)
  /-- An accepted tile operation starts after the previous operation on its tile has ended. (R266) -/
  | matrixOpStart (team tile : Nat)
  /-- The engine performs one K-group once its operands have arrived. (R61) -/
  | matrixKgroup (team tile : Nat)
  /-- The engine loads one row of an MLOAD image. (R292) -/
  | mloadRow (team tile : Nat)
  /-- The engine converts and writes one drain block. (R277) -/
  | drainBlock (team tile : Nat)
  /-- Quince applies the optimiser step to one drain block. (R280) -/
  | updateBlock (team tile : Nat)
  /-- The task scheduler passes a card item to an engine once no overlapping earlier card stands in the way. (R356) -/
  | cardItemStart (card : Nat)
  /-- A card's destination line is written, and its bytes are decremented from the barrier object. (R359) -/
  | cardLineWrite (card : Nat)
  /-- An item completes or fails, and the rest of its share is decremented. (R359) -/
  | cardItemEnd (card : Nat)
  /-- The raster unit walks a primitive's coverage and yields pixel groups in fixed order. (R306) -/
  | rasterWalk (card : Nat)
  /-- After a pixel group exits, the unit reads its entries and sends vertex-gradient contributions. (R311) -/
  | vertexGradientContrib (team group : Nat)
  /-- Sloe samples one candidate edge and writes its boundary records. (R317) -/
  | edgeSample (card : Nat)
  /-- The host requests a vacate of the cores of VACMASK for one context. (R412) -/
  | vaccmdGo (v : W32)
  /-- The teams on the named cores are stopped and saved, the cores are freed, and the teams are re-placed. (R412) -/
  | vacate
  /-- The command processor replaces context OUT with context IN. (R415) -/
  | ctxcmdGo (v : W32)
  /-- A single-bit error is corrected, counted, noticed and optionally logged. (R419) -/
  | eccCorrection (reason : BitVec 6) (unitNo : Nat) (addr : W64) (consumer : Option (Nat × Nat))
  /-- An uncorrectable memory error poisons its 128-byte line. (R420) -/
  | poisonLine (key : Nat) (reason : BitVec 6) (unitNo : Nat)
  /-- An uncorrectable error in lane or group state traps or halts the team. (R421) -/
  | stateError (err : StateErr)
  /-- An uncorrectable error in shared state ends the affected grids and stops new launches. (R422) -/
  | deviceError (touched : List Nat)
  /-- Zalnov resets the device and verifies firmware again. (R437) -/
  | deviceReset
  /-- Power-up reset of the package. (R431) -/
  | powerOnReset
  /-- Zalnov verifies the staged image and writes the flash. (R432) -/
  | fwcmdGo
  /-- The host requests a device reset. (R437) -/
  | fwcmdReset
  /-- An SPDM request for measurements over DOE. (R433) -/
  | spdmGetMeasurements (index : BitVec 8)
  /-- An SPDM challenge over DOE. (R433) -/
  | spdmChallenge (nonce : BitVec 256)
  /-- An SPDM secured-session message over DOE. (R433) -/
  | spdmSecuredSession (msg : List Byte)
  /-- Zalnov assigns the peer number, trains and attests ports, derives keys and sets FABID.VALID. (R434) -/
  | fabricBringup (peer : BitVec 12) (attested : BitVec 48)
  /-- A host access through BAR2 to device memory. (R425) -/
  | bar2Access (addr : Nat) (len : Nat) (data : Option LinkData)
  /-- A host access to an unassigned BAR0 offset is ignored or reads zero. (R425) -/
  | bar0UnmappedAccess (offset : W32) (write : Bool)
  /-- A PTP message at the management port gives an offset measurement to the servo. (R428) -/
  | ptpMessage (offset : Int)
  /-- Every PTMIVL the device issues a PTM request to the root port. (R429) -/
  | ptmRequest
  /-- A rising pulse edge latches TIMENOW and counts. (R430) -/
  | ppsEdge
  /-- Four seconds without a measurement set HOLDOVER. (R427) -/
  | holdoverTimeout
  /-- Two seconds without a pulse edge under PPSREF set HOLDOVER. (R430) -/
  | ppsLossTimeout
  /-- A write of SRC selects the time source and clears LOCK. (R427) -/
  | timectlSrcWrite (v : W32)
  /-- Every 10 µs the power manager predicts package power and lowers frequency or throttles. (R435) -/
  | powerPredict (watts : List Nat)
  /-- After 1 ms under the limit with margin, one capping step is undone. (R435) -/
  | powerRestoreStep (watts : List Nat)
  /-- A junction at 105 °C lowers its island. (R436) -/
  | thermal105 (island : BitVec 7)
  /-- A junction at 115 °C stops every compute die as a device error. (R436) -/
  | thermal115
  /-- Reading ELLOST returns and clears the lost-event count. (R423) -/
  | ellostRead
  /-- Reading PPSCOUNT returns and clears the edge count. (R430) -/
  | ppscountRead
  /-- Reading PWRCAPNS returns and clears the capped time. (R435) -/
  | pwrcapnsRead
  /-- Reading PORTSTATn returns and clears REPLAYS. (R259) -/
  | portstatRead (port : BitVec 6)
  /-- A write to a register without behaviour of its own, under its access code. (R5) -/
  | registerWrite (offset : W32) (v : W64)
  /-- The host ends a context, so its grids complete with STATUS 11, its unfinished card items end with status 15 and its span counts drop. (R138) -/
  | contextEnd (ctx : Byte)
  /-- Device time reaches a card's RELTIME, and its destination writes may begin. (R361) -/
  | cardReltimeReached (card : Nat)
  /-- A line of a bulk prefetch is brought in or skipped, which decrements the barrier object or ends the token's prefetch. (R216) -/
  | bulkPrefetchLine (prefetch : Nat)
  /-- The root port's PTM response arrives and gives the servo an offset measurement, or reports that PTM is not granted. (R429) -/
  | ptmResponse (granted : Bool) (offset : Int)
  /-- Zalnov finishes writing and verifying the flash, clears BUSY and reports the update result. (R432) -/
  | firmwareUpdateDone
  /-- Package power fails, which can leave a partly written firmware image that fails verification at the next boot. (R432) -/
  | powerLoss
  /-- No operation. (R174) -/
  | nop (f : FY) (m : Mods)
  /-- Hint minor, which executes as NOP. (R174) -/
  | hint (h : BitVec 2) (f : FY) (m : Mods)
  /-- Retires, then takes cause group 18 with code n. (R408) -/
  | trap (f : FY) (m : Mods)
  /-- Returns from handler mode to each lane's EPC. (R405) -/
  | eret (f : FY) (m : Mods)
  /-- Retires, then takes cause group 19 unless BKIGN is set. (R408) -/
  | bkpt (f : FY) (m : Mods)
  /-- Holds issue for at least 16 × n cycles. (R410) -/
  | yield (f : FY) (m : Mods)
  /-- Reads a system register. (R409) -/
  | sysrd (f : FY) (m : Mods)
  /-- Writes a system register. (R409) -/
  | syswr (f : FY) (m : Mods)
  /-- Pushes a launch or lane value. (R166) -/
  | sread (f : FY) (m : Mods)
  /-- Register-use hint. (R165) -/
  | regn (f : FY) (m : Mods)
  /-- Integer add. (R147) -/
  | iaddS32 (f : V3) (m : Mods)
  /-- Integer subtract. (R147) -/
  | isubS32 (f : V3) (m : Mods)
  /-- Low product. (R147) -/
  | imulS32 (f : V3) (m : Mods)
  /-- High product. (R147) -/
  | imulhS32 (f : V3) (m : Mods)
  /-- Integer divide toward zero. (R149) -/
  | idivS32 (f : V3) (m : Mods)
  /-- Integer remainder. (R149) -/
  | iremS32 (f : V3) (m : Mods)
  /-- Minimum. (R147) -/
  | iminS32 (f : V3) (m : Mods)
  /-- Maximum. (R147) -/
  | imaxS32 (f : V3) (m : Mods)
  /-- Absolute value. (R147) -/
  | iabsS32 (f : V3) (m : Mods)
  /-- Negation. (R147) -/
  | inegS32 (f : V3) (m : Mods)
  /-- Shift left. (R151) -/
  | shlS32 (f : V3) (m : Mods)
  /-- Logical shift right. (R151) -/
  | shrS32 (f : V3) (m : Mods)
  /-- Arithmetic shift right. (R151) -/
  | sarS32 (f : V3) (m : Mods)
  /-- Population count. (R153) -/
  | popcS32 (f : V3) (m : Mods)
  /-- Count leading zeros. (R153) -/
  | clzS32 (f : V3) (m : Mods)
  /-- Bit reverse. (R153) -/
  | brevS32 (f : V3) (m : Mods)
  /-- Integer add. (R147) -/
  | iaddN32 (f : V3) (m : Mods)
  /-- Integer subtract. (R147) -/
  | isubN32 (f : V3) (m : Mods)
  /-- Low product. (R147) -/
  | imulN32 (f : V3) (m : Mods)
  /-- High product. (R147) -/
  | imulhN32 (f : V3) (m : Mods)
  /-- Unsigned divide. (R149) -/
  | idivN32 (f : V3) (m : Mods)
  /-- Unsigned remainder. (R149) -/
  | iremN32 (f : V3) (m : Mods)
  /-- Unsigned minimum. (R147) -/
  | iminN32 (f : V3) (m : Mods)
  /-- Unsigned maximum. (R147) -/
  | imaxN32 (f : V3) (m : Mods)
  /-- Negation. (R147) -/
  | inegN32 (f : V3) (m : Mods)
  /-- Shift left. (R151) -/
  | shlN32 (f : V3) (m : Mods)
  /-- Logical shift right. (R151) -/
  | shrN32 (f : V3) (m : Mods)
  /-- Population count. (R153) -/
  | popcN32 (f : V3) (m : Mods)
  /-- Count leading zeros. (R153) -/
  | clzN32 (f : V3) (m : Mods)
  /-- Bit reverse. (R153) -/
  | brevN32 (f : V3) (m : Mods)
  /-- 64-bit add. (R147) -/
  | iaddS64 (f : V3) (m : Mods)
  /-- 64-bit subtract. (R147) -/
  | isubS64 (f : V3) (m : Mods)
  /-- Low 64-bit product. (R147) -/
  | imulS64 (f : V3) (m : Mods)
  /-- High 64-bit product. (R147) -/
  | imulhS64 (f : V3) (m : Mods)
  /-- 64-bit divide. (R149) -/
  | idivS64 (f : V3) (m : Mods)
  /-- 64-bit remainder. (R149) -/
  | iremS64 (f : V3) (m : Mods)
  /-- Minimum. (R147) -/
  | iminS64 (f : V3) (m : Mods)
  /-- Maximum. (R147) -/
  | imaxS64 (f : V3) (m : Mods)
  /-- Absolute value. (R147) -/
  | iabsS64 (f : V3) (m : Mods)
  /-- Negation. (R147) -/
  | inegS64 (f : V3) (m : Mods)
  /-- Shift left. (R151) -/
  | shlS64 (f : V3) (m : Mods)
  /-- Logical shift right. (R151) -/
  | shrS64 (f : V3) (m : Mods)
  /-- Arithmetic shift right. (R151) -/
  | sarS64 (f : V3) (m : Mods)
  /-- Population count. (R153) -/
  | popcS64 (f : V3) (m : Mods)
  /-- Count leading zeros. (R153) -/
  | clzS64 (f : V3) (m : Mods)
  /-- Bit reverse. (R153) -/
  | brevS64 (f : V3) (m : Mods)
  /-- 64-bit add. (R147) -/
  | iaddN64 (f : V3) (m : Mods)
  /-- 64-bit subtract. (R147) -/
  | isubN64 (f : V3) (m : Mods)
  /-- Low product. (R147) -/
  | imulN64 (f : V3) (m : Mods)
  /-- High product. (R147) -/
  | imulhN64 (f : V3) (m : Mods)
  /-- Unsigned divide. (R149) -/
  | idivN64 (f : V3) (m : Mods)
  /-- Unsigned remainder. (R149) -/
  | iremN64 (f : V3) (m : Mods)
  /-- Unsigned minimum. (R147) -/
  | iminN64 (f : V3) (m : Mods)
  /-- Unsigned maximum. (R147) -/
  | imaxN64 (f : V3) (m : Mods)
  /-- Negation. (R147) -/
  | inegN64 (f : V3) (m : Mods)
  /-- Shift left. (R151) -/
  | shlN64 (f : V3) (m : Mods)
  /-- Logical shift right. (R151) -/
  | shrN64 (f : V3) (m : Mods)
  /-- Population count. (R153) -/
  | popcN64 (f : V3) (m : Mods)
  /-- Count leading zeros. (R153) -/
  | clzN64 (f : V3) (m : Mods)
  /-- Bit reverse. (R153) -/
  | brevN64 (f : V3) (m : Mods)
  /-- Paired 16-bit add. (R150) -/
  | iaddS16X2 (f : V3) (m : Mods)
  /-- Paired subtract. (R150) -/
  | isubS16X2 (f : V3) (m : Mods)
  /-- Paired low product. (R150) -/
  | imulS16X2 (f : V3) (m : Mods)
  /-- Paired signed minimum. (R150) -/
  | iminS16X2 (f : V3) (m : Mods)
  /-- Paired signed maximum. (R150) -/
  | imaxS16X2 (f : V3) (m : Mods)
  /-- Paired unsigned minimum. (R150) -/
  | iminN16X2 (f : V3) (m : Mods)
  /-- Paired unsigned maximum. (R150) -/
  | imaxN16X2 (f : V3) (m : Mods)
  /-- Paired absolute value. (R150) -/
  | iabsS16X2 (f : V3) (m : Mods)
  /-- Paired negation. (R150) -/
  | inegS16X2 (f : V3) (m : Mods)
  /-- Paired shift left. (R150) -/
  | shlB16X2 (f : V3) (m : Mods)
  /-- Paired logical shift right. (R150) -/
  | shrB16X2 (f : V3) (m : Mods)
  /-- Paired arithmetic shift right. (R150) -/
  | sarS16X2 (f : V3) (m : Mods)
  /-- 32-bit integer compare into a predicate. (R158) -/
  | icmp32 (cond : BitVec 4) (f : V3) (m : Mods)
  /-- 64-bit integer compare into a predicate. (R158) -/
  | icmp64 (cond : BitVec 4) (f : V3) (m : Mods)
  /-- 32-bit move. (R161) -/
  | movB32 (f : V3) (m : Mods)
  /-- 64-bit move. (R161) -/
  | movB64 (f : V3) (m : Mods)
  /-- Copies one lane's value to a scalar register. (R162) -/
  | movsB32 (f : V3) (m : Mods)
  /-- Copies one lane's 64-bit value to a scalar register. (R162) -/
  | movsB64 (f : V3) (m : Mods)
  /-- Indirect read of a named register. (R164) -/
  | mvrd (f : V3) (m : Mods)
  /-- Address computation, scale 1. (R163) -/
  | leaSh0 (f : V3) (m : Mods)
  /-- Address computation, scale 2. (R163) -/
  | leaSh1 (f : V3) (m : Mods)
  /-- Address computation, scale 4. (R163) -/
  | leaSh2 (f : V3) (m : Mods)
  /-- Address computation, scale 8. (R163) -/
  | leaSh3 (f : V3) (m : Mods)
  /-- Signed field extract. (R154) -/
  | bfxS32 (f : V3) (m : Mods)
  /-- Unsigned field extract. (R154) -/
  | bfxN32 (f : V3) (m : Mods)
  /-- Signed 64-bit field extract. (R154) -/
  | bfxS64 (f : V3) (m : Mods)
  /-- Unsigned 64-bit field extract. (R154) -/
  | bfxN64 (f : V3) (m : Mods)
  /-- Multiply-add into the queue. (R147) -/
  | imadS32 (f : V4) (m : Mods)
  /-- Multiply-add into the queue. (R147) -/
  | imadN32 (f : V4) (m : Mods)
  /-- 64-bit multiply-add. (R147) -/
  | imadS64 (f : V4) (m : Mods)
  /-- 64-bit multiply-add. (R147) -/
  | imadN64 (f : V4) (m : Mods)
  /-- Three-input truth-table logic. (R156) -/
  | logic3B32 (f : V4) (m : Mods)
  /-- Three-input truth-table logic, 64-bit. (R156) -/
  | logic3B64 (f : V4) (m : Mods)
  /-- Funnel shift left. (R152) -/
  | fshfLB32 (f : V4) (m : Mods)
  /-- Funnel shift right. (R152) -/
  | fshfRB32 (f : V4) (m : Mods)
  /-- Field insert. (R155) -/
  | bfiB32 (f : V4) (m : Mods)
  /-- 64-bit field insert. (R155) -/
  | bfiB64 (f : V4) (m : Mods)
  /-- Predicate select. (R159) -/
  | selB32 (f : V4) (m : Mods)
  /-- 64-bit predicate select. (R159) -/
  | selB64 (f : V4) (m : Mods)
  /-- Indirect write of a named register. (R164) -/
  | mvwr (f : V4) (m : Mods)
  /-- Predicate truth-table logic. (R157) -/
  | plogic (f : V3) (m : Mods)
  /-- Any-vote over Active(). (R160) -/
  | voteAny (f : V3) (m : Mods)
  /-- All-vote over Active(). (R160) -/
  | voteAll (f : V3) (m : Mods)
  /-- Ballot mask over Active(). (R160) -/
  | voteBallot (f : V3) (m : Mods)
  /-- Scalar add. (R168) -/
  | sadd (f : FS) (m : Mods)
  /-- Scalar subtract. (R168) -/
  | ssub (f : FS) (m : Mods)
  /-- Scalar multiply. (R168) -/
  | smul (f : FS) (m : Mods)
  /-- Scalar AND. (R168) -/
  | sand (f : FS) (m : Mods)
  /-- Scalar OR. (R168) -/
  | sor (f : FS) (m : Mods)
  /-- Scalar XOR. (R168) -/
  | sxor (f : FS) (m : Mods)
  /-- Scalar shift left. (R168) -/
  | sshl (f : FS) (m : Mods)
  /-- Scalar shift right. (R168) -/
  | sshr (f : FS) (m : Mods)
  /-- Scalar compare. (R169) -/
  | scmp (f : FS) (m : Mods)
  /-- Scalar move. (R168) -/
  | smov (f : FS) (m : Mods)
  /-- Guarded branch. (R170) -/
  | br (f : FB) (m : Mods)
  /-- Branch when a scalar register is zero. (R171) -/
  | brsZ (f : FBrs) (m : Mods)
  /-- Branch when a scalar register is non-zero. (R171) -/
  | brsNz (f : FBrs) (m : Mods)
  /-- Call, writing the link register. (R172) -/
  | call (f : FB) (m : Mods)
  /-- Return to the link register's offset. (R172) -/
  | ret (f : FB) (m : Mods)
  /-- Enrols lanes in a rejoin mask. (R173) -/
  | enrol (f : FB) (m : Mods)
  /-- Waits at a rejoin barrier and releases when every enrolled lane has arrived. (R137) -/
  | rejoin (f : FB) (m : Mods)
  /-- Ends lanes and clears their enrolment. (R137) -/
  | exit (f : FB) (m : Mods)
  /-- Indirect jump. (R172) -/
  | jmpi (f : FB) (m : Mods)
  /-- Float add. (R176) -/
  | faddF32 (f : V3) (m : Mods)
  /-- Float subtract. (R176) -/
  | fsubF32 (f : V3) (m : Mods)
  /-- Float multiply. (R176) -/
  | fmulF32 (f : V3) (m : Mods)
  /-- Float minimum. (R179) -/
  | fminF32 (f : V3) (m : Mods)
  /-- Float maximum. (R179) -/
  | fmaxF32 (f : V3) (m : Mods)
  /-- Round to integral. (R180) -/
  | frndF32 (f : V3) (m : Mods)
  /-- Classify. (R181) -/
  | fclassF32 (f : V3) (m : Mods)
  /-- Float add. (R176) -/
  | faddF64 (f : V3) (m : Mods)
  /-- Float subtract. (R176) -/
  | fsubF64 (f : V3) (m : Mods)
  /-- Float multiply. (R176) -/
  | fmulF64 (f : V3) (m : Mods)
  /-- Float minimum. (R179) -/
  | fminF64 (f : V3) (m : Mods)
  /-- Float maximum. (R179) -/
  | fmaxF64 (f : V3) (m : Mods)
  /-- Round to integral. (R180) -/
  | frndF64 (f : V3) (m : Mods)
  /-- Classify. (R181) -/
  | fclassF64 (f : V3) (m : Mods)
  /-- Paired FP16 add. (R177) -/
  | faddF16X2 (f : V3) (m : Mods)
  /-- Paired FP16 subtract. (R177) -/
  | fsubF16X2 (f : V3) (m : Mods)
  /-- Paired FP16 multiply. (R177) -/
  | fmulF16X2 (f : V3) (m : Mods)
  /-- Paired FP16 minimum. (R179) -/
  | fminF16X2 (f : V3) (m : Mods)
  /-- Paired FP16 maximum. (R179) -/
  | fmaxF16X2 (f : V3) (m : Mods)
  /-- Paired FP16 round to integral. (R180) -/
  | frndF16X2 (f : V3) (m : Mods)
  /-- Paired BF16 add. (R177) -/
  | faddBf16X2 (f : V3) (m : Mods)
  /-- Paired BF16 subtract. (R177) -/
  | fsubBf16X2 (f : V3) (m : Mods)
  /-- Paired BF16 multiply. (R177) -/
  | fmulBf16X2 (f : V3) (m : Mods)
  /-- Paired BF16 minimum. (R179) -/
  | fminBf16X2 (f : V3) (m : Mods)
  /-- Paired BF16 maximum. (R179) -/
  | fmaxBf16X2 (f : V3) (m : Mods)
  /-- Paired BF16 round to integral. (R180) -/
  | frndBf16X2 (f : V3) (m : Mods)
  /-- Fused multiply-add. (R178) -/
  | ffmaF32 (f : V4) (m : Mods)
  /-- Fused multiply-add. (R178) -/
  | ffmaF64 (f : V4) (m : Mods)
  /-- Paired fused multiply-add. (R178) -/
  | ffmaF16X2 (f : V4) (m : Mods)
  /-- Paired fused multiply-add. (R178) -/
  | ffmaBf16X2 (f : V4) (m : Mods)
  /-- FP32 compare into a predicate. (R182) -/
  | fcmpF32 (cond : BitVec 3) (f : V3) (m : Mods)
  /-- FP64 compare into a predicate. (R182) -/
  | fcmpF64 (cond : BitVec 3) (f : V3) (m : Mods)
  /-- Correctly rounded divide. (R183) -/
  | fdivF32 (f : V3) (m : Mods)
  /-- Square root. (R183) -/
  | fsqrtF32 (f : V3) (m : Mods)
  /-- Reciprocal. (R183) -/
  | frcpF32 (f : V3) (m : Mods)
  /-- Reciprocal square root. (R183) -/
  | frsqF32 (f : V3) (m : Mods)
  /-- Base-2 exponential. (R183) -/
  | fexp2F32 (f : V3) (m : Mods)
  /-- Base-2 logarithm. (R183) -/
  | flog2F32 (f : V3) (m : Mods)
  /-- Sine. (R183) -/
  | fsinF32 (f : V3) (m : Mods)
  /-- Cosine. (R183) -/
  | fcosF32 (f : V3) (m : Mods)
  /-- FP64 divide. (R183) -/
  | fdivF64 (f : V3) (m : Mods)
  /-- FP64 square root. (R183) -/
  | fsqrtF64 (f : V3) (m : Mods)
  /-- FP64 reciprocal. (R183) -/
  | frcpF64 (f : V3) (m : Mods)
  /-- FP64 reciprocal square root. (R183) -/
  | frsqF64 (f : V3) (m : Mods)
  /-- Format conversion. (R184) -/
  | cvt (from4 : BitVec 4) (f : V3) (m : Mods)
  /-- Conversion with stochastic rounding. (R185) -/
  | cvtsr (from4 : BitVec 4) (f : V3) (m : Mods)
  /-- Packs Active() into an MX block. (R187) -/
  | cvtmxMxe4m3F32 (f : V3) (m : Mods)
  /-- Packs Active() into an MX block. (R187) -/
  | cvtmxMxe5m2F32 (f : V3) (m : Mods)
  /-- Packs Active() into an MX block. (R187) -/
  | cvtmxMxe2m1F32 (f : V3) (m : Mods)
  /-- Packs Active() into an MX block. (R187) -/
  | cvtmxMxe4m3Bf16 (f : V3) (m : Mods)
  /-- Packs Active() into an MX block. (R187) -/
  | cvtmxMxe5m2Bf16 (f : V3) (m : Mods)
  /-- Packs Active() into an MX block. (R187) -/
  | cvtmxMxe2m1Bf16 (f : V3) (m : Mods)
  /-- Widens INT4 to E4M3. (R186) -/
  | expandE4m3I4 (f : V3) (m : Mods)
  /-- Widens E2M3 to E4M3. (R186) -/
  | expandE4m3E2m3 (f : V3) (m : Mods)
  /-- Widens E3M2 to E4M3. (R186) -/
  | expandE4m3E3m2 (f : V3) (m : Mods)
  /-- Widens E3M2 to E5M2. (R186) -/
  | expandE5m2E3m2 (f : V3) (m : Mods)
  /-- Decodes one MX element. (R188) -/
  | blkscaleMxe4m3 (f : V3) (m : Mods)
  /-- Decodes one MX element. (R188) -/
  | blkscaleMxe5m2 (f : V3) (m : Mods)
  /-- Decodes one MX element. (R188) -/
  | blkscaleMxe2m1 (f : V3) (m : Mods)
  /-- Indexed lane read. (R189) -/
  | shflIdxB32 (f : V3) (m : Mods)
  /-- Lane read upward. (R189) -/
  | shflUpB32 (f : V3) (m : Mods)
  /-- Lane read downward. (R189) -/
  | shflDownB32 (f : V3) (m : Mods)
  /-- Lane read by XOR. (R189) -/
  | shflXorB32 (f : V3) (m : Mods)
  /-- Horizontal quad swap. (R189) -/
  | qswapHB32 (f : V3) (m : Mods)
  /-- Vertical quad swap. (R189) -/
  | qswapVB32 (f : V3) (m : Mods)
  /-- Diagonal quad swap. (R189) -/
  | qswapDB32 (f : V3) (m : Mods)
  /-- Quad broadcast. (R189) -/
  | qbcastB32 (f : V3) (m : Mods)
  /-- Fine x derivative. (R190) -/
  | qderivXFineF32 (f : V3) (m : Mods)
  /-- Fine y derivative. (R190) -/
  | qderivYFineF32 (f : V3) (m : Mods)
  /-- Coarse x derivative. (R190) -/
  | qderivXCoarseF32 (f : V3) (m : Mods)
  /-- Coarse y derivative. (R190) -/
  | qderivYCoarseF32 (f : V3) (m : Mods)
  /-- Reads FLAGS. (R193) -/
  | flagrd (f : V3) (m : Mods)
  /-- Reads FLAGS and clears masked flags. (R194) -/
  | flagclr (f : V3) (m : Mods)
  /-- Indexed lane read, 64-bit. (R189) -/
  | shflIdxB64 (f : V3) (m : Mods)
  /-- Lane read upward, 64-bit. (R189) -/
  | shflUpB64 (f : V3) (m : Mods)
  /-- Lane read downward, 64-bit. (R189) -/
  | shflDownB64 (f : V3) (m : Mods)
  /-- Lane read by XOR, 64-bit. (R189) -/
  | shflXorB64 (f : V3) (m : Mods)
  /-- Horizontal quad swap. (R189) -/
  | qswapHB64 (f : V3) (m : Mods)
  /-- Vertical quad swap. (R189) -/
  | qswapVB64 (f : V3) (m : Mods)
  /-- Diagonal quad swap. (R189) -/
  | qswapDB64 (f : V3) (m : Mods)
  /-- Quad broadcast. (R189) -/
  | qbcastB64 (f : V3) (m : Mods)
  /-- Fine x derivative. (R190) -/
  | qderivXFineF64 (f : V3) (m : Mods)
  /-- Fine y derivative. (R190) -/
  | qderivYFineF64 (f : V3) (m : Mods)
  /-- Coarse x derivative. (R190) -/
  | qderivXCoarseF64 (f : V3) (m : Mods)
  /-- Coarse y derivative. (R190) -/
  | qderivYCoarseF64 (f : V3) (m : Mods)
  /-- Group exact sum. (R191) -/
  | gredSumF32 (f : V3) (m : Mods)
  /-- Group minimum. (R191) -/
  | gredMinF32 (f : V3) (m : Mods)
  /-- Group maximum. (R191) -/
  | gredMaxF32 (f : V3) (m : Mods)
  /-- Group integer sum. (R191) -/
  | gredSumS32 (f : V3) (m : Mods)
  /-- Group signed minimum. (R191) -/
  | gredMinS32 (f : V3) (m : Mods)
  /-- Group signed maximum. (R191) -/
  | gredMaxS32 (f : V3) (m : Mods)
  /-- Group FP64 sum. (R191) -/
  | gredSumF64 (f : V3) (m : Mods)
  /-- Group 64-bit sum. (R191) -/
  | gredSumS64 (f : V3) (m : Mods)
  /-- Segmented sum. (R192) -/
  | gredSegSumF32 (f : V3) (m : Mods)
  /-- Segmented minimum. (R192) -/
  | gredSegMinF32 (f : V3) (m : Mods)
  /-- Segmented maximum. (R192) -/
  | gredSegMaxF32 (f : V3) (m : Mods)
  /-- Segmented integer sum. (R192) -/
  | gredSegSumS32 (f : V3) (m : Mods)
  /-- Segmented signed minimum. (R192) -/
  | gredSegMinS32 (f : V3) (m : Mods)
  /-- Segmented signed maximum. (R192) -/
  | gredSegMaxS32 (f : V3) (m : Mods)
  /-- Segmented FP64 sum. (R192) -/
  | gredSegSumF64 (f : V3) (m : Mods)
  /-- Segmented 64-bit sum. (R192) -/
  | gredSegSumS64 (f : V3) (m : Mods)
  /-- Global load, 8-bit zero-extended. (R223) -/
  | ldN8 (f : V3) (m : Mods)
  /-- Global load, 8-bit sign-extended. (R223) -/
  | ldS8 (f : V3) (m : Mods)
  /-- Global load, 16-bit zero-extended. (R223) -/
  | ldN16 (f : V3) (m : Mods)
  /-- Global load, 16-bit sign-extended. (R223) -/
  | ldS16 (f : V3) (m : Mods)
  /-- Global 32-bit load. (R223) -/
  | ldB32 (f : V3) (m : Mods)
  /-- Global 64-bit load. (R223) -/
  | ldB64 (f : V3) (m : Mods)
  /-- Global 128-bit load. (R223) -/
  | ldB128 (f : V3) (m : Mods)
  /-- Global 8-bit store. (R223) -/
  | stB8 (f : V3) (m : Mods)
  /-- Global 16-bit store. (R223) -/
  | stB16 (f : V3) (m : Mods)
  /-- Global 32-bit store. (R223) -/
  | stB32 (f : V3) (m : Mods)
  /-- Global 64-bit store. (R223) -/
  | stB64 (f : V3) (m : Mods)
  /-- Global 128-bit store. (R223) -/
  | stB128 (f : V3) (m : Mods)
  /-- Prefetches a line. (R225) -/
  | pref (f : V3) (m : Mods)
  /-- Discards a line to zero. (R226) -/
  | discard (f : V3) (m : Mods)
  /-- Reads 16 bytes, then discards the line. (R227) -/
  | lastuse (f : V3) (m : Mods)
  /-- Scratchpad load, 8-bit. (R223) -/
  | ldN8Scr (f : V3) (m : Mods)
  /-- Scratchpad load, 8-bit signed. (R223) -/
  | ldS8Scr (f : V3) (m : Mods)
  /-- Scratchpad load, 16-bit. (R223) -/
  | ldN16Scr (f : V3) (m : Mods)
  /-- Scratchpad load, 16-bit signed. (R223) -/
  | ldS16Scr (f : V3) (m : Mods)
  /-- Scratchpad 32-bit load. (R223) -/
  | ldB32Scr (f : V3) (m : Mods)
  /-- Scratchpad 64-bit load. (R223) -/
  | ldB64Scr (f : V3) (m : Mods)
  /-- Scratchpad 128-bit load, or FIFO removal. (R223) -/
  | ldB128Scr (f : V3) (m : Mods)
  /-- Scratchpad 8-bit store. (R223) -/
  | stB8Scr (f : V3) (m : Mods)
  /-- Scratchpad 16-bit store. (R223) -/
  | stB16Scr (f : V3) (m : Mods)
  /-- Scratchpad 32-bit store. (R223) -/
  | stB32Scr (f : V3) (m : Mods)
  /-- Scratchpad 64-bit store. (R223) -/
  | stB64Scr (f : V3) (m : Mods)
  /-- Scratchpad 128-bit store, or FIFO append. (R223) -/
  | stB128Scr (f : V3) (m : Mods)
  /-- Cluster load, 8-bit. (R223) -/
  | ldN8Cscr (f : V3) (m : Mods)
  /-- Cluster load, 8-bit signed. (R223) -/
  | ldS8Cscr (f : V3) (m : Mods)
  /-- Cluster load, 16-bit. (R223) -/
  | ldN16Cscr (f : V3) (m : Mods)
  /-- Cluster load, 16-bit signed. (R223) -/
  | ldS16Cscr (f : V3) (m : Mods)
  /-- Cluster 32-bit load. (R223) -/
  | ldB32Cscr (f : V3) (m : Mods)
  /-- Cluster 64-bit load. (R223) -/
  | ldB64Cscr (f : V3) (m : Mods)
  /-- Cluster 128-bit load. (R223) -/
  | ldB128Cscr (f : V3) (m : Mods)
  /-- Cluster store, which traps. (R197) -/
  | stB8Cscr (f : V3) (m : Mods)
  /-- Cluster store, which traps. (R197) -/
  | stB16Cscr (f : V3) (m : Mods)
  /-- Cluster store, which traps. (R197) -/
  | stB32Cscr (f : V3) (m : Mods)
  /-- Cluster store, which traps. (R197) -/
  | stB64Cscr (f : V3) (m : Mods)
  /-- Cluster store, which traps. (R197) -/
  | stB128Cscr (f : V3) (m : Mods)
  /-- Global tile run read. (R229) -/
  | tld (f : V3) (m : Mods)
  /-- Version-checked global tile read. (R231) -/
  | tldVer (f : V3) (m : Mods)
  /-- Global tile run write. (R230) -/
  | tst (f : V3) (m : Mods)
  /-- Whole-instance global tile write. (R230) -/
  | tstWhole (f : V3) (m : Mods)
  /-- Ragged row read with a global base. (R233) -/
  | rld (f : V3) (m : Mods)
  /-- Ragged row write with a global base. (R233) -/
  | rst (f : V3) (m : Mods)
  /-- Scratchpad tile run read. (R229) -/
  | tldScr (f : V3) (m : Mods)
  /-- Version-checked scratchpad tile read. (R231) -/
  | tldVerScr (f : V3) (m : Mods)
  /-- Scratchpad tile run write. (R230) -/
  | tstScr (f : V3) (m : Mods)
  /-- Whole-instance scratchpad tile write. (R230) -/
  | tstWholeScr (f : V3) (m : Mods)
  /-- Ragged row read with a scratchpad base. (R233) -/
  | rldScr (f : V3) (m : Mods)
  /-- Ragged row write with a scratchpad base. (R233) -/
  | rstScr (f : V3) (m : Mods)
  /-- Global atomic add. (R234) -/
  | atomAddB32 (f : V3) (m : Mods)
  /-- Global atomic signed minimum. (R234) -/
  | atomMinSB32 (f : V3) (m : Mods)
  /-- Global atomic signed maximum. (R234) -/
  | atomMaxSB32 (f : V3) (m : Mods)
  /-- Global atomic unsigned minimum. (R234) -/
  | atomMinNB32 (f : V3) (m : Mods)
  /-- Global atomic unsigned maximum. (R234) -/
  | atomMaxNB32 (f : V3) (m : Mods)
  /-- Global atomic AND. (R234) -/
  | atomAndB32 (f : V3) (m : Mods)
  /-- Global atomic OR. (R234) -/
  | atomOrB32 (f : V3) (m : Mods)
  /-- Global atomic XOR. (R234) -/
  | atomXorB32 (f : V3) (m : Mods)
  /-- Global atomic exchange. (R234) -/
  | atomExchB32 (f : V3) (m : Mods)
  /-- Global compare-and-swap. (R234) -/
  | atomCasB32 (f : V3) (m : Mods)
  /-- Global atomic FP32 add. (R235) -/
  | atomFaddF32 (f : V3) (m : Mods)
  /-- Global 64-bit atomic add. (R234) -/
  | atomAddB64 (f : V3) (m : Mods)
  /-- Global 64-bit atomic signed minimum. (R234) -/
  | atomMinSB64 (f : V3) (m : Mods)
  /-- Global 64-bit atomic signed maximum. (R234) -/
  | atomMaxSB64 (f : V3) (m : Mods)
  /-- Global 64-bit atomic unsigned minimum. (R234) -/
  | atomMinNB64 (f : V3) (m : Mods)
  /-- Global 64-bit atomic unsigned maximum. (R234) -/
  | atomMaxNB64 (f : V3) (m : Mods)
  /-- Global 64-bit atomic AND. (R234) -/
  | atomAndB64 (f : V3) (m : Mods)
  /-- Global 64-bit atomic OR. (R234) -/
  | atomOrB64 (f : V3) (m : Mods)
  /-- Global 64-bit atomic XOR. (R234) -/
  | atomXorB64 (f : V3) (m : Mods)
  /-- Global 64-bit atomic exchange. (R234) -/
  | atomExchB64 (f : V3) (m : Mods)
  /-- Global 64-bit compare-and-swap. (R234) -/
  | atomCasB64 (f : V3) (m : Mods)
  /-- Global atomic FP64 add. (R235) -/
  | atomFaddF64 (f : V3) (m : Mods)
  /-- Scratchpad atomic add. (R234) -/
  | atomAddB32Scr (f : V3) (m : Mods)
  /-- Scratchpad atomic signed minimum. (R234) -/
  | atomMinSB32Scr (f : V3) (m : Mods)
  /-- Scratchpad atomic signed maximum. (R234) -/
  | atomMaxSB32Scr (f : V3) (m : Mods)
  /-- Scratchpad atomic unsigned minimum. (R234) -/
  | atomMinNB32Scr (f : V3) (m : Mods)
  /-- Scratchpad atomic unsigned maximum. (R234) -/
  | atomMaxNB32Scr (f : V3) (m : Mods)
  /-- Scratchpad atomic AND. (R234) -/
  | atomAndB32Scr (f : V3) (m : Mods)
  /-- Scratchpad atomic OR. (R234) -/
  | atomOrB32Scr (f : V3) (m : Mods)
  /-- Scratchpad atomic XOR. (R234) -/
  | atomXorB32Scr (f : V3) (m : Mods)
  /-- Scratchpad atomic exchange. (R234) -/
  | atomExchB32Scr (f : V3) (m : Mods)
  /-- Scratchpad compare-and-swap. (R234) -/
  | atomCasB32Scr (f : V3) (m : Mods)
  /-- Scratchpad atomic FP32 add. (R235) -/
  | atomFaddF32Scr (f : V3) (m : Mods)
  /-- Scratchpad 64-bit atomic add. (R234) -/
  | atomAddB64Scr (f : V3) (m : Mods)
  /-- Scratchpad 64-bit signed minimum. (R234) -/
  | atomMinSB64Scr (f : V3) (m : Mods)
  /-- Scratchpad 64-bit signed maximum. (R234) -/
  | atomMaxSB64Scr (f : V3) (m : Mods)
  /-- Scratchpad 64-bit unsigned minimum. (R234) -/
  | atomMinNB64Scr (f : V3) (m : Mods)
  /-- Scratchpad 64-bit unsigned maximum. (R234) -/
  | atomMaxNB64Scr (f : V3) (m : Mods)
  /-- Scratchpad 64-bit atomic AND. (R234) -/
  | atomAndB64Scr (f : V3) (m : Mods)
  /-- Scratchpad 64-bit atomic OR. (R234) -/
  | atomOrB64Scr (f : V3) (m : Mods)
  /-- Scratchpad 64-bit atomic XOR. (R234) -/
  | atomXorB64Scr (f : V3) (m : Mods)
  /-- Scratchpad 64-bit exchange. (R234) -/
  | atomExchB64Scr (f : V3) (m : Mods)
  /-- Scratchpad 64-bit compare-and-swap. (R234) -/
  | atomCasB64Scr (f : V3) (m : Mods)
  /-- Scratchpad atomic FP64 add. (R235) -/
  | atomFaddF64Scr (f : V3) (m : Mods)
  /-- Scalar 32-bit load. (R237) -/
  | sldB32 (f : FS) (m : Mods)
  /-- Scalar 64-bit load. (R237) -/
  | sldB64 (f : FS) (m : Mods)
  /-- Scalar 32-bit store. (R237) -/
  | sstB32 (f : FS) (m : Mods)
  /-- Scalar 64-bit store. (R237) -/
  | sstB64 (f : FS) (m : Mods)
  /-- Scalar atomic add. (R237) -/
  | atomsAddB32 (f : FS) (m : Mods)
  /-- Scalar atomic unsigned maximum. (R237) -/
  | atomsMaxN32 (f : FS) (m : Mods)
  /-- Scalar atomic exchange. (R237) -/
  | atomsExchB32 (f : FS) (m : Mods)
  /-- Scalar 64-bit atomic add. (R237) -/
  | atomsAddB64 (f : FS) (m : Mods)
  /-- Scalar 64-bit atomic unsigned maximum. (R237) -/
  | atomsMaxN64 (f : FS) (m : Mods)
  /-- Scalar 64-bit atomic exchange. (R237) -/
  | atomsExchB64 (f : FS) (m : Mods)
  /-- Sends a keyed FP32 contribution to Bramble. (R238) -/
  | scataddF32 (f : V3) (m : Mods)
  /-- Bulk prefetch that returns a token. (R239) -/
  | bpref (f : V3) (m : Mods)
  /-- Bulk prefetch that counts down a barrier object. (R239) -/
  | bprefBo (f : V3) (m : Mods)
  /-- Drops one shape-record cache entry. (R240) -/
  | shinv (f : V3) (m : Mods)
  /-- Drops every shape-record cache entry. (R240) -/
  | shinvAll (f : V3) (m : Mods)
  /-- Votes the format and submits a matrix operation. (R288) -/
  | mma (f : V4) (m : Mods)
  /-- Submits a tile zeroing. (R291) -/
  | mzero (f : V4) (m : Mods)
  /-- Submits a tile load. (R292) -/
  | mload (f : V4) (m : Mods)
  /-- Submits a tile drain. (R293) -/
  | mdrain (f : V4) (m : Mods)
  /-- Submits an optimiser update. (R294) -/
  | mupd (f : V4) (m : Mods)
  /-- Waits for a tile's operations and pushes its status. (R295) -/
  | mwait (f : V4) (m : Mods)
  /-- Prunes a dense tile to 4-in-8 and pushes metadata. (R297) -/
  | mcompress (f : V4) (m : Mods)
  /-- Reads an AMAX register. (R300) -/
  | amaxrd (f : V4) (m : Mods)
  /-- Waits for earlier drains, then reads an AMAX register. (R300) -/
  | amaxrdSync (f : V4) (m : Mods)
  /-- Reads and clears an AMAX register. (R301) -/
  | amaxclr (f : V4) (m : Mods)
  /-- Memory fence of its kind and scope. (R389) -/
  | fence (f : V4) (m : Mods)
  /-- Arrives at a team barrier. (R390) -/
  | barteam (f : V4) (m : Mods)
  /-- Arrives at a cluster barrier. (R390) -/
  | barclu (f : V4) (m : Mods)
  /-- Initialises a barrier object. (R391) -/
  | boinit (f : V4) (m : Mods)
  /-- Atomically adds to a barrier object. (R391) -/
  | boarr (f : V4) (m : Mods)
  /-- Waits until a barrier object is at or below zero. (R392) -/
  | bowait (f : V4) (m : Mods)
  /-- Waits for a prefetch token. (R393) -/
  | tokwait (f : V4) (m : Mods)
  /-- Submits a job card. (R394) -/
  | kick (f : V4) (m : Mods)
  /-- Flushes covered scatter contributions. (R395) -/
  | scatflush (f : V4) (m : Mods)
  /-- Places a launch packet in a queue. (R396) -/
  | glaunch (f : V4) (m : Mods)
  /-- Changes an allotted bank's mode. (R397) -/
  | srammode (f : V4) (m : Mods)
  /-- Filtered texture sample. (R335) -/
  | texs (f : V4) (m : Mods)
  /-- Texture gather. (R336) -/
  | texg (f : V4) (m : Mods)
  /-- Texture adjoint: contributions and coordinate gradients. (R337) -/
  | texadj (f : V4) (m : Mods)
  /-- Nearest ray-triangle hit. (R340) -/
  | trace (f : V4) (m : Mods)
  /-- Traversal adjoint for one triangle. (R341) -/
  | traceadj (f : V4) (m : Mods)
  /-- Reads a boundary sample record. (R342) -/
  | edgeq (f : V4) (m : Mods)
  /-- Appends a 32-bit tape record. (R344) -/
  | trecB32 (f : V4) (m : Mods)
  /-- Appends a 64-bit tape record. (R344) -/
  | trecB64 (f : V4) (m : Mods)
  /-- Pops a 32-bit tape record. (R345) -/
  | tpopB32 (f : V4) (m : Mods)
  /-- Pops a 64-bit tape record. (R345) -/
  | tpopB64 (f : V4) (m : Mods)
  /-- Opens or closes a recompute span. (R346) -/
  | tmark (f : V4) (m : Mods)
  /-- Seals the lane's tape stream. (R347) -/
  | tseal (f : V4) (m : Mods)
  deriving DecidableEq, Repr

end Sys2Proof
end

