-- ==== Sys2Proof/Decode.lean ====
section
/-! DEFINITION. The decoder, the checks that a word meets at decode, the packet rules, and the encoder (spec 05). -/

namespace Sys2Proof

/-! ## Fields of a word (spec 05 Table 5-1) -/

/-- MAJ, bits [30:25]. -/
def majorOf (w : W32) : BitVec 6 := w.extractLsb' 25 6
/-- MIN, bits [3:0]. -/
def minorOf (w : W32) : BitVec 4 := w.extractLsb' 0 4
/-- C, bit [31]. -/
def chainOf (w : W32) : Bool := w.getLsbD 31

def unpackV3 (w : W32) : V3 :=
  ⟨w.extractLsb' 19 6, w.extractLsb' 13 6, w.extractLsb' 7 6, w.extractLsb' 4 3⟩
def unpackV4 (w : W32) : V4 :=
  ⟨w.extractLsb' 19 6, w.extractLsb' 13 6, w.extractLsb' 7 6, w.extractLsb' 4 3⟩
def unpackS (w : W32) : FS :=
  ⟨w.extractLsb' 20 5, w.extractLsb' 15 5, w.extractLsb' 9 6, w.extractLsb' 4 5⟩
def unpackB (w : W32) : FB := ⟨w.extractLsb' 24 1, w.extractLsb' 21 3, w.extractLsb' 4 17⟩
def unpackBrs (w : W32) : FBrs := ⟨w.extractLsb' 20 5, w.extractLsb' 4 15⟩
def unpackY (w : W32) : FY := ⟨w.extractLsb' 19 6, w.extractLsb' 13 6, w.extractLsb' 4 9⟩
def unpackExt (w : W32) : Ext :=
  ⟨chainOf w, w.getLsbD 24, w.extractLsb' 21 3, w.extractLsb' 20 1, w.extractLsb' 4 16, w.extractLsb' 0 4⟩

/-- The top seven bits of an instruction or extension word. -/
def packTop (maj : BitVec 6) (chain : Bool) : BitVec 7 := BitVec.ofBool chain ++ maj

def packV3 (maj : BitVec 6) (min : BitVec 4) (f : V3) (chain : Bool) : W32 :=
  packTop maj chain ++ f.d ++ f.a ++ f.b ++ f.g ++ min
def packV4 (maj : BitVec 6) (min : BitVec 4) (f : V4) (chain : Bool) : W32 :=
  packTop maj chain ++ f.a ++ f.b ++ f.c ++ f.g ++ min
def packS (maj : BitVec 6) (min : BitVec 4) (f : FS) (chain : Bool) : W32 :=
  packTop maj chain ++ f.sd ++ f.sa ++ f.sb ++ f.sx ++ min
def packB (maj : BitVec 6) (min : BitVec 4) (f : FB) (chain : Bool) : W32 :=
  packTop maj chain ++ f.gn ++ f.g ++ f.off ++ min
def packBrs (z : BitVec 1) (f : FBrs) (chain : Bool) : W32 :=
  packTop 12 chain ++ f.sa ++ z ++ f.off ++ 1#4
def packY (maj : BitVec 6) (min : BitVec 4) (f : FY) (chain : Bool) : W32 :=
  packTop maj chain ++ f.d ++ f.a ++ f.n ++ min
def packExt (e : Ext) : W32 :=
  packTop 63 e.chain ++ BitVec.ofBool e.gn ++ e.mod3 ++ e.mod1 ++ e.imm16 ++ e.xop

/-! ## What a field of an instruction is (spec 05 R97-R100, R108) -/

/-- The types an operand is read or a result written at; those of 64 bits differ in how a literal is widened (R99). -/
inductive Ty where
  | b4 | b8 | b16 | b32 | s64 | b64 | f64 | b128 | b256
  deriving DecidableEq, Repr

/-- The width of a type in bits. -/
def tyBits : Ty → Nat
  | .b4 => 4 | .b8 => 8 | .b16 => 16 | .b32 => 32 | .s64 => 64 | .b64 => 64 | .f64 => 64 | .b128 => 128 | .b256 => 256

/-- How an instruction uses a six-bit field: a selector or destination of a type, the SB selector of format S, a field
that must be idle (in a selector's place or in the destination's), named bits in place of the field, or ignored. -/
inductive Use where
  | dst (t : Ty)
  | sel (t : Ty)
  | selS
  | idle
  | idleD
  | bits (mask : BitVec 6)
  | any
  deriving DecidableEq, Repr

/-- The kinds of memory instruction that Table 5-4 sets apart by their ordering values. -/
inductive MemKind where
  | load | store | atomic | plain | line | shinv
  deriving DecidableEq, Repr

/-- The extension contents an instruction permits (spec 05 Table 5-4, 09 R195, 11 R220, R240). -/
inductive ExtRule where
  | none
  | int (sat table : Bool)
  | flt (rm salt : Bool)
  | mem (k : MemKind) (remote ncross : Bool)
  | memS (k : MemKind) (remote ncross : Bool)
  | eng (laneSel : Bool)
  deriving DecidableEq, Repr

/-- The decode signature of an instruction: its six-bit fields with their uses, the reasons its own checks give, the
extension it permits, and its guard. -/
structure Sig where
  fields : List (Use × BitVec 6)
  own    : List (Bool × Nat)
  ext    : ExtRule
  guard  : BitVec 3
  deriving DecidableEq, Repr

/-- The width of a system register (spec 20 Table 20-1): TRAPPC and TAPEDESC are 64 bits. -/
def sysTy (n : BitVec 9) : Ty := if n == 4 || n == 12 then .b64 else .b32

/-- The width of a launch value (spec 08 Table 8-4). -/
def sreadTy (n : BitVec 9) : Ty :=
  if n == 10 || n == 15 || n == 16 || n == 24 || n == 25 || n == 27 then .b64 else .b32

/-- TO of CVT and CVTSR: B[12:8] of the word (spec 05 R105). -/
def cvtTo (b : BitVec 6) : Nat := (b.extractLsb' 1 5).toNat
/-- FROM of CVT and CVTSR: B[7] of the word above MIN (spec 05 R105). -/
def cvtFrom (b : BitVec 6) (from4 : BitVec 4) : Nat := (b.extractLsb' 0 1 ++ from4).toNat

/-- The width in bits of a type code of Table 5-7, 0 for a reserved code. -/
def cvtWidth : Nat → Nat
  | 0 => 8 | 1 => 16 | 2 => 32 | 3 => 64 | 4 => 8 | 5 => 16 | 6 => 32 | 7 => 64
  | 8 => 64 | 9 => 32 | 10 => 16 | 11 => 16 | 12 => 8 | 13 => 8 | 14 => 4 | _ => 0

/-- Whether a type code is a float (spec 05 Table 5-7). -/
def cvtIsFloat (t : Nat) : Bool := decide (8 ≤ t) && decide (t ≤ 14)

/-- The result type of a conversion to a type code. -/
def cvtDstTy (t : Nat) : Ty := if cvtWidth t == 64 then .b64 else .b32

/-- The operand type of a conversion from a type code (literals by R99). -/
def cvtSrcTy : Nat → Ty
  | 0 => .b8 | 1 => .b16 | 3 => .s64 | 4 => .b8 | 5 => .b16 | 7 => .b64 | 8 => .f64
  | 10 => .b16 | 11 => .b16 | 12 => .b8 | 13 => .b8 | 14 => .b4 | _ => .b32

/-- Whether CVT (or CVTSR) takes the pair: both codes are assigned, they differ, and for CVTSR the target is a float and
the source a wider float or an integer (spec 05 R105). Every pair of distinct assigned codes has a row in R64. -/
def cvtLegal (sr : Bool) (dst src : Nat) : Bool :=
  decide (dst ≤ 14) && decide (src ≤ 14) && dst != src &&
    (!sr || (cvtIsFloat dst && (!cvtIsFloat src || decide (cvtWidth dst < cvtWidth src))))

/-- The decode signature of each instruction, from the form tables of the instruction chapters. -/
def Instr.sig : Instr → Option Sig
  | .nop f _ => some ⟨[(.any, f.d), (.any, f.a)], [], .none, 0⟩
  | .hint _ f _ => some ⟨[(.any, f.d), (.any, f.a)], [], .none, 0⟩
  | .trap f _ => some ⟨[(.idleD, f.d), (.sel .b64, f.a)], [], .none, 0⟩
  | .eret f _ => some ⟨[(.idleD, f.d), (.idle, f.a)], [(f.n != 0, 4)], .none, 0⟩
  | .bkpt f _ => some ⟨[(.idleD, f.d), (.sel .b64, f.a)], [], .none, 0⟩
  | .yield f _ => some ⟨[(.idleD, f.d), (.idle, f.a)], [], .none, 0⟩
  | .sysrd f _ => some ⟨[(.dst (sysTy f.n), f.d), (.idle, f.a)], [(decide (14 ≤ f.n.toNat), 2)], .none, 0⟩
  | .syswr f _ => some ⟨[(.idleD, f.d), (.sel (sysTy f.n), f.a)], [(decide (14 ≤ f.n.toNat), 2)], .none, 0⟩
  | .sread f _ => some ⟨[(.dst (sreadTy f.n), f.d), (.idle, f.a)], [(decide (29 ≤ f.n.toNat), 2)], .none, 0⟩
  | .regn f _ => some ⟨[(.idleD, f.d), (.sel .b32, f.a)], [(f.n != 0, 4)], .none, 0⟩
  | .iaddS32 f _ => some ⟨[(.dst .b32, f.d), (.sel .b32, f.a), (.sel .b32, f.b)], [], .int true false, f.g⟩
  | .isubS32 f _ => some ⟨[(.dst .b32, f.d), (.sel .b32, f.a), (.sel .b32, f.b)], [], .int true false, f.g⟩
  | .imulS32 f _ => some ⟨[(.dst .b32, f.d), (.sel .b32, f.a), (.sel .b32, f.b)], [], .int false false, f.g⟩
  | .imulhS32 f _ => some ⟨[(.dst .b32, f.d), (.sel .b32, f.a), (.sel .b32, f.b)], [], .int false false, f.g⟩
  | .idivS32 f _ => some ⟨[(.dst .b32, f.d), (.sel .b32, f.a), (.sel .b32, f.b)], [], .int false false, f.g⟩
  | .iremS32 f _ => some ⟨[(.dst .b32, f.d), (.sel .b32, f.a), (.sel .b32, f.b)], [], .int false false, f.g⟩
  | .iminS32 f _ => some ⟨[(.dst .b32, f.d), (.sel .b32, f.a), (.sel .b32, f.b)], [], .int false false, f.g⟩
  | .imaxS32 f _ => some ⟨[(.dst .b32, f.d), (.sel .b32, f.a), (.sel .b32, f.b)], [], .int false false, f.g⟩
  | .iabsS32 f _ => some ⟨[(.dst .b32, f.d), (.sel .b32, f.a), (.idle, f.b)], [], .int true false, f.g⟩
  | .inegS32 f _ => some ⟨[(.dst .b32, f.d), (.sel .b32, f.a), (.idle, f.b)], [], .int true false, f.g⟩
  | .shlS32 f _ => some ⟨[(.dst .b32, f.d), (.sel .b32, f.a), (.sel .b32, f.b)], [], .int false false, f.g⟩
  | .shrS32 f _ => some ⟨[(.dst .b32, f.d), (.sel .b32, f.a), (.sel .b32, f.b)], [], .int false false, f.g⟩
  | .sarS32 f _ => some ⟨[(.dst .b32, f.d), (.sel .b32, f.a), (.sel .b32, f.b)], [], .int false false, f.g⟩
  | .popcS32 f _ => some ⟨[(.dst .b32, f.d), (.sel .b32, f.a), (.idle, f.b)], [], .int false false, f.g⟩
  | .clzS32 f _ => some ⟨[(.dst .b32, f.d), (.sel .b32, f.a), (.idle, f.b)], [], .int false false, f.g⟩
  | .brevS32 f _ => some ⟨[(.dst .b32, f.d), (.sel .b32, f.a), (.idle, f.b)], [], .int false false, f.g⟩
  | .iaddN32 f _ => some ⟨[(.dst .b32, f.d), (.sel .b32, f.a), (.sel .b32, f.b)], [], .int true false, f.g⟩
  | .isubN32 f _ => some ⟨[(.dst .b32, f.d), (.sel .b32, f.a), (.sel .b32, f.b)], [], .int true false, f.g⟩
  | .imulN32 f _ => some ⟨[(.dst .b32, f.d), (.sel .b32, f.a), (.sel .b32, f.b)], [], .int false false, f.g⟩
  | .imulhN32 f _ => some ⟨[(.dst .b32, f.d), (.sel .b32, f.a), (.sel .b32, f.b)], [], .int false false, f.g⟩
  | .idivN32 f _ => some ⟨[(.dst .b32, f.d), (.sel .b32, f.a), (.sel .b32, f.b)], [], .int false false, f.g⟩
  | .iremN32 f _ => some ⟨[(.dst .b32, f.d), (.sel .b32, f.a), (.sel .b32, f.b)], [], .int false false, f.g⟩
  | .iminN32 f _ => some ⟨[(.dst .b32, f.d), (.sel .b32, f.a), (.sel .b32, f.b)], [], .int false false, f.g⟩
  | .imaxN32 f _ => some ⟨[(.dst .b32, f.d), (.sel .b32, f.a), (.sel .b32, f.b)], [], .int false false, f.g⟩
  | .inegN32 f _ => some ⟨[(.dst .b32, f.d), (.sel .b32, f.a), (.idle, f.b)], [], .int true false, f.g⟩
  | .shlN32 f _ => some ⟨[(.dst .b32, f.d), (.sel .b32, f.a), (.sel .b32, f.b)], [], .int false false, f.g⟩
  | .shrN32 f _ => some ⟨[(.dst .b32, f.d), (.sel .b32, f.a), (.sel .b32, f.b)], [], .int false false, f.g⟩
  | .popcN32 f _ => some ⟨[(.dst .b32, f.d), (.sel .b32, f.a), (.idle, f.b)], [], .int false false, f.g⟩
  | .clzN32 f _ => some ⟨[(.dst .b32, f.d), (.sel .b32, f.a), (.idle, f.b)], [], .int false false, f.g⟩
  | .brevN32 f _ => some ⟨[(.dst .b32, f.d), (.sel .b32, f.a), (.idle, f.b)], [], .int false false, f.g⟩
  | .iaddS64 f _ => some ⟨[(.dst .s64, f.d), (.sel .s64, f.a), (.sel .s64, f.b)], [], .int true false, f.g⟩
  | .isubS64 f _ => some ⟨[(.dst .s64, f.d), (.sel .s64, f.a), (.sel .s64, f.b)], [], .int true false, f.g⟩
  | .imulS64 f _ => some ⟨[(.dst .s64, f.d), (.sel .s64, f.a), (.sel .s64, f.b)], [], .int false false, f.g⟩
  | .imulhS64 f _ => some ⟨[(.dst .s64, f.d), (.sel .s64, f.a), (.sel .s64, f.b)], [], .int false false, f.g⟩
  | .idivS64 f _ => some ⟨[(.dst .s64, f.d), (.sel .s64, f.a), (.sel .s64, f.b)], [], .int false false, f.g⟩
  | .iremS64 f _ => some ⟨[(.dst .s64, f.d), (.sel .s64, f.a), (.sel .s64, f.b)], [], .int false false, f.g⟩
  | .iminS64 f _ => some ⟨[(.dst .s64, f.d), (.sel .s64, f.a), (.sel .s64, f.b)], [], .int false false, f.g⟩
  | .imaxS64 f _ => some ⟨[(.dst .s64, f.d), (.sel .s64, f.a), (.sel .s64, f.b)], [], .int false false, f.g⟩
  | .iabsS64 f _ => some ⟨[(.dst .s64, f.d), (.sel .s64, f.a), (.idle, f.b)], [], .int true false, f.g⟩
  | .inegS64 f _ => some ⟨[(.dst .s64, f.d), (.sel .s64, f.a), (.idle, f.b)], [], .int true false, f.g⟩
  | .shlS64 f _ => some ⟨[(.dst .s64, f.d), (.sel .s64, f.a), (.sel .s64, f.b)], [], .int false false, f.g⟩
  | .shrS64 f _ => some ⟨[(.dst .s64, f.d), (.sel .s64, f.a), (.sel .s64, f.b)], [], .int false false, f.g⟩
  | .sarS64 f _ => some ⟨[(.dst .s64, f.d), (.sel .s64, f.a), (.sel .s64, f.b)], [], .int false false, f.g⟩
  | .popcS64 f _ => some ⟨[(.dst .s64, f.d), (.sel .s64, f.a), (.idle, f.b)], [], .int false false, f.g⟩
  | .clzS64 f _ => some ⟨[(.dst .s64, f.d), (.sel .s64, f.a), (.idle, f.b)], [], .int false false, f.g⟩
  | .brevS64 f _ => some ⟨[(.dst .s64, f.d), (.sel .s64, f.a), (.idle, f.b)], [], .int false false, f.g⟩
  | .iaddN64 f _ => some ⟨[(.dst .b64, f.d), (.sel .b64, f.a), (.sel .b64, f.b)], [], .int true false, f.g⟩
  | .isubN64 f _ => some ⟨[(.dst .b64, f.d), (.sel .b64, f.a), (.sel .b64, f.b)], [], .int true false, f.g⟩
  | .imulN64 f _ => some ⟨[(.dst .b64, f.d), (.sel .b64, f.a), (.sel .b64, f.b)], [], .int false false, f.g⟩
  | .imulhN64 f _ => some ⟨[(.dst .b64, f.d), (.sel .b64, f.a), (.sel .b64, f.b)], [], .int false false, f.g⟩
  | .idivN64 f _ => some ⟨[(.dst .b64, f.d), (.sel .b64, f.a), (.sel .b64, f.b)], [], .int false false, f.g⟩
  | .iremN64 f _ => some ⟨[(.dst .b64, f.d), (.sel .b64, f.a), (.sel .b64, f.b)], [], .int false false, f.g⟩
  | .iminN64 f _ => some ⟨[(.dst .b64, f.d), (.sel .b64, f.a), (.sel .b64, f.b)], [], .int false false, f.g⟩
  | .imaxN64 f _ => some ⟨[(.dst .b64, f.d), (.sel .b64, f.a), (.sel .b64, f.b)], [], .int false false, f.g⟩
  | .inegN64 f _ => some ⟨[(.dst .b64, f.d), (.sel .b64, f.a), (.idle, f.b)], [], .int true false, f.g⟩
  | .shlN64 f _ => some ⟨[(.dst .b64, f.d), (.sel .b64, f.a), (.sel .b64, f.b)], [], .int false false, f.g⟩
  | .shrN64 f _ => some ⟨[(.dst .b64, f.d), (.sel .b64, f.a), (.sel .b64, f.b)], [], .int false false, f.g⟩
  | .popcN64 f _ => some ⟨[(.dst .b64, f.d), (.sel .b64, f.a), (.idle, f.b)], [], .int false false, f.g⟩
  | .clzN64 f _ => some ⟨[(.dst .b64, f.d), (.sel .b64, f.a), (.idle, f.b)], [], .int false false, f.g⟩
  | .brevN64 f _ => some ⟨[(.dst .b64, f.d), (.sel .b64, f.a), (.idle, f.b)], [], .int false false, f.g⟩
  | .iaddS16X2 f _ => some ⟨[(.dst .b32, f.d), (.sel .b32, f.a), (.sel .b32, f.b)], [], .int true false, f.g⟩
  | .isubS16X2 f _ => some ⟨[(.dst .b32, f.d), (.sel .b32, f.a), (.sel .b32, f.b)], [], .int true false, f.g⟩
  | .imulS16X2 f _ => some ⟨[(.dst .b32, f.d), (.sel .b32, f.a), (.sel .b32, f.b)], [], .int false false, f.g⟩
  | .iminS16X2 f _ => some ⟨[(.dst .b32, f.d), (.sel .b32, f.a), (.sel .b32, f.b)], [], .int false false, f.g⟩
  | .imaxS16X2 f _ => some ⟨[(.dst .b32, f.d), (.sel .b32, f.a), (.sel .b32, f.b)], [], .int false false, f.g⟩
  | .iminN16X2 f _ => some ⟨[(.dst .b32, f.d), (.sel .b32, f.a), (.sel .b32, f.b)], [], .int false false, f.g⟩
  | .imaxN16X2 f _ => some ⟨[(.dst .b32, f.d), (.sel .b32, f.a), (.sel .b32, f.b)], [], .int false false, f.g⟩
  | .iabsS16X2 f _ => some ⟨[(.dst .b32, f.d), (.sel .b32, f.a), (.idle, f.b)], [], .int true false, f.g⟩
  | .inegS16X2 f _ => some ⟨[(.dst .b32, f.d), (.sel .b32, f.a), (.idle, f.b)], [], .int true false, f.g⟩
  | .shlB16X2 f _ => some ⟨[(.dst .b32, f.d), (.sel .b32, f.a), (.sel .b32, f.b)], [], .int false false, f.g⟩
  | .shrB16X2 f _ => some ⟨[(.dst .b32, f.d), (.sel .b32, f.a), (.sel .b32, f.b)], [], .int false false, f.g⟩
  | .sarS16X2 f _ => some ⟨[(.dst .b32, f.d), (.sel .b32, f.a), (.sel .b32, f.b)], [], .int false false, f.g⟩
  | .icmp32 cond f _ => some ⟨[(.bits 0b111000, f.d), (.sel .b32, f.a), (.sel .b32, f.b)], [(decide (10 ≤ cond.toNat), 2)], .int false false, f.g⟩
  | .icmp64 cond f _ => some ⟨[(.bits 0b111000, f.d), (.sel (if (cond == 2#4 || cond == 3#4 || cond == 4#4 || cond == 5#4) then .s64 else .b64), f.a), (.sel (if (cond == 2#4 || cond == 3#4 || cond == 4#4 || cond == 5#4) then .s64 else .b64), f.b)], [(decide (10 ≤ cond.toNat), 2)], .int false false, f.g⟩
  | .movB32 f _ => some ⟨[(.dst .b32, f.d), (.sel .b32, f.a), (.idle, f.b)], [], .int false false, f.g⟩
  | .movB64 f _ => some ⟨[(.dst .b64, f.d), (.sel .b64, f.a), (.idle, f.b)], [], .int false false, f.g⟩
  | .movsB32 f _ => some ⟨[(.bits 0b011111, f.d), (.sel .b32, f.a), (.idle, f.b)], [], .int false false, f.g⟩
  | .movsB64 f _ => some ⟨[(.bits 0b011111, f.d), (.sel .b64, f.a), (.idle, f.b)], [], .int false false, f.g⟩
  | .mvrd f _ => some ⟨[(.dst .b32, f.d), (.sel .b32, f.a), (.bits 0b011111, f.b)], [], .int false false, f.g⟩
  | .leaSh0 f _ => some ⟨[(.dst .b64, f.d), (.sel .b64, f.a), (.sel .b32, f.b)], [], .int false false, f.g⟩
  | .leaSh1 f _ => some ⟨[(.dst .b64, f.d), (.sel .b64, f.a), (.sel .b32, f.b)], [], .int false false, f.g⟩
  | .leaSh2 f _ => some ⟨[(.dst .b64, f.d), (.sel .b64, f.a), (.sel .b32, f.b)], [], .int false false, f.g⟩
  | .leaSh3 f _ => some ⟨[(.dst .b64, f.d), (.sel .b64, f.a), (.sel .b32, f.b)], [], .int false false, f.g⟩
  | .bfxS32 f _ => some ⟨[(.dst .b32, f.d), (.sel .b32, f.a), (.sel .b32, f.b)], [], .int false false, f.g⟩
  | .bfxN32 f _ => some ⟨[(.dst .b32, f.d), (.sel .b32, f.a), (.sel .b32, f.b)], [], .int false false, f.g⟩
  | .bfxS64 f _ => some ⟨[(.dst .s64, f.d), (.sel .s64, f.a), (.sel .b32, f.b)], [], .int false false, f.g⟩
  | .bfxN64 f _ => some ⟨[(.dst .b64, f.d), (.sel .b64, f.a), (.sel .b32, f.b)], [], .int false false, f.g⟩
  | .imadS32 f _ => some ⟨[(.sel .b32, f.a), (.sel .b32, f.b), (.sel .b32, f.c)], [], .int false false, f.g⟩
  | .imadN32 f _ => some ⟨[(.sel .b32, f.a), (.sel .b32, f.b), (.sel .b32, f.c)], [], .int false false, f.g⟩
  | .imadS64 f _ => some ⟨[(.sel .s64, f.a), (.sel .s64, f.b), (.sel .s64, f.c)], [], .int false false, f.g⟩
  | .imadN64 f _ => some ⟨[(.sel .b64, f.a), (.sel .b64, f.b), (.sel .b64, f.c)], [], .int false false, f.g⟩
  | .logic3B32 f _ => some ⟨[(.sel .b32, f.a), (.sel .b32, f.b), (.sel .b32, f.c)], [], .int false true, f.g⟩
  | .logic3B64 f _ => some ⟨[(.sel .b64, f.a), (.sel .b64, f.b), (.sel .b64, f.c)], [], .int false true, f.g⟩
  | .fshfLB32 f _ => some ⟨[(.sel .b32, f.a), (.sel .b32, f.b), (.sel .b32, f.c)], [], .int false false, f.g⟩
  | .fshfRB32 f _ => some ⟨[(.sel .b32, f.a), (.sel .b32, f.b), (.sel .b32, f.c)], [], .int false false, f.g⟩
  | .bfiB32 f _ => some ⟨[(.sel .b32, f.a), (.sel .b32, f.b), (.sel .b32, f.c)], [], .int false false, f.g⟩
  | .bfiB64 f _ => some ⟨[(.sel .b64, f.a), (.sel .b64, f.b), (.sel .b32, f.c)], [], .int false false, f.g⟩
  | .selB32 f _ => some ⟨[(.sel .b32, f.a), (.sel .b32, f.b), (.bits 0b000111, f.c)], [], .int false false, f.g⟩
  | .selB64 f _ => some ⟨[(.sel .b64, f.a), (.sel .b64, f.b), (.bits 0b000111, f.c)], [], .int false false, f.g⟩
  | .mvwr f _ => some ⟨[(.sel .b32, f.a), (.sel .b32, f.b), (.bits 0b011111, f.c)], [], .int false false, f.g⟩
  | .plogic f _ => some ⟨[(.bits 0b111000, f.d), (.bits 0b111111, f.a), (.bits 0b111000, f.b)], [], .int false true, f.g⟩
  | .voteAny f _ => some ⟨[(.bits 0b111000, f.d), (.bits 0b111000, f.a), (.idle, f.b)], [], .int false false, f.g⟩
  | .voteAll f _ => some ⟨[(.bits 0b111000, f.d), (.bits 0b111000, f.a), (.idle, f.b)], [], .int false false, f.g⟩
  | .voteBallot f _ => some ⟨[(.dst .b32, f.d), (.bits 0b111000, f.a), (.idle, f.b)], [], .int false false, f.g⟩
  | .sadd f _ => some ⟨[(.selS, f.sb)], [(f.sx != 0, 4)], .none, 0⟩
  | .ssub f _ => some ⟨[(.selS, f.sb)], [(f.sx != 0, 4)], .none, 0⟩
  | .smul f _ => some ⟨[(.selS, f.sb)], [(f.sx != 0, 4)], .none, 0⟩
  | .sand f _ => some ⟨[(.selS, f.sb)], [(f.sx != 0, 4)], .none, 0⟩
  | .sor f _ => some ⟨[(.selS, f.sb)], [(f.sx != 0, 4)], .none, 0⟩
  | .sxor f _ => some ⟨[(.selS, f.sb)], [(f.sx != 0, 4)], .none, 0⟩
  | .sshl f _ => some ⟨[(.selS, f.sb)], [(f.sx != 0, 4)], .none, 0⟩
  | .sshr f _ => some ⟨[(.selS, f.sb)], [(f.sx != 0, 4)], .none, 0⟩
  | .scmp f _ => some ⟨[(.selS, f.sb)], [(f.sx.getLsbD 0 || decide (10 ≤ f.sx.toNat / 2), 4)], .none, 0⟩
  | .smov f _ => some ⟨[(.selS, f.sb)], [(f.sx != 0 || f.sa != 0, 4)], .none, 0⟩
  | .br f _ => some ⟨[], [], .none, f.g⟩
  | .brsZ _ _ => some ⟨[], [], .none, 0⟩
  | .brsNz _ _ => some ⟨[], [], .none, 0⟩
  | .call f _ => some ⟨[], [], .none, f.g⟩
  | .ret f _ => some ⟨[], [(f.off != 0, 4)], .none, f.g⟩
  | .enrol f _ => some ⟨[], [(f.off.extractLsb' 0 14 != 0, 4)], .none, f.g⟩
  | .rejoin f _ => some ⟨[], [(f.off.extractLsb' 0 14 != 0, 4)], .none, f.g⟩
  | .exit f _ => some ⟨[], [(f.off != 0, 4)], .none, f.g⟩
  | .jmpi f _ => some ⟨[(.sel .b32, f.off.extractLsb' 11 6)], [(f.off.extractLsb' 0 11 != 0, 4)], .none, f.g⟩
  | .faddF32 f _ => some ⟨[(.dst .b32, f.d), (.sel .b32, f.a), (.sel .b32, f.b)], [], .flt true false, f.g⟩
  | .fsubF32 f _ => some ⟨[(.dst .b32, f.d), (.sel .b32, f.a), (.sel .b32, f.b)], [], .flt true false, f.g⟩
  | .fmulF32 f _ => some ⟨[(.dst .b32, f.d), (.sel .b32, f.a), (.sel .b32, f.b)], [], .flt true false, f.g⟩
  | .fminF32 f _ => some ⟨[(.dst .b32, f.d), (.sel .b32, f.a), (.sel .b32, f.b)], [], .flt false false, f.g⟩
  | .fmaxF32 f _ => some ⟨[(.dst .b32, f.d), (.sel .b32, f.a), (.sel .b32, f.b)], [], .flt false false, f.g⟩
  | .frndF32 f _ => some ⟨[(.dst .b32, f.d), (.sel .b32, f.a), (.idle, f.b)], [], .flt true false, f.g⟩
  | .fclassF32 f _ => some ⟨[(.dst .b32, f.d), (.sel .b32, f.a), (.idle, f.b)], [], .flt false false, f.g⟩
  | .faddF64 f _ => some ⟨[(.dst .f64, f.d), (.sel .f64, f.a), (.sel .f64, f.b)], [], .flt true false, f.g⟩
  | .fsubF64 f _ => some ⟨[(.dst .f64, f.d), (.sel .f64, f.a), (.sel .f64, f.b)], [], .flt true false, f.g⟩
  | .fmulF64 f _ => some ⟨[(.dst .f64, f.d), (.sel .f64, f.a), (.sel .f64, f.b)], [], .flt true false, f.g⟩
  | .fminF64 f _ => some ⟨[(.dst .f64, f.d), (.sel .f64, f.a), (.sel .f64, f.b)], [], .flt false false, f.g⟩
  | .fmaxF64 f _ => some ⟨[(.dst .f64, f.d), (.sel .f64, f.a), (.sel .f64, f.b)], [], .flt false false, f.g⟩
  | .frndF64 f _ => some ⟨[(.dst .f64, f.d), (.sel .f64, f.a), (.idle, f.b)], [], .flt true false, f.g⟩
  | .fclassF64 f _ => some ⟨[(.dst .b32, f.d), (.sel .f64, f.a), (.idle, f.b)], [], .flt false false, f.g⟩
  | .faddF16X2 f _ => some ⟨[(.dst .b32, f.d), (.sel .b32, f.a), (.sel .b32, f.b)], [], .flt true false, f.g⟩
  | .fsubF16X2 f _ => some ⟨[(.dst .b32, f.d), (.sel .b32, f.a), (.sel .b32, f.b)], [], .flt true false, f.g⟩
  | .fmulF16X2 f _ => some ⟨[(.dst .b32, f.d), (.sel .b32, f.a), (.sel .b32, f.b)], [], .flt true false, f.g⟩
  | .fminF16X2 f _ => some ⟨[(.dst .b32, f.d), (.sel .b32, f.a), (.sel .b32, f.b)], [], .flt false false, f.g⟩
  | .fmaxF16X2 f _ => some ⟨[(.dst .b32, f.d), (.sel .b32, f.a), (.sel .b32, f.b)], [], .flt false false, f.g⟩
  | .frndF16X2 f _ => some ⟨[(.dst .b32, f.d), (.sel .b32, f.a), (.idle, f.b)], [], .flt true false, f.g⟩
  | .faddBf16X2 f _ => some ⟨[(.dst .b32, f.d), (.sel .b32, f.a), (.sel .b32, f.b)], [], .flt true false, f.g⟩
  | .fsubBf16X2 f _ => some ⟨[(.dst .b32, f.d), (.sel .b32, f.a), (.sel .b32, f.b)], [], .flt true false, f.g⟩
  | .fmulBf16X2 f _ => some ⟨[(.dst .b32, f.d), (.sel .b32, f.a), (.sel .b32, f.b)], [], .flt true false, f.g⟩
  | .fminBf16X2 f _ => some ⟨[(.dst .b32, f.d), (.sel .b32, f.a), (.sel .b32, f.b)], [], .flt false false, f.g⟩
  | .fmaxBf16X2 f _ => some ⟨[(.dst .b32, f.d), (.sel .b32, f.a), (.sel .b32, f.b)], [], .flt false false, f.g⟩
  | .frndBf16X2 f _ => some ⟨[(.dst .b32, f.d), (.sel .b32, f.a), (.idle, f.b)], [], .flt true false, f.g⟩
  | .ffmaF32 f _ => some ⟨[(.sel .b32, f.a), (.sel .b32, f.b), (.sel .b32, f.c)], [], .flt true false, f.g⟩
  | .ffmaF64 f _ => some ⟨[(.sel .f64, f.a), (.sel .f64, f.b), (.sel .f64, f.c)], [], .flt true false, f.g⟩
  | .ffmaF16X2 f _ => some ⟨[(.sel .b32, f.a), (.sel .b32, f.b), (.sel .b32, f.c)], [], .flt true false, f.g⟩
  | .ffmaBf16X2 f _ => some ⟨[(.sel .b32, f.a), (.sel .b32, f.b), (.sel .b32, f.c)], [], .flt true false, f.g⟩
  | .fcmpF32 _ f _ => some ⟨[(.bits 0b111000, f.d), (.sel .b32, f.a), (.sel .b32, f.b)], [], .flt false false, f.g⟩
  | .fcmpF64 _ f _ => some ⟨[(.bits 0b111000, f.d), (.sel .f64, f.a), (.sel .f64, f.b)], [], .flt false false, f.g⟩
  | .fdivF32 f _ => some ⟨[(.dst .b32, f.d), (.sel .b32, f.a), (.sel .b32, f.b)], [], .flt true false, f.g⟩
  | .fsqrtF32 f _ => some ⟨[(.dst .b32, f.d), (.sel .b32, f.a), (.idle, f.b)], [], .flt true false, f.g⟩
  | .frcpF32 f _ => some ⟨[(.dst .b32, f.d), (.sel .b32, f.a), (.idle, f.b)], [], .flt false false, f.g⟩
  | .frsqF32 f _ => some ⟨[(.dst .b32, f.d), (.sel .b32, f.a), (.idle, f.b)], [], .flt false false, f.g⟩
  | .fexp2F32 f _ => some ⟨[(.dst .b32, f.d), (.sel .b32, f.a), (.idle, f.b)], [], .flt false false, f.g⟩
  | .flog2F32 f _ => some ⟨[(.dst .b32, f.d), (.sel .b32, f.a), (.idle, f.b)], [], .flt false false, f.g⟩
  | .fsinF32 f _ => some ⟨[(.dst .b32, f.d), (.sel .b32, f.a), (.idle, f.b)], [], .flt false false, f.g⟩
  | .fcosF32 f _ => some ⟨[(.dst .b32, f.d), (.sel .b32, f.a), (.idle, f.b)], [], .flt false false, f.g⟩
  | .fdivF64 f _ => some ⟨[(.dst .f64, f.d), (.sel .f64, f.a), (.sel .f64, f.b)], [], .flt true false, f.g⟩
  | .fsqrtF64 f _ => some ⟨[(.dst .f64, f.d), (.sel .f64, f.a), (.idle, f.b)], [], .flt true false, f.g⟩
  | .frcpF64 f _ => some ⟨[(.dst .f64, f.d), (.sel .f64, f.a), (.idle, f.b)], [], .flt false false, f.g⟩
  | .frsqF64 f _ => some ⟨[(.dst .f64, f.d), (.sel .f64, f.a), (.idle, f.b)], [], .flt false false, f.g⟩
  | .cvt from4 f _ => some ⟨[(.dst (cvtDstTy (cvtTo f.b)), f.d), (.sel (cvtSrcTy (cvtFrom f.b from4)), f.a)], [(!cvtLegal false (cvtTo f.b) (cvtFrom f.b from4), 7)], .flt true false, f.g⟩
  | .cvtsr from4 f _ => some ⟨[(.dst (cvtDstTy (cvtTo f.b)), f.d), (.sel (cvtSrcTy (cvtFrom f.b from4)), f.a)], [(!cvtLegal true (cvtTo f.b) (cvtFrom f.b from4), 7)], .flt false true, f.g⟩
  | .cvtmxMxe4m3F32 f _ => some ⟨[(.dst .b32, f.d), (.sel .b32, f.a), (.idle, f.b)], [], .flt true false, f.g⟩
  | .cvtmxMxe5m2F32 f _ => some ⟨[(.dst .b32, f.d), (.sel .b32, f.a), (.idle, f.b)], [], .flt true false, f.g⟩
  | .cvtmxMxe2m1F32 f _ => some ⟨[(.dst .b32, f.d), (.sel .b32, f.a), (.idle, f.b)], [], .flt true false, f.g⟩
  | .cvtmxMxe4m3Bf16 f _ => some ⟨[(.dst .b32, f.d), (.sel .b16, f.a), (.idle, f.b)], [], .flt true false, f.g⟩
  | .cvtmxMxe5m2Bf16 f _ => some ⟨[(.dst .b32, f.d), (.sel .b16, f.a), (.idle, f.b)], [], .flt true false, f.g⟩
  | .cvtmxMxe2m1Bf16 f _ => some ⟨[(.dst .b32, f.d), (.sel .b16, f.a), (.idle, f.b)], [], .flt true false, f.g⟩
  | .expandE4m3I4 f _ => some ⟨[(.dst .b64, f.d), (.sel .b32, f.a), (.idle, f.b)], [], .flt false false, f.g⟩
  | .expandE4m3E2m3 f _ => some ⟨[(.dst .b32, f.d), (.sel .b32, f.a), (.idle, f.b)], [], .flt false false, f.g⟩
  | .expandE4m3E3m2 f _ => some ⟨[(.dst .b32, f.d), (.sel .b32, f.a), (.idle, f.b)], [], .flt false false, f.g⟩
  | .expandE5m2E3m2 f _ => some ⟨[(.dst .b32, f.d), (.sel .b32, f.a), (.idle, f.b)], [], .flt false false, f.g⟩
  | .blkscaleMxe4m3 f _ => some ⟨[(.dst .b32, f.d), (.sel .b32, f.a), (.sel .b32, f.b)], [], .flt false false, f.g⟩
  | .blkscaleMxe5m2 f _ => some ⟨[(.dst .b32, f.d), (.sel .b32, f.a), (.sel .b32, f.b)], [], .flt false false, f.g⟩
  | .blkscaleMxe2m1 f _ => some ⟨[(.dst .b32, f.d), (.sel .b32, f.a), (.sel .b32, f.b)], [], .flt false false, f.g⟩
  | .shflIdxB32 f _ => some ⟨[(.dst .b32, f.d), (.sel .b32, f.a), (.sel .b32, f.b)], [], .flt false false, f.g⟩
  | .shflUpB32 f _ => some ⟨[(.dst .b32, f.d), (.sel .b32, f.a), (.sel .b32, f.b)], [], .flt false false, f.g⟩
  | .shflDownB32 f _ => some ⟨[(.dst .b32, f.d), (.sel .b32, f.a), (.sel .b32, f.b)], [], .flt false false, f.g⟩
  | .shflXorB32 f _ => some ⟨[(.dst .b32, f.d), (.sel .b32, f.a), (.sel .b32, f.b)], [], .flt false false, f.g⟩
  | .qswapHB32 f _ => some ⟨[(.dst .b32, f.d), (.sel .b32, f.a), (.idle, f.b)], [], .flt false false, f.g⟩
  | .qswapVB32 f _ => some ⟨[(.dst .b32, f.d), (.sel .b32, f.a), (.idle, f.b)], [], .flt false false, f.g⟩
  | .qswapDB32 f _ => some ⟨[(.dst .b32, f.d), (.sel .b32, f.a), (.idle, f.b)], [], .flt false false, f.g⟩
  | .qbcastB32 f _ => some ⟨[(.dst .b32, f.d), (.sel .b32, f.a), (.sel .b32, f.b)], [], .flt false false, f.g⟩
  | .qderivXFineF32 f _ => some ⟨[(.dst .b32, f.d), (.sel .b32, f.a), (.idle, f.b)], [], .flt false false, f.g⟩
  | .qderivYFineF32 f _ => some ⟨[(.dst .b32, f.d), (.sel .b32, f.a), (.idle, f.b)], [], .flt false false, f.g⟩
  | .qderivXCoarseF32 f _ => some ⟨[(.dst .b32, f.d), (.sel .b32, f.a), (.idle, f.b)], [], .flt false false, f.g⟩
  | .qderivYCoarseF32 f _ => some ⟨[(.dst .b32, f.d), (.sel .b32, f.a), (.idle, f.b)], [], .flt false false, f.g⟩
  | .flagrd f _ => some ⟨[(.dst .b32, f.d), (.idle, f.a), (.idle, f.b)], [], .flt false false, f.g⟩
  | .flagclr f _ => some ⟨[(.dst .b32, f.d), (.sel .b32, f.a), (.idle, f.b)], [], .flt false false, f.g⟩
  | .shflIdxB64 f _ => some ⟨[(.dst .b64, f.d), (.sel .b64, f.a), (.sel .b32, f.b)], [], .flt false false, f.g⟩
  | .shflUpB64 f _ => some ⟨[(.dst .b64, f.d), (.sel .b64, f.a), (.sel .b32, f.b)], [], .flt false false, f.g⟩
  | .shflDownB64 f _ => some ⟨[(.dst .b64, f.d), (.sel .b64, f.a), (.sel .b32, f.b)], [], .flt false false, f.g⟩
  | .shflXorB64 f _ => some ⟨[(.dst .b64, f.d), (.sel .b64, f.a), (.sel .b32, f.b)], [], .flt false false, f.g⟩
  | .qswapHB64 f _ => some ⟨[(.dst .b64, f.d), (.sel .b64, f.a), (.idle, f.b)], [], .flt false false, f.g⟩
  | .qswapVB64 f _ => some ⟨[(.dst .b64, f.d), (.sel .b64, f.a), (.idle, f.b)], [], .flt false false, f.g⟩
  | .qswapDB64 f _ => some ⟨[(.dst .b64, f.d), (.sel .b64, f.a), (.idle, f.b)], [], .flt false false, f.g⟩
  | .qbcastB64 f _ => some ⟨[(.dst .b64, f.d), (.sel .b64, f.a), (.sel .b32, f.b)], [], .flt false false, f.g⟩
  | .qderivXFineF64 f _ => some ⟨[(.dst .f64, f.d), (.sel .f64, f.a), (.idle, f.b)], [], .flt false false, f.g⟩
  | .qderivYFineF64 f _ => some ⟨[(.dst .f64, f.d), (.sel .f64, f.a), (.idle, f.b)], [], .flt false false, f.g⟩
  | .qderivXCoarseF64 f _ => some ⟨[(.dst .f64, f.d), (.sel .f64, f.a), (.idle, f.b)], [], .flt false false, f.g⟩
  | .qderivYCoarseF64 f _ => some ⟨[(.dst .f64, f.d), (.sel .f64, f.a), (.idle, f.b)], [], .flt false false, f.g⟩
  | .gredSumF32 f _ => some ⟨[(.dst .b32, f.d), (.sel .b32, f.a), (.idle, f.b)], [], .flt false false, f.g⟩
  | .gredMinF32 f _ => some ⟨[(.dst .b32, f.d), (.sel .b32, f.a), (.idle, f.b)], [], .flt false false, f.g⟩
  | .gredMaxF32 f _ => some ⟨[(.dst .b32, f.d), (.sel .b32, f.a), (.idle, f.b)], [], .flt false false, f.g⟩
  | .gredSumS32 f _ => some ⟨[(.dst .b32, f.d), (.sel .b32, f.a), (.idle, f.b)], [], .flt false false, f.g⟩
  | .gredMinS32 f _ => some ⟨[(.dst .b32, f.d), (.sel .b32, f.a), (.idle, f.b)], [], .flt false false, f.g⟩
  | .gredMaxS32 f _ => some ⟨[(.dst .b32, f.d), (.sel .b32, f.a), (.idle, f.b)], [], .flt false false, f.g⟩
  | .gredSumF64 f _ => some ⟨[(.dst .f64, f.d), (.sel .f64, f.a), (.idle, f.b)], [], .flt false false, f.g⟩
  | .gredSumS64 f _ => some ⟨[(.dst .s64, f.d), (.sel .s64, f.a), (.idle, f.b)], [], .flt false false, f.g⟩
  | .gredSegSumF32 f _ => some ⟨[(.dst .b32, f.d), (.sel .b32, f.a), (.sel .b32, f.b)], [], .flt false false, f.g⟩
  | .gredSegMinF32 f _ => some ⟨[(.dst .b32, f.d), (.sel .b32, f.a), (.sel .b32, f.b)], [], .flt false false, f.g⟩
  | .gredSegMaxF32 f _ => some ⟨[(.dst .b32, f.d), (.sel .b32, f.a), (.sel .b32, f.b)], [], .flt false false, f.g⟩
  | .gredSegSumS32 f _ => some ⟨[(.dst .b32, f.d), (.sel .b32, f.a), (.sel .b32, f.b)], [], .flt false false, f.g⟩
  | .gredSegMinS32 f _ => some ⟨[(.dst .b32, f.d), (.sel .b32, f.a), (.sel .b32, f.b)], [], .flt false false, f.g⟩
  | .gredSegMaxS32 f _ => some ⟨[(.dst .b32, f.d), (.sel .b32, f.a), (.sel .b32, f.b)], [], .flt false false, f.g⟩
  | .gredSegSumF64 f _ => some ⟨[(.dst .f64, f.d), (.sel .f64, f.a), (.sel .b32, f.b)], [], .flt false false, f.g⟩
  | .gredSegSumS64 f _ => some ⟨[(.dst .s64, f.d), (.sel .s64, f.a), (.sel .b32, f.b)], [], .flt false false, f.g⟩
  | .ldN8 f _ => some ⟨[(.dst .b32, f.d), (.sel .b64, f.a), (.sel .b32, f.b)], [], .mem .load true false, f.g⟩
  | .ldS8 f _ => some ⟨[(.dst .b32, f.d), (.sel .b64, f.a), (.sel .b32, f.b)], [], .mem .load true false, f.g⟩
  | .ldN16 f _ => some ⟨[(.dst .b32, f.d), (.sel .b64, f.a), (.sel .b32, f.b)], [], .mem .load true false, f.g⟩
  | .ldS16 f _ => some ⟨[(.dst .b32, f.d), (.sel .b64, f.a), (.sel .b32, f.b)], [], .mem .load true false, f.g⟩
  | .ldB32 f _ => some ⟨[(.dst .b32, f.d), (.sel .b64, f.a), (.sel .b32, f.b)], [], .mem .load true false, f.g⟩
  | .ldB64 f _ => some ⟨[(.dst .b64, f.d), (.sel .b64, f.a), (.sel .b32, f.b)], [], .mem .load true false, f.g⟩
  | .ldB128 f _ => some ⟨[(.dst .b128, f.d), (.sel .b64, f.a), (.sel .b32, f.b)], [], .mem .load true false, f.g⟩
  | .stB8 f _ => some ⟨[(.sel .b8, f.d), (.sel .b64, f.a), (.sel .b32, f.b)], [], .mem .store false false, f.g⟩
  | .stB16 f _ => some ⟨[(.sel .b16, f.d), (.sel .b64, f.a), (.sel .b32, f.b)], [], .mem .store false false, f.g⟩
  | .stB32 f _ => some ⟨[(.sel .b32, f.d), (.sel .b64, f.a), (.sel .b32, f.b)], [], .mem .store false false, f.g⟩
  | .stB64 f _ => some ⟨[(.sel .b64, f.d), (.sel .b64, f.a), (.sel .b32, f.b)], [], .mem .store false false, f.g⟩
  | .stB128 f _ => some ⟨[(.sel .b128, f.d), (.sel .b64, f.a), (.sel .b32, f.b)], [], .mem .store false false, f.g⟩
  | .pref f _ => some ⟨[(.idleD, f.d), (.sel .b64, f.a), (.sel .b32, f.b)], [], .mem .plain false false, f.g⟩
  | .discard f _ => some ⟨[(.idleD, f.d), (.sel .b64, f.a), (.sel .b32, f.b)], [], .mem .line false false, f.g⟩
  | .lastuse f _ => some ⟨[(.dst .b128, f.d), (.sel .b64, f.a), (.sel .b32, f.b)], [], .mem .line false false, f.g⟩
  | .ldN8Scr f _ => some ⟨[(.dst .b32, f.d), (.sel .b64, f.a), (.sel .b32, f.b)], [], .mem .load true false, f.g⟩
  | .ldS8Scr f _ => some ⟨[(.dst .b32, f.d), (.sel .b64, f.a), (.sel .b32, f.b)], [], .mem .load true false, f.g⟩
  | .ldN16Scr f _ => some ⟨[(.dst .b32, f.d), (.sel .b64, f.a), (.sel .b32, f.b)], [], .mem .load true false, f.g⟩
  | .ldS16Scr f _ => some ⟨[(.dst .b32, f.d), (.sel .b64, f.a), (.sel .b32, f.b)], [], .mem .load true false, f.g⟩
  | .ldB32Scr f _ => some ⟨[(.dst .b32, f.d), (.sel .b64, f.a), (.sel .b32, f.b)], [], .mem .load true false, f.g⟩
  | .ldB64Scr f _ => some ⟨[(.dst .b64, f.d), (.sel .b64, f.a), (.sel .b32, f.b)], [], .mem .load true false, f.g⟩
  | .ldB128Scr f _ => some ⟨[(.dst .b128, f.d), (.sel .b64, f.a), (.sel .b32, f.b)], [], .mem .load true false, f.g⟩
  | .stB8Scr f _ => some ⟨[(.sel .b8, f.d), (.sel .b64, f.a), (.sel .b32, f.b)], [], .mem .store false false, f.g⟩
  | .stB16Scr f _ => some ⟨[(.sel .b16, f.d), (.sel .b64, f.a), (.sel .b32, f.b)], [], .mem .store false false, f.g⟩
  | .stB32Scr f _ => some ⟨[(.sel .b32, f.d), (.sel .b64, f.a), (.sel .b32, f.b)], [], .mem .store false false, f.g⟩
  | .stB64Scr f _ => some ⟨[(.sel .b64, f.d), (.sel .b64, f.a), (.sel .b32, f.b)], [], .mem .store false false, f.g⟩
  | .stB128Scr f _ => some ⟨[(.sel .b128, f.d), (.sel .b64, f.a), (.sel .b32, f.b)], [], .mem .store false false, f.g⟩
  | .ldN8Cscr f _ => some ⟨[(.dst .b32, f.d), (.sel .b64, f.a), (.sel .b32, f.b)], [], .mem .load true false, f.g⟩
  | .ldS8Cscr f _ => some ⟨[(.dst .b32, f.d), (.sel .b64, f.a), (.sel .b32, f.b)], [], .mem .load true false, f.g⟩
  | .ldN16Cscr f _ => some ⟨[(.dst .b32, f.d), (.sel .b64, f.a), (.sel .b32, f.b)], [], .mem .load true false, f.g⟩
  | .ldS16Cscr f _ => some ⟨[(.dst .b32, f.d), (.sel .b64, f.a), (.sel .b32, f.b)], [], .mem .load true false, f.g⟩
  | .ldB32Cscr f _ => some ⟨[(.dst .b32, f.d), (.sel .b64, f.a), (.sel .b32, f.b)], [], .mem .load true false, f.g⟩
  | .ldB64Cscr f _ => some ⟨[(.dst .b64, f.d), (.sel .b64, f.a), (.sel .b32, f.b)], [], .mem .load true false, f.g⟩
  | .ldB128Cscr f _ => some ⟨[(.dst .b128, f.d), (.sel .b64, f.a), (.sel .b32, f.b)], [], .mem .load true false, f.g⟩
  | .stB8Cscr f _ => some ⟨[(.sel .b8, f.d), (.sel .b64, f.a), (.sel .b32, f.b)], [], .mem .store false false, f.g⟩
  | .stB16Cscr f _ => some ⟨[(.sel .b16, f.d), (.sel .b64, f.a), (.sel .b32, f.b)], [], .mem .store false false, f.g⟩
  | .stB32Cscr f _ => some ⟨[(.sel .b32, f.d), (.sel .b64, f.a), (.sel .b32, f.b)], [], .mem .store false false, f.g⟩
  | .stB64Cscr f _ => some ⟨[(.sel .b64, f.d), (.sel .b64, f.a), (.sel .b32, f.b)], [], .mem .store false false, f.g⟩
  | .stB128Cscr f _ => some ⟨[(.sel .b128, f.d), (.sel .b64, f.a), (.sel .b32, f.b)], [], .mem .store false false, f.g⟩
  | .tld f _ => some ⟨[(.dst .b128, f.d), (.sel .b64, f.a), (.sel .b64, f.b)], [], .mem .load true false, f.g⟩
  | .tldVer f _ => some ⟨[(.dst .b128, f.d), (.sel .b64, f.a), (.sel .b64, f.b)], [], .mem .load true false, f.g⟩
  | .tst f _ => some ⟨[(.sel .b128, f.d), (.sel .b64, f.a), (.sel .b64, f.b)], [], .mem .store false false, f.g⟩
  | .tstWhole f _ => some ⟨[(.sel .b128, f.d), (.sel .b64, f.a), (.sel .b64, f.b)], [], .mem .store false false, f.g⟩
  | .rld f _ => some ⟨[(.dst .b128, f.d), (.sel .b64, f.a), (.sel .b64, f.b)], [], .mem .load false true, f.g⟩
  | .rst f _ => some ⟨[(.sel .b128, f.d), (.sel .b64, f.a), (.sel .b64, f.b)], [], .mem .store false true, f.g⟩
  | .tldScr f _ => some ⟨[(.dst .b128, f.d), (.sel .b64, f.a), (.sel .b64, f.b)], [], .mem .load true false, f.g⟩
  | .tldVerScr f _ => some ⟨[(.dst .b128, f.d), (.sel .b64, f.a), (.sel .b64, f.b)], [], .mem .load true false, f.g⟩
  | .tstScr f _ => some ⟨[(.sel .b128, f.d), (.sel .b64, f.a), (.sel .b64, f.b)], [], .mem .store false false, f.g⟩
  | .tstWholeScr f _ => some ⟨[(.sel .b128, f.d), (.sel .b64, f.a), (.sel .b64, f.b)], [], .mem .store false false, f.g⟩
  | .rldScr f _ => some ⟨[(.dst .b128, f.d), (.sel .b64, f.a), (.sel .b64, f.b)], [], .mem .load false true, f.g⟩
  | .rstScr f _ => some ⟨[(.sel .b128, f.d), (.sel .b64, f.a), (.sel .b64, f.b)], [], .mem .store false true, f.g⟩
  | .atomAddB32 f _ => some ⟨[(.dst .b32, f.d), (.sel .b64, f.a), (.sel .b32, f.b)], [], .mem .atomic true false, f.g⟩
  | .atomMinSB32 f _ => some ⟨[(.dst .b32, f.d), (.sel .b64, f.a), (.sel .b32, f.b)], [], .mem .atomic true false, f.g⟩
  | .atomMaxSB32 f _ => some ⟨[(.dst .b32, f.d), (.sel .b64, f.a), (.sel .b32, f.b)], [], .mem .atomic true false, f.g⟩
  | .atomMinNB32 f _ => some ⟨[(.dst .b32, f.d), (.sel .b64, f.a), (.sel .b32, f.b)], [], .mem .atomic true false, f.g⟩
  | .atomMaxNB32 f _ => some ⟨[(.dst .b32, f.d), (.sel .b64, f.a), (.sel .b32, f.b)], [], .mem .atomic true false, f.g⟩
  | .atomAndB32 f _ => some ⟨[(.dst .b32, f.d), (.sel .b64, f.a), (.sel .b32, f.b)], [], .mem .atomic true false, f.g⟩
  | .atomOrB32 f _ => some ⟨[(.dst .b32, f.d), (.sel .b64, f.a), (.sel .b32, f.b)], [], .mem .atomic true false, f.g⟩
  | .atomXorB32 f _ => some ⟨[(.dst .b32, f.d), (.sel .b64, f.a), (.sel .b32, f.b)], [], .mem .atomic true false, f.g⟩
  | .atomExchB32 f _ => some ⟨[(.dst .b32, f.d), (.sel .b64, f.a), (.sel .b32, f.b)], [], .mem .atomic true false, f.g⟩
  | .atomCasB32 f _ => some ⟨[(.sel .b32, f.d), (.sel .b64, f.a), (.sel .b32, f.b)], [], .mem .atomic true false, f.g⟩
  | .atomFaddF32 f _ => some ⟨[(.dst .b32, f.d), (.sel .b64, f.a), (.sel .b32, f.b)], [], .mem .atomic true false, f.g⟩
  | .atomAddB64 f _ => some ⟨[(.dst .b64, f.d), (.sel .b64, f.a), (.sel .b64, f.b)], [], .mem .atomic true false, f.g⟩
  | .atomMinSB64 f _ => some ⟨[(.dst .b64, f.d), (.sel .b64, f.a), (.sel .b64, f.b)], [], .mem .atomic true false, f.g⟩
  | .atomMaxSB64 f _ => some ⟨[(.dst .b64, f.d), (.sel .b64, f.a), (.sel .b64, f.b)], [], .mem .atomic true false, f.g⟩
  | .atomMinNB64 f _ => some ⟨[(.dst .b64, f.d), (.sel .b64, f.a), (.sel .b64, f.b)], [], .mem .atomic true false, f.g⟩
  | .atomMaxNB64 f _ => some ⟨[(.dst .b64, f.d), (.sel .b64, f.a), (.sel .b64, f.b)], [], .mem .atomic true false, f.g⟩
  | .atomAndB64 f _ => some ⟨[(.dst .b64, f.d), (.sel .b64, f.a), (.sel .b64, f.b)], [], .mem .atomic true false, f.g⟩
  | .atomOrB64 f _ => some ⟨[(.dst .b64, f.d), (.sel .b64, f.a), (.sel .b64, f.b)], [], .mem .atomic true false, f.g⟩
  | .atomXorB64 f _ => some ⟨[(.dst .b64, f.d), (.sel .b64, f.a), (.sel .b64, f.b)], [], .mem .atomic true false, f.g⟩
  | .atomExchB64 f _ => some ⟨[(.dst .b64, f.d), (.sel .b64, f.a), (.sel .b64, f.b)], [], .mem .atomic true false, f.g⟩
  | .atomCasB64 f _ => some ⟨[(.sel .b64, f.d), (.sel .b64, f.a), (.sel .b64, f.b)], [], .mem .atomic true false, f.g⟩
  | .atomFaddF64 f _ => some ⟨[(.dst .f64, f.d), (.sel .b64, f.a), (.sel .f64, f.b)], [], .mem .atomic true false, f.g⟩
  | .atomAddB32Scr f _ => some ⟨[(.dst .b32, f.d), (.sel .b64, f.a), (.sel .b32, f.b)], [], .mem .atomic true false, f.g⟩
  | .atomMinSB32Scr f _ => some ⟨[(.dst .b32, f.d), (.sel .b64, f.a), (.sel .b32, f.b)], [], .mem .atomic true false, f.g⟩
  | .atomMaxSB32Scr f _ => some ⟨[(.dst .b32, f.d), (.sel .b64, f.a), (.sel .b32, f.b)], [], .mem .atomic true false, f.g⟩
  | .atomMinNB32Scr f _ => some ⟨[(.dst .b32, f.d), (.sel .b64, f.a), (.sel .b32, f.b)], [], .mem .atomic true false, f.g⟩
  | .atomMaxNB32Scr f _ => some ⟨[(.dst .b32, f.d), (.sel .b64, f.a), (.sel .b32, f.b)], [], .mem .atomic true false, f.g⟩
  | .atomAndB32Scr f _ => some ⟨[(.dst .b32, f.d), (.sel .b64, f.a), (.sel .b32, f.b)], [], .mem .atomic true false, f.g⟩
  | .atomOrB32Scr f _ => some ⟨[(.dst .b32, f.d), (.sel .b64, f.a), (.sel .b32, f.b)], [], .mem .atomic true false, f.g⟩
  | .atomXorB32Scr f _ => some ⟨[(.dst .b32, f.d), (.sel .b64, f.a), (.sel .b32, f.b)], [], .mem .atomic true false, f.g⟩
  | .atomExchB32Scr f _ => some ⟨[(.dst .b32, f.d), (.sel .b64, f.a), (.sel .b32, f.b)], [], .mem .atomic true false, f.g⟩
  | .atomCasB32Scr f _ => some ⟨[(.sel .b32, f.d), (.sel .b64, f.a), (.sel .b32, f.b)], [], .mem .atomic true false, f.g⟩
  | .atomFaddF32Scr f _ => some ⟨[(.dst .b32, f.d), (.sel .b64, f.a), (.sel .b32, f.b)], [], .mem .atomic true false, f.g⟩
  | .atomAddB64Scr f _ => some ⟨[(.dst .b64, f.d), (.sel .b64, f.a), (.sel .b64, f.b)], [], .mem .atomic true false, f.g⟩
  | .atomMinSB64Scr f _ => some ⟨[(.dst .b64, f.d), (.sel .b64, f.a), (.sel .b64, f.b)], [], .mem .atomic true false, f.g⟩
  | .atomMaxSB64Scr f _ => some ⟨[(.dst .b64, f.d), (.sel .b64, f.a), (.sel .b64, f.b)], [], .mem .atomic true false, f.g⟩
  | .atomMinNB64Scr f _ => some ⟨[(.dst .b64, f.d), (.sel .b64, f.a), (.sel .b64, f.b)], [], .mem .atomic true false, f.g⟩
  | .atomMaxNB64Scr f _ => some ⟨[(.dst .b64, f.d), (.sel .b64, f.a), (.sel .b64, f.b)], [], .mem .atomic true false, f.g⟩
  | .atomAndB64Scr f _ => some ⟨[(.dst .b64, f.d), (.sel .b64, f.a), (.sel .b64, f.b)], [], .mem .atomic true false, f.g⟩
  | .atomOrB64Scr f _ => some ⟨[(.dst .b64, f.d), (.sel .b64, f.a), (.sel .b64, f.b)], [], .mem .atomic true false, f.g⟩
  | .atomXorB64Scr f _ => some ⟨[(.dst .b64, f.d), (.sel .b64, f.a), (.sel .b64, f.b)], [], .mem .atomic true false, f.g⟩
  | .atomExchB64Scr f _ => some ⟨[(.dst .b64, f.d), (.sel .b64, f.a), (.sel .b64, f.b)], [], .mem .atomic true false, f.g⟩
  | .atomCasB64Scr f _ => some ⟨[(.sel .b64, f.d), (.sel .b64, f.a), (.sel .b64, f.b)], [], .mem .atomic true false, f.g⟩
  | .atomFaddF64Scr f _ => some ⟨[(.dst .f64, f.d), (.sel .b64, f.a), (.sel .f64, f.b)], [], .mem .atomic true false, f.g⟩
  | .sldB32 f _ => some ⟨[(.selS, f.sb)], [(f.sx.extractLsb' 0 3 != 0 || f.sx.extractLsb' 3 2 == 3, 4)], .memS .load true false, 0⟩
  | .sldB64 f _ => some ⟨[(.selS, f.sb)], [(f.sx.extractLsb' 0 3 != 0 || f.sx.extractLsb' 3 2 == 3, 4)], .memS .load true false, 0⟩
  | .sstB32 f _ => some ⟨[(.selS, f.sb)], [(f.sx.extractLsb' 0 3 != 0 || f.sx.extractLsb' 3 2 == 3, 4)], .memS .store false false, 0⟩
  | .sstB64 f _ => some ⟨[(.selS, f.sb)], [(f.sx.extractLsb' 0 3 != 0 || f.sx.extractLsb' 3 2 == 3, 4)], .memS .store false false, 0⟩
  | .atomsAddB32 f _ => some ⟨[(.selS, f.sb)], [(f.sx.extractLsb' 0 3 != 0 || f.sx.extractLsb' 3 2 == 3, 4)], .memS .atomic true false, 0⟩
  | .atomsMaxN32 f _ => some ⟨[(.selS, f.sb)], [(f.sx.extractLsb' 0 3 != 0 || f.sx.extractLsb' 3 2 == 3, 4)], .memS .atomic true false, 0⟩
  | .atomsExchB32 f _ => some ⟨[(.selS, f.sb)], [(f.sx.extractLsb' 0 3 != 0 || f.sx.extractLsb' 3 2 == 3, 4)], .memS .atomic true false, 0⟩
  | .atomsAddB64 f _ => some ⟨[(.selS, f.sb)], [(f.sx.extractLsb' 0 3 != 0 || f.sx.extractLsb' 3 2 == 3, 4)], .memS .atomic true false, 0⟩
  | .atomsMaxN64 f _ => some ⟨[(.selS, f.sb)], [(f.sx.extractLsb' 0 3 != 0 || f.sx.extractLsb' 3 2 == 3, 4)], .memS .atomic true false, 0⟩
  | .atomsExchB64 f _ => some ⟨[(.selS, f.sb)], [(f.sx.extractLsb' 0 3 != 0 || f.sx.extractLsb' 3 2 == 3, 4)], .memS .atomic true false, 0⟩
  | .scataddF32 f _ => some ⟨[(.sel .b32, f.d), (.sel .b64, f.a), (.sel .b32, f.b)], [], .mem .plain false false, f.g⟩
  | .bpref f _ => some ⟨[(.dst .b32, f.d), (.sel .b64, f.a), (.sel .b32, f.b)], [], .mem .line false false, f.g⟩
  | .bprefBo f _ => some ⟨[(.sel .b32, f.d), (.sel .b64, f.a), (.sel .b32, f.b)], [], .mem .line false false, f.g⟩
  | .shinv f _ => some ⟨[(.idleD, f.d), (.sel .b64, f.a), (.idle, f.b)], [], .mem .shinv false false, f.g⟩
  | .shinvAll f _ => some ⟨[(.idleD, f.d), (.idle, f.a), (.idle, f.b)], [], .mem .shinv false false, f.g⟩
  | .mma f _ => some ⟨[(.sel .b32, f.a), (.sel .b32, f.b), (.sel .b32, f.c)], [], .eng true, f.g⟩
  | .mzero f _ => some ⟨[(.idle, f.a), (.sel .b32, f.b), (.bits 0b111000, f.c)], [], .eng false, f.g⟩
  | .mload f _ => some ⟨[(.sel .b64, f.a), (.sel .b32, f.b), (.bits 0b111000, f.c)], [], .eng false, f.g⟩
  | .mdrain f _ => some ⟨[(.sel .b32, f.a), (.idle, f.b), (.bits 0b111000, f.c)], [], .eng false, f.g⟩
  | .mupd f _ => some ⟨[(.sel .b32, f.a), (.idle, f.b), (.bits 0b111000, f.c)], [], .eng false, f.g⟩
  | .mwait f _ => some ⟨[(.idle, f.a), (.idle, f.b), (.bits 0b111000, f.c)], [], .eng false, f.g⟩
  | .mcompress f _ => some ⟨[(.sel .b64, f.a), (.sel .b64, f.b), (.sel .b64, f.c)], [], .eng false, f.g⟩
  | .amaxrd f _ => some ⟨[(.idle, f.a), (.idle, f.b), (.bits 0b111100, f.c)], [], .eng false, f.g⟩
  | .amaxrdSync f _ => some ⟨[(.idle, f.a), (.idle, f.b), (.bits 0b111100, f.c)], [], .eng false, f.g⟩
  | .amaxclr f _ => some ⟨[(.idle, f.a), (.idle, f.b), (.bits 0b111100, f.c)], [], .eng false, f.g⟩
  | .fence f _ => some ⟨[(.idle, f.a), (.idle, f.b), (.bits 0b111111, f.c)], [(decide (6 ≤ (f.c.extractLsb' 3 3).toNat) || decide (4 ≤ (f.c.extractLsb' 0 3).toNat), 6)], .eng false, f.g⟩
  | .barteam f _ => some ⟨[(.idle, f.a), (.idle, f.b), (.bits 0b111000, f.c)], [], .eng false, f.g⟩
  | .barclu f _ => some ⟨[(.idle, f.a), (.idle, f.b), (.bits 0b111000, f.c)], [], .eng false, f.g⟩
  | .boinit f _ => some ⟨[(.sel .b32, f.a), (.sel .s64, f.b), (.idle, f.c)], [], .eng false, f.g⟩
  | .boarr f _ => some ⟨[(.sel .b32, f.a), (.sel .s64, f.b), (.idle, f.c)], [], .eng false, f.g⟩
  | .bowait f _ => some ⟨[(.sel .b32, f.a), (.idle, f.b), (.bits 0b111000, f.c)], [(decide (6 ≤ (f.c.extractLsb' 3 3).toNat), 6)], .eng false, f.g⟩
  | .tokwait f _ => some ⟨[(.sel .b32, f.a), (.idle, f.b), (.idle, f.c)], [], .eng false, f.g⟩
  | .kick f _ => some ⟨[(.sel .b32, f.a), (.idle, f.b), (.idle, f.c)], [], .eng false, f.g⟩
  | .scatflush f _ => some ⟨[(.idle, f.a), (.idle, f.b), (.bits 0b111000, f.c)], [(decide (6 ≤ (f.c.extractLsb' 3 3).toNat), 6)], .eng false, f.g⟩
  | .glaunch f _ => some ⟨[(.sel .b64, f.a), (.sel .b32, f.b), (.idle, f.c)], [], .eng false, f.g⟩
  | .srammode f _ => some ⟨[(.sel .b32, f.a), (.sel .b32, f.b), (.idle, f.c)], [], .eng false, f.g⟩
  | .texs f _ => some ⟨[(.sel .b64, f.a), (.sel .b128, f.b), (.idle, f.c)], [], .eng false, f.g⟩
  | .texg f _ => some ⟨[(.sel .b64, f.a), (.sel .b128, f.b), (.sel .b32, f.c)], [], .eng false, f.g⟩
  | .texadj f _ => some ⟨[(.sel .b64, f.a), (.sel .b128, f.b), (.sel .b128, f.c)], [], .eng false, f.g⟩
  | .trace f _ => some ⟨[(.sel .b64, f.a), (.sel .b256, f.b), (.idle, f.c)], [], .eng false, f.g⟩
  | .traceadj f _ => some ⟨[(.sel .b64, f.a), (.sel .b256, f.b), (.sel .b128, f.c)], [], .eng false, f.g⟩
  | .edgeq f _ => some ⟨[(.sel .b64, f.a), (.sel .b32, f.b), (.sel .b32, f.c)], [], .eng false, f.g⟩
  | .trecB32 f _ => some ⟨[(.sel .b32, f.a), (.idle, f.b), (.idle, f.c)], [], .eng false, f.g⟩
  | .trecB64 f _ => some ⟨[(.sel .b64, f.a), (.idle, f.b), (.idle, f.c)], [], .eng false, f.g⟩
  | .tpopB32 f _ => some ⟨[(.idle, f.a), (.idle, f.b), (.idle, f.c)], [], .eng false, f.g⟩
  | .tpopB64 f _ => some ⟨[(.idle, f.a), (.idle, f.b), (.idle, f.c)], [], .eng false, f.g⟩
  | .tmark f _ => some ⟨[(.sel .b32, f.a), (.idle, f.b), (.idle, f.c)], [], .eng false, f.g⟩
  | .tseal f _ => some ⟨[(.idle, f.a), (.idle, f.b), (.idle, f.c)], [], .eng false, f.g⟩
  | .qwriteWrite _ _ => none
  | .queueDisable _ _ => none
  | .segrelGo _ _ => none
  | .readLaunchPacket _ => none
  | .beginDispatch => none
  | .dispatchTeam _ => none
  | .releaseTimeReached _ => none
  | .deadlineReached _ => none
  | .deadlinePreemptRequest _ => none
  | .replayLaunchPacket _ => none
  | .gridComplete _ => none
  | .teamEnd _ => none
  | .fetchPacket => none
  | .groupSwitchIn _ _ => none
  | .asyncTrapDelivery _ _ => none
  | .syncTimeout _ _ _ => none
  | .yieldExpire _ _ _ => none
  | .faultRecordDeliver => none
  | .fqreadWrite _ => none
  | .fqbaseWrite _ => none
  | .fresolveMapped _ => none
  | .fresolveUnresolvable _ => none
  | .invcmdPage _ => none
  | .invcmdContext _ => none
  | .invcmdAll _ => none
  | .invalidationDone => none
  | .migreqGo _ => none
  | .holdExpire _ _ => none
  | .fabricReadShared _ => none
  | .fabricReadExclusive _ => none
  | .fabricUpgrade _ => none
  | .fabricWriteback _ => none
  | .fabricEvictNotice _ => none
  | .fabricInvalidate _ => none
  | .fabricRecall _ => none
  | .fabricInvalAck _ _ _ => none
  | .fabricAtomic _ _ => none
  | .fabricResponse _ _ => none
  | .fabricTimeout _ => none
  | .flowPause _ _ => none
  | .flowResume _ _ => none
  | .replayEvent _ _ => none
  | .linkNak _ _ => none
  | .linkAck _ _ => none
  | .laneLoss _ _ => none
  | .linkRetrainDone _ => none
  | .keyInstall _ => none
  | .keyClearFlit _ => none
  | .linkTraining _ _ _ _ => none
  | .routedataWrite _ => none
  | .matrixOpStart _ _ => none
  | .matrixKgroup _ _ => none
  | .mloadRow _ _ => none
  | .drainBlock _ _ => none
  | .updateBlock _ _ => none
  | .cardItemStart _ => none
  | .cardLineWrite _ => none
  | .cardItemEnd _ => none
  | .rasterWalk _ => none
  | .vertexGradientContrib _ _ => none
  | .edgeSample _ => none
  | .vaccmdGo _ => none
  | .vacate => none
  | .ctxcmdGo _ => none
  | .eccCorrection _ _ _ _ => none
  | .poisonLine _ _ _ => none
  | .stateError _ => none
  | .deviceError _ => none
  | .deviceReset => none
  | .powerOnReset => none
  | .fwcmdGo => none
  | .fwcmdReset => none
  | .spdmGetMeasurements _ => none
  | .spdmChallenge _ => none
  | .spdmSecuredSession _ => none
  | .fabricBringup _ _ => none
  | .bar2Access _ _ _ => none
  | .bar0UnmappedAccess _ _ => none
  | .ptpMessage _ => none
  | .ptmRequest => none
  | .ppsEdge => none
  | .holdoverTimeout => none
  | .ppsLossTimeout => none
  | .timectlSrcWrite _ => none
  | .powerPredict _ => none
  | .powerRestoreStep _ => none
  | .thermal105 _ => none
  | .thermal115 => none
  | .ellostRead => none
  | .ppscountRead => none
  | .pwrcapnsRead => none
  | .portstatRead _ => none
  | .registerWrite _ _ => none
  | .contextEnd _ => none
  | .fabricRequestArrival _ _ _ _ => none
  | .cardReltimeReached _ => none
  | .bulkPrefetchLine _ => none
  | .ptmResponse _ _ => none
  | .firmwareUpdateDone => none
  | .powerLoss => none

/-- The instruction word of an instruction, from Table 5-1 and the minor tables. -/
def Instr.word : Instr → Option W32
  | .nop f m => some (packY 0 0 f m.chain)
  | .hint h f m => some (packY 0 (3#2 ++ h) f m.chain)
  | .trap f m => some (packY 0 1 f m.chain)
  | .eret f m => some (packY 0 2 f m.chain)
  | .bkpt f m => some (packY 0 3 f m.chain)
  | .yield f m => some (packY 0 4 f m.chain)
  | .sysrd f m => some (packY 0 5 f m.chain)
  | .syswr f m => some (packY 0 6 f m.chain)
  | .sread f m => some (packY 0 7 f m.chain)
  | .regn f m => some (packY 0 8 f m.chain)
  | .iaddS32 f m => some (packV3 1 0 f m.chain)
  | .isubS32 f m => some (packV3 1 1 f m.chain)
  | .imulS32 f m => some (packV3 1 2 f m.chain)
  | .imulhS32 f m => some (packV3 1 3 f m.chain)
  | .idivS32 f m => some (packV3 1 4 f m.chain)
  | .iremS32 f m => some (packV3 1 5 f m.chain)
  | .iminS32 f m => some (packV3 1 6 f m.chain)
  | .imaxS32 f m => some (packV3 1 7 f m.chain)
  | .iabsS32 f m => some (packV3 1 8 f m.chain)
  | .inegS32 f m => some (packV3 1 9 f m.chain)
  | .shlS32 f m => some (packV3 1 10 f m.chain)
  | .shrS32 f m => some (packV3 1 11 f m.chain)
  | .sarS32 f m => some (packV3 1 12 f m.chain)
  | .popcS32 f m => some (packV3 1 13 f m.chain)
  | .clzS32 f m => some (packV3 1 14 f m.chain)
  | .brevS32 f m => some (packV3 1 15 f m.chain)
  | .iaddN32 f m => some (packV3 2 0 f m.chain)
  | .isubN32 f m => some (packV3 2 1 f m.chain)
  | .imulN32 f m => some (packV3 2 2 f m.chain)
  | .imulhN32 f m => some (packV3 2 3 f m.chain)
  | .idivN32 f m => some (packV3 2 4 f m.chain)
  | .iremN32 f m => some (packV3 2 5 f m.chain)
  | .iminN32 f m => some (packV3 2 6 f m.chain)
  | .imaxN32 f m => some (packV3 2 7 f m.chain)
  | .inegN32 f m => some (packV3 2 9 f m.chain)
  | .shlN32 f m => some (packV3 2 10 f m.chain)
  | .shrN32 f m => some (packV3 2 11 f m.chain)
  | .popcN32 f m => some (packV3 2 13 f m.chain)
  | .clzN32 f m => some (packV3 2 14 f m.chain)
  | .brevN32 f m => some (packV3 2 15 f m.chain)
  | .iaddS64 f m => some (packV3 3 0 f m.chain)
  | .isubS64 f m => some (packV3 3 1 f m.chain)
  | .imulS64 f m => some (packV3 3 2 f m.chain)
  | .imulhS64 f m => some (packV3 3 3 f m.chain)
  | .idivS64 f m => some (packV3 3 4 f m.chain)
  | .iremS64 f m => some (packV3 3 5 f m.chain)
  | .iminS64 f m => some (packV3 3 6 f m.chain)
  | .imaxS64 f m => some (packV3 3 7 f m.chain)
  | .iabsS64 f m => some (packV3 3 8 f m.chain)
  | .inegS64 f m => some (packV3 3 9 f m.chain)
  | .shlS64 f m => some (packV3 3 10 f m.chain)
  | .shrS64 f m => some (packV3 3 11 f m.chain)
  | .sarS64 f m => some (packV3 3 12 f m.chain)
  | .popcS64 f m => some (packV3 3 13 f m.chain)
  | .clzS64 f m => some (packV3 3 14 f m.chain)
  | .brevS64 f m => some (packV3 3 15 f m.chain)
  | .iaddN64 f m => some (packV3 4 0 f m.chain)
  | .isubN64 f m => some (packV3 4 1 f m.chain)
  | .imulN64 f m => some (packV3 4 2 f m.chain)
  | .imulhN64 f m => some (packV3 4 3 f m.chain)
  | .idivN64 f m => some (packV3 4 4 f m.chain)
  | .iremN64 f m => some (packV3 4 5 f m.chain)
  | .iminN64 f m => some (packV3 4 6 f m.chain)
  | .imaxN64 f m => some (packV3 4 7 f m.chain)
  | .inegN64 f m => some (packV3 4 9 f m.chain)
  | .shlN64 f m => some (packV3 4 10 f m.chain)
  | .shrN64 f m => some (packV3 4 11 f m.chain)
  | .popcN64 f m => some (packV3 4 13 f m.chain)
  | .clzN64 f m => some (packV3 4 14 f m.chain)
  | .brevN64 f m => some (packV3 4 15 f m.chain)
  | .iaddS16X2 f m => some (packV3 5 0 f m.chain)
  | .isubS16X2 f m => some (packV3 5 1 f m.chain)
  | .imulS16X2 f m => some (packV3 5 2 f m.chain)
  | .iminS16X2 f m => some (packV3 5 3 f m.chain)
  | .imaxS16X2 f m => some (packV3 5 4 f m.chain)
  | .iminN16X2 f m => some (packV3 5 5 f m.chain)
  | .imaxN16X2 f m => some (packV3 5 6 f m.chain)
  | .iabsS16X2 f m => some (packV3 5 7 f m.chain)
  | .inegS16X2 f m => some (packV3 5 8 f m.chain)
  | .shlB16X2 f m => some (packV3 5 9 f m.chain)
  | .shrB16X2 f m => some (packV3 5 10 f m.chain)
  | .sarS16X2 f m => some (packV3 5 11 f m.chain)
  | .icmp32 cond f m => some (packV3 6 cond f m.chain)
  | .icmp64 cond f m => some (packV3 7 cond f m.chain)
  | .movB32 f m => some (packV3 8 0 f m.chain)
  | .movB64 f m => some (packV3 8 1 f m.chain)
  | .movsB32 f m => some (packV3 8 2 f m.chain)
  | .movsB64 f m => some (packV3 8 3 f m.chain)
  | .mvrd f m => some (packV3 8 4 f m.chain)
  | .leaSh0 f m => some (packV3 8 5 f m.chain)
  | .leaSh1 f m => some (packV3 8 6 f m.chain)
  | .leaSh2 f m => some (packV3 8 7 f m.chain)
  | .leaSh3 f m => some (packV3 8 8 f m.chain)
  | .bfxS32 f m => some (packV3 8 9 f m.chain)
  | .bfxN32 f m => some (packV3 8 10 f m.chain)
  | .bfxS64 f m => some (packV3 8 11 f m.chain)
  | .bfxN64 f m => some (packV3 8 12 f m.chain)
  | .imadS32 f m => some (packV4 9 0 f m.chain)
  | .imadN32 f m => some (packV4 9 1 f m.chain)
  | .imadS64 f m => some (packV4 9 2 f m.chain)
  | .imadN64 f m => some (packV4 9 3 f m.chain)
  | .logic3B32 f m => some (packV4 9 4 f m.chain)
  | .logic3B64 f m => some (packV4 9 5 f m.chain)
  | .fshfLB32 f m => some (packV4 9 6 f m.chain)
  | .fshfRB32 f m => some (packV4 9 7 f m.chain)
  | .bfiB32 f m => some (packV4 9 8 f m.chain)
  | .bfiB64 f m => some (packV4 9 9 f m.chain)
  | .selB32 f m => some (packV4 9 10 f m.chain)
  | .selB64 f m => some (packV4 9 11 f m.chain)
  | .mvwr f m => some (packV4 9 12 f m.chain)
  | .plogic f m => some (packV3 10 0 f m.chain)
  | .voteAny f m => some (packV3 10 1 f m.chain)
  | .voteAll f m => some (packV3 10 2 f m.chain)
  | .voteBallot f m => some (packV3 10 3 f m.chain)
  | .sadd f m => some (packS 11 0 f m.chain)
  | .ssub f m => some (packS 11 1 f m.chain)
  | .smul f m => some (packS 11 2 f m.chain)
  | .sand f m => some (packS 11 3 f m.chain)
  | .sor f m => some (packS 11 4 f m.chain)
  | .sxor f m => some (packS 11 5 f m.chain)
  | .sshl f m => some (packS 11 6 f m.chain)
  | .sshr f m => some (packS 11 7 f m.chain)
  | .scmp f m => some (packS 11 8 f m.chain)
  | .smov f m => some (packS 11 9 f m.chain)
  | .br f m => some (packB 12 0 f m.chain)
  | .brsZ f m => some (packBrs 1 f m.chain)
  | .brsNz f m => some (packBrs 0 f m.chain)
  | .call f m => some (packB 12 2 f m.chain)
  | .ret f m => some (packB 12 3 f m.chain)
  | .enrol f m => some (packB 12 4 f m.chain)
  | .rejoin f m => some (packB 12 5 f m.chain)
  | .exit f m => some (packB 12 6 f m.chain)
  | .jmpi f m => some (packB 12 7 f m.chain)
  | .faddF32 f m => some (packV3 16 0 f m.chain)
  | .fsubF32 f m => some (packV3 16 1 f m.chain)
  | .fmulF32 f m => some (packV3 16 2 f m.chain)
  | .fminF32 f m => some (packV3 16 3 f m.chain)
  | .fmaxF32 f m => some (packV3 16 4 f m.chain)
  | .frndF32 f m => some (packV3 16 5 f m.chain)
  | .fclassF32 f m => some (packV3 16 6 f m.chain)
  | .faddF64 f m => some (packV3 17 0 f m.chain)
  | .fsubF64 f m => some (packV3 17 1 f m.chain)
  | .fmulF64 f m => some (packV3 17 2 f m.chain)
  | .fminF64 f m => some (packV3 17 3 f m.chain)
  | .fmaxF64 f m => some (packV3 17 4 f m.chain)
  | .frndF64 f m => some (packV3 17 5 f m.chain)
  | .fclassF64 f m => some (packV3 17 6 f m.chain)
  | .faddF16X2 f m => some (packV3 18 0 f m.chain)
  | .fsubF16X2 f m => some (packV3 18 1 f m.chain)
  | .fmulF16X2 f m => some (packV3 18 2 f m.chain)
  | .fminF16X2 f m => some (packV3 18 3 f m.chain)
  | .fmaxF16X2 f m => some (packV3 18 4 f m.chain)
  | .frndF16X2 f m => some (packV3 18 5 f m.chain)
  | .faddBf16X2 f m => some (packV3 19 0 f m.chain)
  | .fsubBf16X2 f m => some (packV3 19 1 f m.chain)
  | .fmulBf16X2 f m => some (packV3 19 2 f m.chain)
  | .fminBf16X2 f m => some (packV3 19 3 f m.chain)
  | .fmaxBf16X2 f m => some (packV3 19 4 f m.chain)
  | .frndBf16X2 f m => some (packV3 19 5 f m.chain)
  | .ffmaF32 f m => some (packV4 20 0 f m.chain)
  | .ffmaF64 f m => some (packV4 20 1 f m.chain)
  | .ffmaF16X2 f m => some (packV4 20 2 f m.chain)
  | .ffmaBf16X2 f m => some (packV4 20 3 f m.chain)
  | .fcmpF32 cond f m => some (packV3 21 (0#1 ++ cond) f m.chain)
  | .fcmpF64 cond f m => some (packV3 21 (1#1 ++ cond) f m.chain)
  | .fdivF32 f m => some (packV3 22 0 f m.chain)
  | .fsqrtF32 f m => some (packV3 22 1 f m.chain)
  | .frcpF32 f m => some (packV3 22 2 f m.chain)
  | .frsqF32 f m => some (packV3 22 3 f m.chain)
  | .fexp2F32 f m => some (packV3 22 4 f m.chain)
  | .flog2F32 f m => some (packV3 22 5 f m.chain)
  | .fsinF32 f m => some (packV3 22 6 f m.chain)
  | .fcosF32 f m => some (packV3 22 7 f m.chain)
  | .fdivF64 f m => some (packV3 22 8 f m.chain)
  | .fsqrtF64 f m => some (packV3 22 9 f m.chain)
  | .frcpF64 f m => some (packV3 22 10 f m.chain)
  | .frsqF64 f m => some (packV3 22 11 f m.chain)
  | .cvt from4 f m => some (packV3 23 from4 f m.chain)
  | .cvtsr from4 f m => some (packV3 24 from4 f m.chain)
  | .cvtmxMxe4m3F32 f m => some (packV3 25 0 f m.chain)
  | .cvtmxMxe5m2F32 f m => some (packV3 25 1 f m.chain)
  | .cvtmxMxe2m1F32 f m => some (packV3 25 2 f m.chain)
  | .cvtmxMxe4m3Bf16 f m => some (packV3 25 3 f m.chain)
  | .cvtmxMxe5m2Bf16 f m => some (packV3 25 4 f m.chain)
  | .cvtmxMxe2m1Bf16 f m => some (packV3 25 5 f m.chain)
  | .expandE4m3I4 f m => some (packV3 25 6 f m.chain)
  | .expandE4m3E2m3 f m => some (packV3 25 7 f m.chain)
  | .expandE4m3E3m2 f m => some (packV3 25 8 f m.chain)
  | .expandE5m2E3m2 f m => some (packV3 25 9 f m.chain)
  | .blkscaleMxe4m3 f m => some (packV3 25 10 f m.chain)
  | .blkscaleMxe5m2 f m => some (packV3 25 11 f m.chain)
  | .blkscaleMxe2m1 f m => some (packV3 25 12 f m.chain)
  | .shflIdxB32 f m => some (packV3 26 0 f m.chain)
  | .shflUpB32 f m => some (packV3 26 1 f m.chain)
  | .shflDownB32 f m => some (packV3 26 2 f m.chain)
  | .shflXorB32 f m => some (packV3 26 3 f m.chain)
  | .qswapHB32 f m => some (packV3 26 4 f m.chain)
  | .qswapVB32 f m => some (packV3 26 5 f m.chain)
  | .qswapDB32 f m => some (packV3 26 6 f m.chain)
  | .qbcastB32 f m => some (packV3 26 7 f m.chain)
  | .qderivXFineF32 f m => some (packV3 26 8 f m.chain)
  | .qderivYFineF32 f m => some (packV3 26 9 f m.chain)
  | .qderivXCoarseF32 f m => some (packV3 26 10 f m.chain)
  | .qderivYCoarseF32 f m => some (packV3 26 11 f m.chain)
  | .flagrd f m => some (packV3 26 12 f m.chain)
  | .flagclr f m => some (packV3 26 13 f m.chain)
  | .shflIdxB64 f m => some (packV3 27 0 f m.chain)
  | .shflUpB64 f m => some (packV3 27 1 f m.chain)
  | .shflDownB64 f m => some (packV3 27 2 f m.chain)
  | .shflXorB64 f m => some (packV3 27 3 f m.chain)
  | .qswapHB64 f m => some (packV3 27 4 f m.chain)
  | .qswapVB64 f m => some (packV3 27 5 f m.chain)
  | .qswapDB64 f m => some (packV3 27 6 f m.chain)
  | .qbcastB64 f m => some (packV3 27 7 f m.chain)
  | .qderivXFineF64 f m => some (packV3 27 8 f m.chain)
  | .qderivYFineF64 f m => some (packV3 27 9 f m.chain)
  | .qderivXCoarseF64 f m => some (packV3 27 10 f m.chain)
  | .qderivYCoarseF64 f m => some (packV3 27 11 f m.chain)
  | .gredSumF32 f m => some (packV3 28 0 f m.chain)
  | .gredMinF32 f m => some (packV3 28 1 f m.chain)
  | .gredMaxF32 f m => some (packV3 28 2 f m.chain)
  | .gredSumS32 f m => some (packV3 28 3 f m.chain)
  | .gredMinS32 f m => some (packV3 28 4 f m.chain)
  | .gredMaxS32 f m => some (packV3 28 5 f m.chain)
  | .gredSumF64 f m => some (packV3 28 6 f m.chain)
  | .gredSumS64 f m => some (packV3 28 7 f m.chain)
  | .gredSegSumF32 f m => some (packV3 28 8 f m.chain)
  | .gredSegMinF32 f m => some (packV3 28 9 f m.chain)
  | .gredSegMaxF32 f m => some (packV3 28 10 f m.chain)
  | .gredSegSumS32 f m => some (packV3 28 11 f m.chain)
  | .gredSegMinS32 f m => some (packV3 28 12 f m.chain)
  | .gredSegMaxS32 f m => some (packV3 28 13 f m.chain)
  | .gredSegSumF64 f m => some (packV3 28 14 f m.chain)
  | .gredSegSumS64 f m => some (packV3 28 15 f m.chain)
  | .ldN8 f m => some (packV3 32 0 f m.chain)
  | .ldS8 f m => some (packV3 32 1 f m.chain)
  | .ldN16 f m => some (packV3 32 2 f m.chain)
  | .ldS16 f m => some (packV3 32 3 f m.chain)
  | .ldB32 f m => some (packV3 32 4 f m.chain)
  | .ldB64 f m => some (packV3 32 5 f m.chain)
  | .ldB128 f m => some (packV3 32 6 f m.chain)
  | .stB8 f m => some (packV3 32 8 f m.chain)
  | .stB16 f m => some (packV3 32 9 f m.chain)
  | .stB32 f m => some (packV3 32 10 f m.chain)
  | .stB64 f m => some (packV3 32 11 f m.chain)
  | .stB128 f m => some (packV3 32 12 f m.chain)
  | .pref f m => some (packV3 32 13 f m.chain)
  | .discard f m => some (packV3 32 14 f m.chain)
  | .lastuse f m => some (packV3 32 15 f m.chain)
  | .ldN8Scr f m => some (packV3 33 0 f m.chain)
  | .ldS8Scr f m => some (packV3 33 1 f m.chain)
  | .ldN16Scr f m => some (packV3 33 2 f m.chain)
  | .ldS16Scr f m => some (packV3 33 3 f m.chain)
  | .ldB32Scr f m => some (packV3 33 4 f m.chain)
  | .ldB64Scr f m => some (packV3 33 5 f m.chain)
  | .ldB128Scr f m => some (packV3 33 6 f m.chain)
  | .stB8Scr f m => some (packV3 33 8 f m.chain)
  | .stB16Scr f m => some (packV3 33 9 f m.chain)
  | .stB32Scr f m => some (packV3 33 10 f m.chain)
  | .stB64Scr f m => some (packV3 33 11 f m.chain)
  | .stB128Scr f m => some (packV3 33 12 f m.chain)
  | .ldN8Cscr f m => some (packV3 34 0 f m.chain)
  | .ldS8Cscr f m => some (packV3 34 1 f m.chain)
  | .ldN16Cscr f m => some (packV3 34 2 f m.chain)
  | .ldS16Cscr f m => some (packV3 34 3 f m.chain)
  | .ldB32Cscr f m => some (packV3 34 4 f m.chain)
  | .ldB64Cscr f m => some (packV3 34 5 f m.chain)
  | .ldB128Cscr f m => some (packV3 34 6 f m.chain)
  | .stB8Cscr f m => some (packV3 34 8 f m.chain)
  | .stB16Cscr f m => some (packV3 34 9 f m.chain)
  | .stB32Cscr f m => some (packV3 34 10 f m.chain)
  | .stB64Cscr f m => some (packV3 34 11 f m.chain)
  | .stB128Cscr f m => some (packV3 34 12 f m.chain)
  | .tld f m => some (packV3 35 0 f m.chain)
  | .tldVer f m => some (packV3 35 1 f m.chain)
  | .tst f m => some (packV3 35 2 f m.chain)
  | .tstWhole f m => some (packV3 35 3 f m.chain)
  | .rld f m => some (packV3 35 4 f m.chain)
  | .rst f m => some (packV3 35 5 f m.chain)
  | .tldScr f m => some (packV3 36 0 f m.chain)
  | .tldVerScr f m => some (packV3 36 1 f m.chain)
  | .tstScr f m => some (packV3 36 2 f m.chain)
  | .tstWholeScr f m => some (packV3 36 3 f m.chain)
  | .rldScr f m => some (packV3 36 4 f m.chain)
  | .rstScr f m => some (packV3 36 5 f m.chain)
  | .atomAddB32 f m => some (packV3 37 0 f m.chain)
  | .atomMinSB32 f m => some (packV3 37 1 f m.chain)
  | .atomMaxSB32 f m => some (packV3 37 2 f m.chain)
  | .atomMinNB32 f m => some (packV3 37 3 f m.chain)
  | .atomMaxNB32 f m => some (packV3 37 4 f m.chain)
  | .atomAndB32 f m => some (packV3 37 5 f m.chain)
  | .atomOrB32 f m => some (packV3 37 6 f m.chain)
  | .atomXorB32 f m => some (packV3 37 7 f m.chain)
  | .atomExchB32 f m => some (packV3 37 8 f m.chain)
  | .atomCasB32 f m => some (packV3 37 9 f m.chain)
  | .atomFaddF32 f m => some (packV3 37 10 f m.chain)
  | .atomAddB64 f m => some (packV3 38 0 f m.chain)
  | .atomMinSB64 f m => some (packV3 38 1 f m.chain)
  | .atomMaxSB64 f m => some (packV3 38 2 f m.chain)
  | .atomMinNB64 f m => some (packV3 38 3 f m.chain)
  | .atomMaxNB64 f m => some (packV3 38 4 f m.chain)
  | .atomAndB64 f m => some (packV3 38 5 f m.chain)
  | .atomOrB64 f m => some (packV3 38 6 f m.chain)
  | .atomXorB64 f m => some (packV3 38 7 f m.chain)
  | .atomExchB64 f m => some (packV3 38 8 f m.chain)
  | .atomCasB64 f m => some (packV3 38 9 f m.chain)
  | .atomFaddF64 f m => some (packV3 38 10 f m.chain)
  | .atomAddB32Scr f m => some (packV3 39 0 f m.chain)
  | .atomMinSB32Scr f m => some (packV3 39 1 f m.chain)
  | .atomMaxSB32Scr f m => some (packV3 39 2 f m.chain)
  | .atomMinNB32Scr f m => some (packV3 39 3 f m.chain)
  | .atomMaxNB32Scr f m => some (packV3 39 4 f m.chain)
  | .atomAndB32Scr f m => some (packV3 39 5 f m.chain)
  | .atomOrB32Scr f m => some (packV3 39 6 f m.chain)
  | .atomXorB32Scr f m => some (packV3 39 7 f m.chain)
  | .atomExchB32Scr f m => some (packV3 39 8 f m.chain)
  | .atomCasB32Scr f m => some (packV3 39 9 f m.chain)
  | .atomFaddF32Scr f m => some (packV3 39 10 f m.chain)
  | .atomAddB64Scr f m => some (packV3 40 0 f m.chain)
  | .atomMinSB64Scr f m => some (packV3 40 1 f m.chain)
  | .atomMaxSB64Scr f m => some (packV3 40 2 f m.chain)
  | .atomMinNB64Scr f m => some (packV3 40 3 f m.chain)
  | .atomMaxNB64Scr f m => some (packV3 40 4 f m.chain)
  | .atomAndB64Scr f m => some (packV3 40 5 f m.chain)
  | .atomOrB64Scr f m => some (packV3 40 6 f m.chain)
  | .atomXorB64Scr f m => some (packV3 40 7 f m.chain)
  | .atomExchB64Scr f m => some (packV3 40 8 f m.chain)
  | .atomCasB64Scr f m => some (packV3 40 9 f m.chain)
  | .atomFaddF64Scr f m => some (packV3 40 10 f m.chain)
  | .sldB32 f m => some (packS 41 0 f m.chain)
  | .sldB64 f m => some (packS 41 1 f m.chain)
  | .sstB32 f m => some (packS 41 2 f m.chain)
  | .sstB64 f m => some (packS 41 3 f m.chain)
  | .atomsAddB32 f m => some (packS 41 4 f m.chain)
  | .atomsMaxN32 f m => some (packS 41 5 f m.chain)
  | .atomsExchB32 f m => some (packS 41 6 f m.chain)
  | .atomsAddB64 f m => some (packS 41 7 f m.chain)
  | .atomsMaxN64 f m => some (packS 41 8 f m.chain)
  | .atomsExchB64 f m => some (packS 41 9 f m.chain)
  | .scataddF32 f m => some (packV3 42 0 f m.chain)
  | .bpref f m => some (packV3 42 1 f m.chain)
  | .bprefBo f m => some (packV3 42 2 f m.chain)
  | .shinv f m => some (packV3 42 3 f m.chain)
  | .shinvAll f m => some (packV3 42 4 f m.chain)
  | .mma f m => some (packV4 48 0 f m.chain)
  | .mzero f m => some (packV4 48 1 f m.chain)
  | .mload f m => some (packV4 48 2 f m.chain)
  | .mdrain f m => some (packV4 48 3 f m.chain)
  | .mupd f m => some (packV4 48 4 f m.chain)
  | .mwait f m => some (packV4 48 5 f m.chain)
  | .mcompress f m => some (packV4 48 6 f m.chain)
  | .amaxrd f m => some (packV4 48 7 f m.chain)
  | .amaxrdSync f m => some (packV4 48 8 f m.chain)
  | .amaxclr f m => some (packV4 48 9 f m.chain)
  | .fence f m => some (packV4 49 0 f m.chain)
  | .barteam f m => some (packV4 49 1 f m.chain)
  | .barclu f m => some (packV4 49 2 f m.chain)
  | .boinit f m => some (packV4 49 3 f m.chain)
  | .boarr f m => some (packV4 49 4 f m.chain)
  | .bowait f m => some (packV4 49 5 f m.chain)
  | .tokwait f m => some (packV4 49 6 f m.chain)
  | .kick f m => some (packV4 49 7 f m.chain)
  | .scatflush f m => some (packV4 49 8 f m.chain)
  | .glaunch f m => some (packV4 49 9 f m.chain)
  | .srammode f m => some (packV4 49 10 f m.chain)
  | .texs f m => some (packV4 50 0 f m.chain)
  | .texg f m => some (packV4 50 1 f m.chain)
  | .texadj f m => some (packV4 50 2 f m.chain)
  | .trace f m => some (packV4 50 3 f m.chain)
  | .traceadj f m => some (packV4 50 4 f m.chain)
  | .edgeq f m => some (packV4 50 5 f m.chain)
  | .trecB32 f m => some (packV4 51 0 f m.chain)
  | .trecB64 f m => some (packV4 51 1 f m.chain)
  | .tpopB32 f m => some (packV4 51 2 f m.chain)
  | .tpopB64 f m => some (packV4 51 3 f m.chain)
  | .tmark f m => some (packV4 51 4 f m.chain)
  | .tseal f m => some (packV4 51 5 f m.chain)
  | .qwriteWrite _ _ => none
  | .queueDisable _ _ => none
  | .segrelGo _ _ => none
  | .readLaunchPacket _ => none
  | .beginDispatch => none
  | .dispatchTeam _ => none
  | .releaseTimeReached _ => none
  | .deadlineReached _ => none
  | .deadlinePreemptRequest _ => none
  | .replayLaunchPacket _ => none
  | .gridComplete _ => none
  | .teamEnd _ => none
  | .fetchPacket => none
  | .groupSwitchIn _ _ => none
  | .asyncTrapDelivery _ _ => none
  | .syncTimeout _ _ _ => none
  | .yieldExpire _ _ _ => none
  | .faultRecordDeliver => none
  | .fqreadWrite _ => none
  | .fqbaseWrite _ => none
  | .fresolveMapped _ => none
  | .fresolveUnresolvable _ => none
  | .invcmdPage _ => none
  | .invcmdContext _ => none
  | .invcmdAll _ => none
  | .invalidationDone => none
  | .migreqGo _ => none
  | .holdExpire _ _ => none
  | .fabricReadShared _ => none
  | .fabricReadExclusive _ => none
  | .fabricUpgrade _ => none
  | .fabricWriteback _ => none
  | .fabricEvictNotice _ => none
  | .fabricInvalidate _ => none
  | .fabricRecall _ => none
  | .fabricInvalAck _ _ _ => none
  | .fabricAtomic _ _ => none
  | .fabricResponse _ _ => none
  | .fabricTimeout _ => none
  | .flowPause _ _ => none
  | .flowResume _ _ => none
  | .replayEvent _ _ => none
  | .linkNak _ _ => none
  | .linkAck _ _ => none
  | .laneLoss _ _ => none
  | .linkRetrainDone _ => none
  | .keyInstall _ => none
  | .keyClearFlit _ => none
  | .linkTraining _ _ _ _ => none
  | .routedataWrite _ => none
  | .matrixOpStart _ _ => none
  | .matrixKgroup _ _ => none
  | .mloadRow _ _ => none
  | .drainBlock _ _ => none
  | .updateBlock _ _ => none
  | .cardItemStart _ => none
  | .cardLineWrite _ => none
  | .cardItemEnd _ => none
  | .rasterWalk _ => none
  | .vertexGradientContrib _ _ => none
  | .edgeSample _ => none
  | .vaccmdGo _ => none
  | .vacate => none
  | .ctxcmdGo _ => none
  | .eccCorrection _ _ _ _ => none
  | .poisonLine _ _ _ => none
  | .stateError _ => none
  | .deviceError _ => none
  | .deviceReset => none
  | .powerOnReset => none
  | .fwcmdGo => none
  | .fwcmdReset => none
  | .spdmGetMeasurements _ => none
  | .spdmChallenge _ => none
  | .spdmSecuredSession _ => none
  | .fabricBringup _ _ => none
  | .bar2Access _ _ _ => none
  | .bar0UnmappedAccess _ _ => none
  | .ptpMessage _ => none
  | .ptmRequest => none
  | .ppsEdge => none
  | .holdoverTimeout => none
  | .ppsLossTimeout => none
  | .timectlSrcWrite _ => none
  | .powerPredict _ => none
  | .powerRestoreStep _ => none
  | .thermal105 _ => none
  | .thermal115 => none
  | .ellostRead => none
  | .ppscountRead => none
  | .pwrcapnsRead => none
  | .portstatRead _ => none
  | .registerWrite _ _ => none
  | .contextEnd _ => none
  | .fabricRequestArrival _ _ _ _ => none
  | .cardReltimeReached _ => none
  | .bulkPrefetchLine _ => none
  | .ptmResponse _ _ => none
  | .firmwareUpdateDone => none
  | .powerLoss => none

/-- The words around an instruction word. -/
def Instr.mods : Instr → Option Mods
  | .nop _ m => some m
  | .hint _ _ m => some m
  | .trap _ m => some m
  | .eret _ m => some m
  | .bkpt _ m => some m
  | .yield _ m => some m
  | .sysrd _ m => some m
  | .syswr _ m => some m
  | .sread _ m => some m
  | .regn _ m => some m
  | .iaddS32 _ m => some m
  | .isubS32 _ m => some m
  | .imulS32 _ m => some m
  | .imulhS32 _ m => some m
  | .idivS32 _ m => some m
  | .iremS32 _ m => some m
  | .iminS32 _ m => some m
  | .imaxS32 _ m => some m
  | .iabsS32 _ m => some m
  | .inegS32 _ m => some m
  | .shlS32 _ m => some m
  | .shrS32 _ m => some m
  | .sarS32 _ m => some m
  | .popcS32 _ m => some m
  | .clzS32 _ m => some m
  | .brevS32 _ m => some m
  | .iaddN32 _ m => some m
  | .isubN32 _ m => some m
  | .imulN32 _ m => some m
  | .imulhN32 _ m => some m
  | .idivN32 _ m => some m
  | .iremN32 _ m => some m
  | .iminN32 _ m => some m
  | .imaxN32 _ m => some m
  | .inegN32 _ m => some m
  | .shlN32 _ m => some m
  | .shrN32 _ m => some m
  | .popcN32 _ m => some m
  | .clzN32 _ m => some m
  | .brevN32 _ m => some m
  | .iaddS64 _ m => some m
  | .isubS64 _ m => some m
  | .imulS64 _ m => some m
  | .imulhS64 _ m => some m
  | .idivS64 _ m => some m
  | .iremS64 _ m => some m
  | .iminS64 _ m => some m
  | .imaxS64 _ m => some m
  | .iabsS64 _ m => some m
  | .inegS64 _ m => some m
  | .shlS64 _ m => some m
  | .shrS64 _ m => some m
  | .sarS64 _ m => some m
  | .popcS64 _ m => some m
  | .clzS64 _ m => some m
  | .brevS64 _ m => some m
  | .iaddN64 _ m => some m
  | .isubN64 _ m => some m
  | .imulN64 _ m => some m
  | .imulhN64 _ m => some m
  | .idivN64 _ m => some m
  | .iremN64 _ m => some m
  | .iminN64 _ m => some m
  | .imaxN64 _ m => some m
  | .inegN64 _ m => some m
  | .shlN64 _ m => some m
  | .shrN64 _ m => some m
  | .popcN64 _ m => some m
  | .clzN64 _ m => some m
  | .brevN64 _ m => some m
  | .iaddS16X2 _ m => some m
  | .isubS16X2 _ m => some m
  | .imulS16X2 _ m => some m
  | .iminS16X2 _ m => some m
  | .imaxS16X2 _ m => some m
  | .iminN16X2 _ m => some m
  | .imaxN16X2 _ m => some m
  | .iabsS16X2 _ m => some m
  | .inegS16X2 _ m => some m
  | .shlB16X2 _ m => some m
  | .shrB16X2 _ m => some m
  | .sarS16X2 _ m => some m
  | .icmp32 _ _ m => some m
  | .icmp64 _ _ m => some m
  | .movB32 _ m => some m
  | .movB64 _ m => some m
  | .movsB32 _ m => some m
  | .movsB64 _ m => some m
  | .mvrd _ m => some m
  | .leaSh0 _ m => some m
  | .leaSh1 _ m => some m
  | .leaSh2 _ m => some m
  | .leaSh3 _ m => some m
  | .bfxS32 _ m => some m
  | .bfxN32 _ m => some m
  | .bfxS64 _ m => some m
  | .bfxN64 _ m => some m
  | .imadS32 _ m => some m
  | .imadN32 _ m => some m
  | .imadS64 _ m => some m
  | .imadN64 _ m => some m
  | .logic3B32 _ m => some m
  | .logic3B64 _ m => some m
  | .fshfLB32 _ m => some m
  | .fshfRB32 _ m => some m
  | .bfiB32 _ m => some m
  | .bfiB64 _ m => some m
  | .selB32 _ m => some m
  | .selB64 _ m => some m
  | .mvwr _ m => some m
  | .plogic _ m => some m
  | .voteAny _ m => some m
  | .voteAll _ m => some m
  | .voteBallot _ m => some m
  | .sadd _ m => some m
  | .ssub _ m => some m
  | .smul _ m => some m
  | .sand _ m => some m
  | .sor _ m => some m
  | .sxor _ m => some m
  | .sshl _ m => some m
  | .sshr _ m => some m
  | .scmp _ m => some m
  | .smov _ m => some m
  | .br _ m => some m
  | .brsZ _ m => some m
  | .brsNz _ m => some m
  | .call _ m => some m
  | .ret _ m => some m
  | .enrol _ m => some m
  | .rejoin _ m => some m
  | .exit _ m => some m
  | .jmpi _ m => some m
  | .faddF32 _ m => some m
  | .fsubF32 _ m => some m
  | .fmulF32 _ m => some m
  | .fminF32 _ m => some m
  | .fmaxF32 _ m => some m
  | .frndF32 _ m => some m
  | .fclassF32 _ m => some m
  | .faddF64 _ m => some m
  | .fsubF64 _ m => some m
  | .fmulF64 _ m => some m
  | .fminF64 _ m => some m
  | .fmaxF64 _ m => some m
  | .frndF64 _ m => some m
  | .fclassF64 _ m => some m
  | .faddF16X2 _ m => some m
  | .fsubF16X2 _ m => some m
  | .fmulF16X2 _ m => some m
  | .fminF16X2 _ m => some m
  | .fmaxF16X2 _ m => some m
  | .frndF16X2 _ m => some m
  | .faddBf16X2 _ m => some m
  | .fsubBf16X2 _ m => some m
  | .fmulBf16X2 _ m => some m
  | .fminBf16X2 _ m => some m
  | .fmaxBf16X2 _ m => some m
  | .frndBf16X2 _ m => some m
  | .ffmaF32 _ m => some m
  | .ffmaF64 _ m => some m
  | .ffmaF16X2 _ m => some m
  | .ffmaBf16X2 _ m => some m
  | .fcmpF32 _ _ m => some m
  | .fcmpF64 _ _ m => some m
  | .fdivF32 _ m => some m
  | .fsqrtF32 _ m => some m
  | .frcpF32 _ m => some m
  | .frsqF32 _ m => some m
  | .fexp2F32 _ m => some m
  | .flog2F32 _ m => some m
  | .fsinF32 _ m => some m
  | .fcosF32 _ m => some m
  | .fdivF64 _ m => some m
  | .fsqrtF64 _ m => some m
  | .frcpF64 _ m => some m
  | .frsqF64 _ m => some m
  | .cvt _ _ m => some m
  | .cvtsr _ _ m => some m
  | .cvtmxMxe4m3F32 _ m => some m
  | .cvtmxMxe5m2F32 _ m => some m
  | .cvtmxMxe2m1F32 _ m => some m
  | .cvtmxMxe4m3Bf16 _ m => some m
  | .cvtmxMxe5m2Bf16 _ m => some m
  | .cvtmxMxe2m1Bf16 _ m => some m
  | .expandE4m3I4 _ m => some m
  | .expandE4m3E2m3 _ m => some m
  | .expandE4m3E3m2 _ m => some m
  | .expandE5m2E3m2 _ m => some m
  | .blkscaleMxe4m3 _ m => some m
  | .blkscaleMxe5m2 _ m => some m
  | .blkscaleMxe2m1 _ m => some m
  | .shflIdxB32 _ m => some m
  | .shflUpB32 _ m => some m
  | .shflDownB32 _ m => some m
  | .shflXorB32 _ m => some m
  | .qswapHB32 _ m => some m
  | .qswapVB32 _ m => some m
  | .qswapDB32 _ m => some m
  | .qbcastB32 _ m => some m
  | .qderivXFineF32 _ m => some m
  | .qderivYFineF32 _ m => some m
  | .qderivXCoarseF32 _ m => some m
  | .qderivYCoarseF32 _ m => some m
  | .flagrd _ m => some m
  | .flagclr _ m => some m
  | .shflIdxB64 _ m => some m
  | .shflUpB64 _ m => some m
  | .shflDownB64 _ m => some m
  | .shflXorB64 _ m => some m
  | .qswapHB64 _ m => some m
  | .qswapVB64 _ m => some m
  | .qswapDB64 _ m => some m
  | .qbcastB64 _ m => some m
  | .qderivXFineF64 _ m => some m
  | .qderivYFineF64 _ m => some m
  | .qderivXCoarseF64 _ m => some m
  | .qderivYCoarseF64 _ m => some m
  | .gredSumF32 _ m => some m
  | .gredMinF32 _ m => some m
  | .gredMaxF32 _ m => some m
  | .gredSumS32 _ m => some m
  | .gredMinS32 _ m => some m
  | .gredMaxS32 _ m => some m
  | .gredSumF64 _ m => some m
  | .gredSumS64 _ m => some m
  | .gredSegSumF32 _ m => some m
  | .gredSegMinF32 _ m => some m
  | .gredSegMaxF32 _ m => some m
  | .gredSegSumS32 _ m => some m
  | .gredSegMinS32 _ m => some m
  | .gredSegMaxS32 _ m => some m
  | .gredSegSumF64 _ m => some m
  | .gredSegSumS64 _ m => some m
  | .ldN8 _ m => some m
  | .ldS8 _ m => some m
  | .ldN16 _ m => some m
  | .ldS16 _ m => some m
  | .ldB32 _ m => some m
  | .ldB64 _ m => some m
  | .ldB128 _ m => some m
  | .stB8 _ m => some m
  | .stB16 _ m => some m
  | .stB32 _ m => some m
  | .stB64 _ m => some m
  | .stB128 _ m => some m
  | .pref _ m => some m
  | .discard _ m => some m
  | .lastuse _ m => some m
  | .ldN8Scr _ m => some m
  | .ldS8Scr _ m => some m
  | .ldN16Scr _ m => some m
  | .ldS16Scr _ m => some m
  | .ldB32Scr _ m => some m
  | .ldB64Scr _ m => some m
  | .ldB128Scr _ m => some m
  | .stB8Scr _ m => some m
  | .stB16Scr _ m => some m
  | .stB32Scr _ m => some m
  | .stB64Scr _ m => some m
  | .stB128Scr _ m => some m
  | .ldN8Cscr _ m => some m
  | .ldS8Cscr _ m => some m
  | .ldN16Cscr _ m => some m
  | .ldS16Cscr _ m => some m
  | .ldB32Cscr _ m => some m
  | .ldB64Cscr _ m => some m
  | .ldB128Cscr _ m => some m
  | .stB8Cscr _ m => some m
  | .stB16Cscr _ m => some m
  | .stB32Cscr _ m => some m
  | .stB64Cscr _ m => some m
  | .stB128Cscr _ m => some m
  | .tld _ m => some m
  | .tldVer _ m => some m
  | .tst _ m => some m
  | .tstWhole _ m => some m
  | .rld _ m => some m
  | .rst _ m => some m
  | .tldScr _ m => some m
  | .tldVerScr _ m => some m
  | .tstScr _ m => some m
  | .tstWholeScr _ m => some m
  | .rldScr _ m => some m
  | .rstScr _ m => some m
  | .atomAddB32 _ m => some m
  | .atomMinSB32 _ m => some m
  | .atomMaxSB32 _ m => some m
  | .atomMinNB32 _ m => some m
  | .atomMaxNB32 _ m => some m
  | .atomAndB32 _ m => some m
  | .atomOrB32 _ m => some m
  | .atomXorB32 _ m => some m
  | .atomExchB32 _ m => some m
  | .atomCasB32 _ m => some m
  | .atomFaddF32 _ m => some m
  | .atomAddB64 _ m => some m
  | .atomMinSB64 _ m => some m
  | .atomMaxSB64 _ m => some m
  | .atomMinNB64 _ m => some m
  | .atomMaxNB64 _ m => some m
  | .atomAndB64 _ m => some m
  | .atomOrB64 _ m => some m
  | .atomXorB64 _ m => some m
  | .atomExchB64 _ m => some m
  | .atomCasB64 _ m => some m
  | .atomFaddF64 _ m => some m
  | .atomAddB32Scr _ m => some m
  | .atomMinSB32Scr _ m => some m
  | .atomMaxSB32Scr _ m => some m
  | .atomMinNB32Scr _ m => some m
  | .atomMaxNB32Scr _ m => some m
  | .atomAndB32Scr _ m => some m
  | .atomOrB32Scr _ m => some m
  | .atomXorB32Scr _ m => some m
  | .atomExchB32Scr _ m => some m
  | .atomCasB32Scr _ m => some m
  | .atomFaddF32Scr _ m => some m
  | .atomAddB64Scr _ m => some m
  | .atomMinSB64Scr _ m => some m
  | .atomMaxSB64Scr _ m => some m
  | .atomMinNB64Scr _ m => some m
  | .atomMaxNB64Scr _ m => some m
  | .atomAndB64Scr _ m => some m
  | .atomOrB64Scr _ m => some m
  | .atomXorB64Scr _ m => some m
  | .atomExchB64Scr _ m => some m
  | .atomCasB64Scr _ m => some m
  | .atomFaddF64Scr _ m => some m
  | .sldB32 _ m => some m
  | .sldB64 _ m => some m
  | .sstB32 _ m => some m
  | .sstB64 _ m => some m
  | .atomsAddB32 _ m => some m
  | .atomsMaxN32 _ m => some m
  | .atomsExchB32 _ m => some m
  | .atomsAddB64 _ m => some m
  | .atomsMaxN64 _ m => some m
  | .atomsExchB64 _ m => some m
  | .scataddF32 _ m => some m
  | .bpref _ m => some m
  | .bprefBo _ m => some m
  | .shinv _ m => some m
  | .shinvAll _ m => some m
  | .mma _ m => some m
  | .mzero _ m => some m
  | .mload _ m => some m
  | .mdrain _ m => some m
  | .mupd _ m => some m
  | .mwait _ m => some m
  | .mcompress _ m => some m
  | .amaxrd _ m => some m
  | .amaxrdSync _ m => some m
  | .amaxclr _ m => some m
  | .fence _ m => some m
  | .barteam _ m => some m
  | .barclu _ m => some m
  | .boinit _ m => some m
  | .boarr _ m => some m
  | .bowait _ m => some m
  | .tokwait _ m => some m
  | .kick _ m => some m
  | .scatflush _ m => some m
  | .glaunch _ m => some m
  | .srammode _ m => some m
  | .texs _ m => some m
  | .texg _ m => some m
  | .texadj _ m => some m
  | .trace _ m => some m
  | .traceadj _ m => some m
  | .edgeq _ m => some m
  | .trecB32 _ m => some m
  | .trecB64 _ m => some m
  | .tpopB32 _ m => some m
  | .tpopB64 _ m => some m
  | .tmark _ m => some m
  | .tseal _ m => some m
  | .qwriteWrite _ _ => none
  | .queueDisable _ _ => none
  | .segrelGo _ _ => none
  | .readLaunchPacket _ => none
  | .beginDispatch => none
  | .dispatchTeam _ => none
  | .releaseTimeReached _ => none
  | .deadlineReached _ => none
  | .deadlinePreemptRequest _ => none
  | .replayLaunchPacket _ => none
  | .gridComplete _ => none
  | .teamEnd _ => none
  | .fetchPacket => none
  | .groupSwitchIn _ _ => none
  | .asyncTrapDelivery _ _ => none
  | .syncTimeout _ _ _ => none
  | .yieldExpire _ _ _ => none
  | .faultRecordDeliver => none
  | .fqreadWrite _ => none
  | .fqbaseWrite _ => none
  | .fresolveMapped _ => none
  | .fresolveUnresolvable _ => none
  | .invcmdPage _ => none
  | .invcmdContext _ => none
  | .invcmdAll _ => none
  | .invalidationDone => none
  | .migreqGo _ => none
  | .holdExpire _ _ => none
  | .fabricReadShared _ => none
  | .fabricReadExclusive _ => none
  | .fabricUpgrade _ => none
  | .fabricWriteback _ => none
  | .fabricEvictNotice _ => none
  | .fabricInvalidate _ => none
  | .fabricRecall _ => none
  | .fabricInvalAck _ _ _ => none
  | .fabricAtomic _ _ => none
  | .fabricResponse _ _ => none
  | .fabricTimeout _ => none
  | .flowPause _ _ => none
  | .flowResume _ _ => none
  | .replayEvent _ _ => none
  | .linkNak _ _ => none
  | .linkAck _ _ => none
  | .laneLoss _ _ => none
  | .linkRetrainDone _ => none
  | .keyInstall _ => none
  | .keyClearFlit _ => none
  | .linkTraining _ _ _ _ => none
  | .routedataWrite _ => none
  | .matrixOpStart _ _ => none
  | .matrixKgroup _ _ => none
  | .mloadRow _ _ => none
  | .drainBlock _ _ => none
  | .updateBlock _ _ => none
  | .cardItemStart _ => none
  | .cardLineWrite _ => none
  | .cardItemEnd _ => none
  | .rasterWalk _ => none
  | .vertexGradientContrib _ _ => none
  | .edgeSample _ => none
  | .vaccmdGo _ => none
  | .vacate => none
  | .ctxcmdGo _ => none
  | .eccCorrection _ _ _ _ => none
  | .poisonLine _ _ _ => none
  | .stateError _ => none
  | .deviceError _ => none
  | .deviceReset => none
  | .powerOnReset => none
  | .fwcmdGo => none
  | .fwcmdReset => none
  | .spdmGetMeasurements _ => none
  | .spdmChallenge _ => none
  | .spdmSecuredSession _ => none
  | .fabricBringup _ _ => none
  | .bar2Access _ _ _ => none
  | .bar0UnmappedAccess _ _ => none
  | .ptpMessage _ => none
  | .ptmRequest => none
  | .ppsEdge => none
  | .holdoverTimeout => none
  | .ppsLossTimeout => none
  | .timectlSrcWrite _ => none
  | .powerPredict _ => none
  | .powerRestoreStep _ => none
  | .thermal105 _ => none
  | .thermal115 => none
  | .ellostRead => none
  | .ppscountRead => none
  | .pwrcapnsRead => none
  | .portstatRead _ => none
  | .registerWrite _ _ => none
  | .contextEnd _ => none
  | .fabricRequestArrival _ _ _ _ => none
  | .cardReltimeReached _ => none
  | .bulkPrefetchLine _ => none
  | .ptmResponse _ _ => none
  | .firmwareUpdateDone => none
  | .powerLoss => none

/-! ## Encoder -/

/-- The words of an instruction in its packet: instruction word, literal, extension (spec 06 R113); none for an event.
(DEDUCED, log 146.) -/
def encode (i : Instr) : List W32 :=
  match i.word, i.mods with
  | some w, some m => w :: (m.lit.toList ++ (m.ext.map packExt).toList)
  | _, _ => []

/-! ## Decoder -/

/-- The instructions of major 0x0 (spec 05 Table 5-5 and its minor table). -/
noncomputable def decodeMajor00 (w : W32) (m : Mods) : Option Instr :=
  match (minorOf w).toNat with
  | 0 => some (.nop (unpackY w) m)
  | 1 => some (.trap (unpackY w) m)
  | 2 => some (.eret (unpackY w) m)
  | 3 => some (.bkpt (unpackY w) m)
  | 4 => some (.yield (unpackY w) m)
  | 5 => some (.sysrd (unpackY w) m)
  | 6 => some (.syswr (unpackY w) m)
  | 7 => some (.sread (unpackY w) m)
  | 8 => some (.regn (unpackY w) m)
  | 12 => some (.hint 0 (unpackY w) m)
  | 13 => some (.hint 1 (unpackY w) m)
  | 14 => some (.hint 2 (unpackY w) m)
  | 15 => some (.hint 3 (unpackY w) m)
  | _ => none

/-- The instructions of major 0x1 (spec 05 Table 5-5 and its minor table). -/
noncomputable def decodeMajor01 (w : W32) (m : Mods) : Option Instr :=
  match (minorOf w).toNat with
  | 0 => some (.iaddS32 (unpackV3 w) m)
  | 1 => some (.isubS32 (unpackV3 w) m)
  | 2 => some (.imulS32 (unpackV3 w) m)
  | 3 => some (.imulhS32 (unpackV3 w) m)
  | 4 => some (.idivS32 (unpackV3 w) m)
  | 5 => some (.iremS32 (unpackV3 w) m)
  | 6 => some (.iminS32 (unpackV3 w) m)
  | 7 => some (.imaxS32 (unpackV3 w) m)
  | 8 => some (.iabsS32 (unpackV3 w) m)
  | 9 => some (.inegS32 (unpackV3 w) m)
  | 10 => some (.shlS32 (unpackV3 w) m)
  | 11 => some (.shrS32 (unpackV3 w) m)
  | 12 => some (.sarS32 (unpackV3 w) m)
  | 13 => some (.popcS32 (unpackV3 w) m)
  | 14 => some (.clzS32 (unpackV3 w) m)
  | 15 => some (.brevS32 (unpackV3 w) m)
  | _ => none

/-- The instructions of major 0x2 (spec 05 Table 5-5 and its minor table). -/
noncomputable def decodeMajor02 (w : W32) (m : Mods) : Option Instr :=
  match (minorOf w).toNat with
  | 0 => some (.iaddN32 (unpackV3 w) m)
  | 1 => some (.isubN32 (unpackV3 w) m)
  | 2 => some (.imulN32 (unpackV3 w) m)
  | 3 => some (.imulhN32 (unpackV3 w) m)
  | 4 => some (.idivN32 (unpackV3 w) m)
  | 5 => some (.iremN32 (unpackV3 w) m)
  | 6 => some (.iminN32 (unpackV3 w) m)
  | 7 => some (.imaxN32 (unpackV3 w) m)
  | 9 => some (.inegN32 (unpackV3 w) m)
  | 10 => some (.shlN32 (unpackV3 w) m)
  | 11 => some (.shrN32 (unpackV3 w) m)
  | 13 => some (.popcN32 (unpackV3 w) m)
  | 14 => some (.clzN32 (unpackV3 w) m)
  | 15 => some (.brevN32 (unpackV3 w) m)
  | _ => none

/-- The instructions of major 0x3 (spec 05 Table 5-5 and its minor table). -/
noncomputable def decodeMajor03 (w : W32) (m : Mods) : Option Instr :=
  match (minorOf w).toNat with
  | 0 => some (.iaddS64 (unpackV3 w) m)
  | 1 => some (.isubS64 (unpackV3 w) m)
  | 2 => some (.imulS64 (unpackV3 w) m)
  | 3 => some (.imulhS64 (unpackV3 w) m)
  | 4 => some (.idivS64 (unpackV3 w) m)
  | 5 => some (.iremS64 (unpackV3 w) m)
  | 6 => some (.iminS64 (unpackV3 w) m)
  | 7 => some (.imaxS64 (unpackV3 w) m)
  | 8 => some (.iabsS64 (unpackV3 w) m)
  | 9 => some (.inegS64 (unpackV3 w) m)
  | 10 => some (.shlS64 (unpackV3 w) m)
  | 11 => some (.shrS64 (unpackV3 w) m)
  | 12 => some (.sarS64 (unpackV3 w) m)
  | 13 => some (.popcS64 (unpackV3 w) m)
  | 14 => some (.clzS64 (unpackV3 w) m)
  | 15 => some (.brevS64 (unpackV3 w) m)
  | _ => none

/-- The instructions of major 0x4 (spec 05 Table 5-5 and its minor table). -/
noncomputable def decodeMajor04 (w : W32) (m : Mods) : Option Instr :=
  match (minorOf w).toNat with
  | 0 => some (.iaddN64 (unpackV3 w) m)
  | 1 => some (.isubN64 (unpackV3 w) m)
  | 2 => some (.imulN64 (unpackV3 w) m)
  | 3 => some (.imulhN64 (unpackV3 w) m)
  | 4 => some (.idivN64 (unpackV3 w) m)
  | 5 => some (.iremN64 (unpackV3 w) m)
  | 6 => some (.iminN64 (unpackV3 w) m)
  | 7 => some (.imaxN64 (unpackV3 w) m)
  | 9 => some (.inegN64 (unpackV3 w) m)
  | 10 => some (.shlN64 (unpackV3 w) m)
  | 11 => some (.shrN64 (unpackV3 w) m)
  | 13 => some (.popcN64 (unpackV3 w) m)
  | 14 => some (.clzN64 (unpackV3 w) m)
  | 15 => some (.brevN64 (unpackV3 w) m)
  | _ => none

/-- The instructions of major 0x5 (spec 05 Table 5-5 and its minor table). -/
noncomputable def decodeMajor05 (w : W32) (m : Mods) : Option Instr :=
  match (minorOf w).toNat with
  | 0 => some (.iaddS16X2 (unpackV3 w) m)
  | 1 => some (.isubS16X2 (unpackV3 w) m)
  | 2 => some (.imulS16X2 (unpackV3 w) m)
  | 3 => some (.iminS16X2 (unpackV3 w) m)
  | 4 => some (.imaxS16X2 (unpackV3 w) m)
  | 5 => some (.iminN16X2 (unpackV3 w) m)
  | 6 => some (.imaxN16X2 (unpackV3 w) m)
  | 7 => some (.iabsS16X2 (unpackV3 w) m)
  | 8 => some (.inegS16X2 (unpackV3 w) m)
  | 9 => some (.shlB16X2 (unpackV3 w) m)
  | 10 => some (.shrB16X2 (unpackV3 w) m)
  | 11 => some (.sarS16X2 (unpackV3 w) m)
  | _ => none

/-- The instructions of major 0x6 (spec 05 Table 5-5 and its minor table). -/
noncomputable def decodeMajor06 (w : W32) (m : Mods) : Option Instr :=
  some (.icmp32 (minorOf w) (unpackV3 w) m)

/-- The instructions of major 0x7 (spec 05 Table 5-5 and its minor table). -/
noncomputable def decodeMajor07 (w : W32) (m : Mods) : Option Instr :=
  some (.icmp64 (minorOf w) (unpackV3 w) m)

/-- The instructions of major 0x8 (spec 05 Table 5-5 and its minor table). -/
noncomputable def decodeMajor08 (w : W32) (m : Mods) : Option Instr :=
  match (minorOf w).toNat with
  | 0 => some (.movB32 (unpackV3 w) m)
  | 1 => some (.movB64 (unpackV3 w) m)
  | 2 => some (.movsB32 (unpackV3 w) m)
  | 3 => some (.movsB64 (unpackV3 w) m)
  | 4 => some (.mvrd (unpackV3 w) m)
  | 5 => some (.leaSh0 (unpackV3 w) m)
  | 6 => some (.leaSh1 (unpackV3 w) m)
  | 7 => some (.leaSh2 (unpackV3 w) m)
  | 8 => some (.leaSh3 (unpackV3 w) m)
  | 9 => some (.bfxS32 (unpackV3 w) m)
  | 10 => some (.bfxN32 (unpackV3 w) m)
  | 11 => some (.bfxS64 (unpackV3 w) m)
  | 12 => some (.bfxN64 (unpackV3 w) m)
  | _ => none

/-- The instructions of major 0x9 (spec 05 Table 5-5 and its minor table). -/
noncomputable def decodeMajor09 (w : W32) (m : Mods) : Option Instr :=
  match (minorOf w).toNat with
  | 0 => some (.imadS32 (unpackV4 w) m)
  | 1 => some (.imadN32 (unpackV4 w) m)
  | 2 => some (.imadS64 (unpackV4 w) m)
  | 3 => some (.imadN64 (unpackV4 w) m)
  | 4 => some (.logic3B32 (unpackV4 w) m)
  | 5 => some (.logic3B64 (unpackV4 w) m)
  | 6 => some (.fshfLB32 (unpackV4 w) m)
  | 7 => some (.fshfRB32 (unpackV4 w) m)
  | 8 => some (.bfiB32 (unpackV4 w) m)
  | 9 => some (.bfiB64 (unpackV4 w) m)
  | 10 => some (.selB32 (unpackV4 w) m)
  | 11 => some (.selB64 (unpackV4 w) m)
  | 12 => some (.mvwr (unpackV4 w) m)
  | _ => none

/-- The instructions of major 0xa (spec 05 Table 5-5 and its minor table). -/
noncomputable def decodeMajor0A (w : W32) (m : Mods) : Option Instr :=
  match (minorOf w).toNat with
  | 0 => some (.plogic (unpackV3 w) m)
  | 1 => some (.voteAny (unpackV3 w) m)
  | 2 => some (.voteAll (unpackV3 w) m)
  | 3 => some (.voteBallot (unpackV3 w) m)
  | _ => none

/-- The instructions of major 0xb (spec 05 Table 5-5 and its minor table). -/
noncomputable def decodeMajor0B (w : W32) (m : Mods) : Option Instr :=
  match (minorOf w).toNat with
  | 0 => some (.sadd (unpackS w) m)
  | 1 => some (.ssub (unpackS w) m)
  | 2 => some (.smul (unpackS w) m)
  | 3 => some (.sand (unpackS w) m)
  | 4 => some (.sor (unpackS w) m)
  | 5 => some (.sxor (unpackS w) m)
  | 6 => some (.sshl (unpackS w) m)
  | 7 => some (.sshr (unpackS w) m)
  | 8 => some (.scmp (unpackS w) m)
  | 9 => some (.smov (unpackS w) m)
  | _ => none

/-- The instructions of major 0xc (spec 05 Table 5-5 and its minor table). -/
noncomputable def decodeMajor0C (w : W32) (m : Mods) : Option Instr :=
  match (minorOf w).toNat with
  | 0 => some (.br (unpackB w) m)
  | 1 => if w.getLsbD 19 then some (.brsZ (unpackBrs w) m) else some (.brsNz (unpackBrs w) m)
  | 2 => some (.call (unpackB w) m)
  | 3 => some (.ret (unpackB w) m)
  | 4 => some (.enrol (unpackB w) m)
  | 5 => some (.rejoin (unpackB w) m)
  | 6 => some (.exit (unpackB w) m)
  | 7 => some (.jmpi (unpackB w) m)
  | _ => none

/-- The instructions of major 0x10 (spec 05 Table 5-5 and its minor table). -/
noncomputable def decodeMajor10 (w : W32) (m : Mods) : Option Instr :=
  match (minorOf w).toNat with
  | 0 => some (.faddF32 (unpackV3 w) m)
  | 1 => some (.fsubF32 (unpackV3 w) m)
  | 2 => some (.fmulF32 (unpackV3 w) m)
  | 3 => some (.fminF32 (unpackV3 w) m)
  | 4 => some (.fmaxF32 (unpackV3 w) m)
  | 5 => some (.frndF32 (unpackV3 w) m)
  | 6 => some (.fclassF32 (unpackV3 w) m)
  | _ => none

/-- The instructions of major 0x11 (spec 05 Table 5-5 and its minor table). -/
noncomputable def decodeMajor11 (w : W32) (m : Mods) : Option Instr :=
  match (minorOf w).toNat with
  | 0 => some (.faddF64 (unpackV3 w) m)
  | 1 => some (.fsubF64 (unpackV3 w) m)
  | 2 => some (.fmulF64 (unpackV3 w) m)
  | 3 => some (.fminF64 (unpackV3 w) m)
  | 4 => some (.fmaxF64 (unpackV3 w) m)
  | 5 => some (.frndF64 (unpackV3 w) m)
  | 6 => some (.fclassF64 (unpackV3 w) m)
  | _ => none

/-- The instructions of major 0x12 (spec 05 Table 5-5 and its minor table). -/
noncomputable def decodeMajor12 (w : W32) (m : Mods) : Option Instr :=
  match (minorOf w).toNat with
  | 0 => some (.faddF16X2 (unpackV3 w) m)
  | 1 => some (.fsubF16X2 (unpackV3 w) m)
  | 2 => some (.fmulF16X2 (unpackV3 w) m)
  | 3 => some (.fminF16X2 (unpackV3 w) m)
  | 4 => some (.fmaxF16X2 (unpackV3 w) m)
  | 5 => some (.frndF16X2 (unpackV3 w) m)
  | _ => none

/-- The instructions of major 0x13 (spec 05 Table 5-5 and its minor table). -/
noncomputable def decodeMajor13 (w : W32) (m : Mods) : Option Instr :=
  match (minorOf w).toNat with
  | 0 => some (.faddBf16X2 (unpackV3 w) m)
  | 1 => some (.fsubBf16X2 (unpackV3 w) m)
  | 2 => some (.fmulBf16X2 (unpackV3 w) m)
  | 3 => some (.fminBf16X2 (unpackV3 w) m)
  | 4 => some (.fmaxBf16X2 (unpackV3 w) m)
  | 5 => some (.frndBf16X2 (unpackV3 w) m)
  | _ => none

/-- The instructions of major 0x14 (spec 05 Table 5-5 and its minor table). -/
noncomputable def decodeMajor14 (w : W32) (m : Mods) : Option Instr :=
  match (minorOf w).toNat with
  | 0 => some (.ffmaF32 (unpackV4 w) m)
  | 1 => some (.ffmaF64 (unpackV4 w) m)
  | 2 => some (.ffmaF16X2 (unpackV4 w) m)
  | 3 => some (.ffmaBf16X2 (unpackV4 w) m)
  | _ => none

/-- The instructions of major 0x15 (spec 05 Table 5-5 and its minor table). -/
noncomputable def decodeMajor15 (w : W32) (m : Mods) : Option Instr :=
  if (minorOf w).getLsbD 3 then some (.fcmpF64 ((minorOf w).extractLsb' 0 3) (unpackV3 w) m) else some (.fcmpF32 ((minorOf w).extractLsb' 0 3) (unpackV3 w) m)

/-- The instructions of major 0x16 (spec 05 Table 5-5 and its minor table). -/
noncomputable def decodeMajor16 (w : W32) (m : Mods) : Option Instr :=
  match (minorOf w).toNat with
  | 0 => some (.fdivF32 (unpackV3 w) m)
  | 1 => some (.fsqrtF32 (unpackV3 w) m)
  | 2 => some (.frcpF32 (unpackV3 w) m)
  | 3 => some (.frsqF32 (unpackV3 w) m)
  | 4 => some (.fexp2F32 (unpackV3 w) m)
  | 5 => some (.flog2F32 (unpackV3 w) m)
  | 6 => some (.fsinF32 (unpackV3 w) m)
  | 7 => some (.fcosF32 (unpackV3 w) m)
  | 8 => some (.fdivF64 (unpackV3 w) m)
  | 9 => some (.fsqrtF64 (unpackV3 w) m)
  | 10 => some (.frcpF64 (unpackV3 w) m)
  | 11 => some (.frsqF64 (unpackV3 w) m)
  | _ => none

/-- The instructions of major 0x17 (spec 05 Table 5-5 and its minor table). -/
noncomputable def decodeMajor17 (w : W32) (m : Mods) : Option Instr :=
  some (.cvt (minorOf w) (unpackV3 w) m)

/-- The instructions of major 0x18 (spec 05 Table 5-5 and its minor table). -/
noncomputable def decodeMajor18 (w : W32) (m : Mods) : Option Instr :=
  some (.cvtsr (minorOf w) (unpackV3 w) m)

/-- The instructions of major 0x19 (spec 05 Table 5-5 and its minor table). -/
noncomputable def decodeMajor19 (w : W32) (m : Mods) : Option Instr :=
  match (minorOf w).toNat with
  | 0 => some (.cvtmxMxe4m3F32 (unpackV3 w) m)
  | 1 => some (.cvtmxMxe5m2F32 (unpackV3 w) m)
  | 2 => some (.cvtmxMxe2m1F32 (unpackV3 w) m)
  | 3 => some (.cvtmxMxe4m3Bf16 (unpackV3 w) m)
  | 4 => some (.cvtmxMxe5m2Bf16 (unpackV3 w) m)
  | 5 => some (.cvtmxMxe2m1Bf16 (unpackV3 w) m)
  | 6 => some (.expandE4m3I4 (unpackV3 w) m)
  | 7 => some (.expandE4m3E2m3 (unpackV3 w) m)
  | 8 => some (.expandE4m3E3m2 (unpackV3 w) m)
  | 9 => some (.expandE5m2E3m2 (unpackV3 w) m)
  | 10 => some (.blkscaleMxe4m3 (unpackV3 w) m)
  | 11 => some (.blkscaleMxe5m2 (unpackV3 w) m)
  | 12 => some (.blkscaleMxe2m1 (unpackV3 w) m)
  | _ => none

/-- The instructions of major 0x1a (spec 05 Table 5-5 and its minor table). -/
noncomputable def decodeMajor1A (w : W32) (m : Mods) : Option Instr :=
  match (minorOf w).toNat with
  | 0 => some (.shflIdxB32 (unpackV3 w) m)
  | 1 => some (.shflUpB32 (unpackV3 w) m)
  | 2 => some (.shflDownB32 (unpackV3 w) m)
  | 3 => some (.shflXorB32 (unpackV3 w) m)
  | 4 => some (.qswapHB32 (unpackV3 w) m)
  | 5 => some (.qswapVB32 (unpackV3 w) m)
  | 6 => some (.qswapDB32 (unpackV3 w) m)
  | 7 => some (.qbcastB32 (unpackV3 w) m)
  | 8 => some (.qderivXFineF32 (unpackV3 w) m)
  | 9 => some (.qderivYFineF32 (unpackV3 w) m)
  | 10 => some (.qderivXCoarseF32 (unpackV3 w) m)
  | 11 => some (.qderivYCoarseF32 (unpackV3 w) m)
  | 12 => some (.flagrd (unpackV3 w) m)
  | 13 => some (.flagclr (unpackV3 w) m)
  | _ => none

/-- The instructions of major 0x1b (spec 05 Table 5-5 and its minor table). -/
noncomputable def decodeMajor1B (w : W32) (m : Mods) : Option Instr :=
  match (minorOf w).toNat with
  | 0 => some (.shflIdxB64 (unpackV3 w) m)
  | 1 => some (.shflUpB64 (unpackV3 w) m)
  | 2 => some (.shflDownB64 (unpackV3 w) m)
  | 3 => some (.shflXorB64 (unpackV3 w) m)
  | 4 => some (.qswapHB64 (unpackV3 w) m)
  | 5 => some (.qswapVB64 (unpackV3 w) m)
  | 6 => some (.qswapDB64 (unpackV3 w) m)
  | 7 => some (.qbcastB64 (unpackV3 w) m)
  | 8 => some (.qderivXFineF64 (unpackV3 w) m)
  | 9 => some (.qderivYFineF64 (unpackV3 w) m)
  | 10 => some (.qderivXCoarseF64 (unpackV3 w) m)
  | 11 => some (.qderivYCoarseF64 (unpackV3 w) m)
  | _ => none

/-- The instructions of major 0x1c (spec 05 Table 5-5 and its minor table). -/
noncomputable def decodeMajor1C (w : W32) (m : Mods) : Option Instr :=
  match (minorOf w).toNat with
  | 0 => some (.gredSumF32 (unpackV3 w) m)
  | 1 => some (.gredMinF32 (unpackV3 w) m)
  | 2 => some (.gredMaxF32 (unpackV3 w) m)
  | 3 => some (.gredSumS32 (unpackV3 w) m)
  | 4 => some (.gredMinS32 (unpackV3 w) m)
  | 5 => some (.gredMaxS32 (unpackV3 w) m)
  | 6 => some (.gredSumF64 (unpackV3 w) m)
  | 7 => some (.gredSumS64 (unpackV3 w) m)
  | 8 => some (.gredSegSumF32 (unpackV3 w) m)
  | 9 => some (.gredSegMinF32 (unpackV3 w) m)
  | 10 => some (.gredSegMaxF32 (unpackV3 w) m)
  | 11 => some (.gredSegSumS32 (unpackV3 w) m)
  | 12 => some (.gredSegMinS32 (unpackV3 w) m)
  | 13 => some (.gredSegMaxS32 (unpackV3 w) m)
  | 14 => some (.gredSegSumF64 (unpackV3 w) m)
  | 15 => some (.gredSegSumS64 (unpackV3 w) m)
  | _ => none

/-- The instructions of major 0x20 (spec 05 Table 5-5 and its minor table). -/
noncomputable def decodeMajor20 (w : W32) (m : Mods) : Option Instr :=
  match (minorOf w).toNat with
  | 0 => some (.ldN8 (unpackV3 w) m)
  | 1 => some (.ldS8 (unpackV3 w) m)
  | 2 => some (.ldN16 (unpackV3 w) m)
  | 3 => some (.ldS16 (unpackV3 w) m)
  | 4 => some (.ldB32 (unpackV3 w) m)
  | 5 => some (.ldB64 (unpackV3 w) m)
  | 6 => some (.ldB128 (unpackV3 w) m)
  | 8 => some (.stB8 (unpackV3 w) m)
  | 9 => some (.stB16 (unpackV3 w) m)
  | 10 => some (.stB32 (unpackV3 w) m)
  | 11 => some (.stB64 (unpackV3 w) m)
  | 12 => some (.stB128 (unpackV3 w) m)
  | 13 => some (.pref (unpackV3 w) m)
  | 14 => some (.discard (unpackV3 w) m)
  | 15 => some (.lastuse (unpackV3 w) m)
  | _ => none

/-- The instructions of major 0x21 (spec 05 Table 5-5 and its minor table). -/
noncomputable def decodeMajor21 (w : W32) (m : Mods) : Option Instr :=
  match (minorOf w).toNat with
  | 0 => some (.ldN8Scr (unpackV3 w) m)
  | 1 => some (.ldS8Scr (unpackV3 w) m)
  | 2 => some (.ldN16Scr (unpackV3 w) m)
  | 3 => some (.ldS16Scr (unpackV3 w) m)
  | 4 => some (.ldB32Scr (unpackV3 w) m)
  | 5 => some (.ldB64Scr (unpackV3 w) m)
  | 6 => some (.ldB128Scr (unpackV3 w) m)
  | 8 => some (.stB8Scr (unpackV3 w) m)
  | 9 => some (.stB16Scr (unpackV3 w) m)
  | 10 => some (.stB32Scr (unpackV3 w) m)
  | 11 => some (.stB64Scr (unpackV3 w) m)
  | 12 => some (.stB128Scr (unpackV3 w) m)
  | _ => none

/-- The instructions of major 0x22 (spec 05 Table 5-5 and its minor table). -/
noncomputable def decodeMajor22 (w : W32) (m : Mods) : Option Instr :=
  match (minorOf w).toNat with
  | 0 => some (.ldN8Cscr (unpackV3 w) m)
  | 1 => some (.ldS8Cscr (unpackV3 w) m)
  | 2 => some (.ldN16Cscr (unpackV3 w) m)
  | 3 => some (.ldS16Cscr (unpackV3 w) m)
  | 4 => some (.ldB32Cscr (unpackV3 w) m)
  | 5 => some (.ldB64Cscr (unpackV3 w) m)
  | 6 => some (.ldB128Cscr (unpackV3 w) m)
  | 8 => some (.stB8Cscr (unpackV3 w) m)
  | 9 => some (.stB16Cscr (unpackV3 w) m)
  | 10 => some (.stB32Cscr (unpackV3 w) m)
  | 11 => some (.stB64Cscr (unpackV3 w) m)
  | 12 => some (.stB128Cscr (unpackV3 w) m)
  | _ => none

/-- The instructions of major 0x23 (spec 05 Table 5-5 and its minor table). -/
noncomputable def decodeMajor23 (w : W32) (m : Mods) : Option Instr :=
  match (minorOf w).toNat with
  | 0 => some (.tld (unpackV3 w) m)
  | 1 => some (.tldVer (unpackV3 w) m)
  | 2 => some (.tst (unpackV3 w) m)
  | 3 => some (.tstWhole (unpackV3 w) m)
  | 4 => some (.rld (unpackV3 w) m)
  | 5 => some (.rst (unpackV3 w) m)
  | _ => none

/-- The instructions of major 0x24 (spec 05 Table 5-5 and its minor table). -/
noncomputable def decodeMajor24 (w : W32) (m : Mods) : Option Instr :=
  match (minorOf w).toNat with
  | 0 => some (.tldScr (unpackV3 w) m)
  | 1 => some (.tldVerScr (unpackV3 w) m)
  | 2 => some (.tstScr (unpackV3 w) m)
  | 3 => some (.tstWholeScr (unpackV3 w) m)
  | 4 => some (.rldScr (unpackV3 w) m)
  | 5 => some (.rstScr (unpackV3 w) m)
  | _ => none

/-- The instructions of major 0x25 (spec 05 Table 5-5 and its minor table). -/
noncomputable def decodeMajor25 (w : W32) (m : Mods) : Option Instr :=
  match (minorOf w).toNat with
  | 0 => some (.atomAddB32 (unpackV3 w) m)
  | 1 => some (.atomMinSB32 (unpackV3 w) m)
  | 2 => some (.atomMaxSB32 (unpackV3 w) m)
  | 3 => some (.atomMinNB32 (unpackV3 w) m)
  | 4 => some (.atomMaxNB32 (unpackV3 w) m)
  | 5 => some (.atomAndB32 (unpackV3 w) m)
  | 6 => some (.atomOrB32 (unpackV3 w) m)
  | 7 => some (.atomXorB32 (unpackV3 w) m)
  | 8 => some (.atomExchB32 (unpackV3 w) m)
  | 9 => some (.atomCasB32 (unpackV3 w) m)
  | 10 => some (.atomFaddF32 (unpackV3 w) m)
  | _ => none

/-- The instructions of major 0x26 (spec 05 Table 5-5 and its minor table). -/
noncomputable def decodeMajor26 (w : W32) (m : Mods) : Option Instr :=
  match (minorOf w).toNat with
  | 0 => some (.atomAddB64 (unpackV3 w) m)
  | 1 => some (.atomMinSB64 (unpackV3 w) m)
  | 2 => some (.atomMaxSB64 (unpackV3 w) m)
  | 3 => some (.atomMinNB64 (unpackV3 w) m)
  | 4 => some (.atomMaxNB64 (unpackV3 w) m)
  | 5 => some (.atomAndB64 (unpackV3 w) m)
  | 6 => some (.atomOrB64 (unpackV3 w) m)
  | 7 => some (.atomXorB64 (unpackV3 w) m)
  | 8 => some (.atomExchB64 (unpackV3 w) m)
  | 9 => some (.atomCasB64 (unpackV3 w) m)
  | 10 => some (.atomFaddF64 (unpackV3 w) m)
  | _ => none

/-- The instructions of major 0x27 (spec 05 Table 5-5 and its minor table). -/
noncomputable def decodeMajor27 (w : W32) (m : Mods) : Option Instr :=
  match (minorOf w).toNat with
  | 0 => some (.atomAddB32Scr (unpackV3 w) m)
  | 1 => some (.atomMinSB32Scr (unpackV3 w) m)
  | 2 => some (.atomMaxSB32Scr (unpackV3 w) m)
  | 3 => some (.atomMinNB32Scr (unpackV3 w) m)
  | 4 => some (.atomMaxNB32Scr (unpackV3 w) m)
  | 5 => some (.atomAndB32Scr (unpackV3 w) m)
  | 6 => some (.atomOrB32Scr (unpackV3 w) m)
  | 7 => some (.atomXorB32Scr (unpackV3 w) m)
  | 8 => some (.atomExchB32Scr (unpackV3 w) m)
  | 9 => some (.atomCasB32Scr (unpackV3 w) m)
  | 10 => some (.atomFaddF32Scr (unpackV3 w) m)
  | _ => none

/-- The instructions of major 0x28 (spec 05 Table 5-5 and its minor table). -/
noncomputable def decodeMajor28 (w : W32) (m : Mods) : Option Instr :=
  match (minorOf w).toNat with
  | 0 => some (.atomAddB64Scr (unpackV3 w) m)
  | 1 => some (.atomMinSB64Scr (unpackV3 w) m)
  | 2 => some (.atomMaxSB64Scr (unpackV3 w) m)
  | 3 => some (.atomMinNB64Scr (unpackV3 w) m)
  | 4 => some (.atomMaxNB64Scr (unpackV3 w) m)
  | 5 => some (.atomAndB64Scr (unpackV3 w) m)
  | 6 => some (.atomOrB64Scr (unpackV3 w) m)
  | 7 => some (.atomXorB64Scr (unpackV3 w) m)
  | 8 => some (.atomExchB64Scr (unpackV3 w) m)
  | 9 => some (.atomCasB64Scr (unpackV3 w) m)
  | 10 => some (.atomFaddF64Scr (unpackV3 w) m)
  | _ => none

/-- The instructions of major 0x29 (spec 05 Table 5-5 and its minor table). -/
noncomputable def decodeMajor29 (w : W32) (m : Mods) : Option Instr :=
  match (minorOf w).toNat with
  | 0 => some (.sldB32 (unpackS w) m)
  | 1 => some (.sldB64 (unpackS w) m)
  | 2 => some (.sstB32 (unpackS w) m)
  | 3 => some (.sstB64 (unpackS w) m)
  | 4 => some (.atomsAddB32 (unpackS w) m)
  | 5 => some (.atomsMaxN32 (unpackS w) m)
  | 6 => some (.atomsExchB32 (unpackS w) m)
  | 7 => some (.atomsAddB64 (unpackS w) m)
  | 8 => some (.atomsMaxN64 (unpackS w) m)
  | 9 => some (.atomsExchB64 (unpackS w) m)
  | _ => none

/-- The instructions of major 0x2a (spec 05 Table 5-5 and its minor table). -/
noncomputable def decodeMajor2A (w : W32) (m : Mods) : Option Instr :=
  match (minorOf w).toNat with
  | 0 => some (.scataddF32 (unpackV3 w) m)
  | 1 => some (.bpref (unpackV3 w) m)
  | 2 => some (.bprefBo (unpackV3 w) m)
  | 3 => some (.shinv (unpackV3 w) m)
  | 4 => some (.shinvAll (unpackV3 w) m)
  | _ => none

/-- The instructions of major 0x30 (spec 05 Table 5-5 and its minor table). -/
noncomputable def decodeMajor30 (w : W32) (m : Mods) : Option Instr :=
  match (minorOf w).toNat with
  | 0 => some (.mma (unpackV4 w) m)
  | 1 => some (.mzero (unpackV4 w) m)
  | 2 => some (.mload (unpackV4 w) m)
  | 3 => some (.mdrain (unpackV4 w) m)
  | 4 => some (.mupd (unpackV4 w) m)
  | 5 => some (.mwait (unpackV4 w) m)
  | 6 => some (.mcompress (unpackV4 w) m)
  | 7 => some (.amaxrd (unpackV4 w) m)
  | 8 => some (.amaxrdSync (unpackV4 w) m)
  | 9 => some (.amaxclr (unpackV4 w) m)
  | _ => none

/-- The instructions of major 0x31 (spec 05 Table 5-5 and its minor table). -/
noncomputable def decodeMajor31 (w : W32) (m : Mods) : Option Instr :=
  match (minorOf w).toNat with
  | 0 => some (.fence (unpackV4 w) m)
  | 1 => some (.barteam (unpackV4 w) m)
  | 2 => some (.barclu (unpackV4 w) m)
  | 3 => some (.boinit (unpackV4 w) m)
  | 4 => some (.boarr (unpackV4 w) m)
  | 5 => some (.bowait (unpackV4 w) m)
  | 6 => some (.tokwait (unpackV4 w) m)
  | 7 => some (.kick (unpackV4 w) m)
  | 8 => some (.scatflush (unpackV4 w) m)
  | 9 => some (.glaunch (unpackV4 w) m)
  | 10 => some (.srammode (unpackV4 w) m)
  | _ => none

/-- The instructions of major 0x32 (spec 05 Table 5-5 and its minor table). -/
noncomputable def decodeMajor32 (w : W32) (m : Mods) : Option Instr :=
  match (minorOf w).toNat with
  | 0 => some (.texs (unpackV4 w) m)
  | 1 => some (.texg (unpackV4 w) m)
  | 2 => some (.texadj (unpackV4 w) m)
  | 3 => some (.trace (unpackV4 w) m)
  | 4 => some (.traceadj (unpackV4 w) m)
  | 5 => some (.edgeq (unpackV4 w) m)
  | _ => none

/-- The instructions of major 0x33 (spec 05 Table 5-5 and its minor table). -/
noncomputable def decodeMajor33 (w : W32) (m : Mods) : Option Instr :=
  match (minorOf w).toNat with
  | 0 => some (.trecB32 (unpackV4 w) m)
  | 1 => some (.trecB64 (unpackV4 w) m)
  | 2 => some (.tpopB32 (unpackV4 w) m)
  | 3 => some (.tpopB64 (unpackV4 w) m)
  | 4 => some (.tmark (unpackV4 w) m)
  | 5 => some (.tseal (unpackV4 w) m)
  | _ => none

/-- The instruction of an instruction word standing with the words `m` around it, by its major and minor (spec 05 R106). -/
noncomputable def decodeWord (w : W32) (m : Mods) : Option Instr :=
  match (majorOf w).toNat with
  | 0 => decodeMajor00 w m
  | 1 => decodeMajor01 w m
  | 2 => decodeMajor02 w m
  | 3 => decodeMajor03 w m
  | 4 => decodeMajor04 w m
  | 5 => decodeMajor05 w m
  | 6 => decodeMajor06 w m
  | 7 => decodeMajor07 w m
  | 8 => decodeMajor08 w m
  | 9 => decodeMajor09 w m
  | 10 => decodeMajor0A w m
  | 11 => decodeMajor0B w m
  | 12 => decodeMajor0C w m
  | 16 => decodeMajor10 w m
  | 17 => decodeMajor11 w m
  | 18 => decodeMajor12 w m
  | 19 => decodeMajor13 w m
  | 20 => decodeMajor14 w m
  | 21 => decodeMajor15 w m
  | 22 => decodeMajor16 w m
  | 23 => decodeMajor17 w m
  | 24 => decodeMajor18 w m
  | 25 => decodeMajor19 w m
  | 26 => decodeMajor1A w m
  | 27 => decodeMajor1B w m
  | 28 => decodeMajor1C w m
  | 32 => decodeMajor20 w m
  | 33 => decodeMajor21 w m
  | 34 => decodeMajor22 w m
  | 35 => decodeMajor23 w m
  | 36 => decodeMajor24 w m
  | 37 => decodeMajor25 w m
  | 38 => decodeMajor26 w m
  | 39 => decodeMajor27 w m
  | 40 => decodeMajor28 w m
  | 41 => decodeMajor29 w m
  | 42 => decodeMajor2A w m
  | 48 => decodeMajor30 w m
  | 49 => decodeMajor31 w m
  | 50 => decodeMajor32 w m
  | 51 => decodeMajor33 w m
  | _ => none

/-- The majors that Table 5-5 assigns. -/
def majorAssigned (w : W32) : Bool :=
  [0, 1, 2, 3, 4, 5, 6, 7, 8, 9, 10, 11, 12, 16, 17, 18, 19, 20, 21, 22, 23, 24, 25, 26, 27, 28, 32, 33, 34, 35, 36, 37, 38, 39, 40, 41, 42, 48, 49, 50, 51].contains (majorOf w).toNat

/-! ## The checks of Table 5-10 -/

/-- Reasons that a field gives by itself: a reserved destination (3), an idle value or reinterpreted bit missed, or a
narrow literal with high bits (4), a reserved SB code (5), a misaligned or illegal register name (8). -/
def fieldReasons (lit : Option W32) (u : Use) (v : BitVec 6) : List Nat :=
  let n := v.toNat
  let k := n - 16
  let isK := decide (16 ≤ n) && decide (n ≤ 47)
  match u with
  | .dst t =>
    if n == 63 then []
    else if isK then (if k % max 1 (tyBits t / 32) == 0 then [] else [8]) else [3]
  | .sel t =>
    if isK then (if k % max 1 (tyBits t / 32) == 0 then [] else [8])
    else if decide (tyBits t ≤ 64) then
      (if n == 62 && decide (tyBits t < 32) && (lit.getD 0) >>> tyBits t != 0 then [4] else [])
    else if n == 63 || decide (n + tyBits t / 64 ≤ 16) then [] else [8]
  | .selS => if decide (48 ≤ n) && decide (n ≤ 61) then [5] else []
  | .idle => if n == 63 then [] else [4]
  | .idleD => if n == 63 then [] else [4]
  | .bits mask => if v &&& ~~~mask == 0 then [] else [4]
  | .any => []

/-- Whether an extension of a memory instruction keeps Table 5-4. A load or store with ORD 0, PREF, SCATADD and SHINV hold
SCOPE 0 (spec 05 R103, 11 R225, R238, R240); no rule asks it of DISCARD, LASTUSE and BPREF. -/
def memExtOk (k : MemKind) (remote ncross : Bool) (e : Ext) : Bool :=
  let ord := (e.xop.extractLsb' 2 2).toNat
  let hint := (e.xop.extractLsb' 0 2).toNat
  let ordOk := match k with
    | .load => decide (ord ≤ 1)
    | .store => ord == 0 || ord == 2
    | .atomic => true
    | .plain | .line => ord == 0
    | .shinv => ord == 0 && hint == 0
  ordOk && hint != 3 && decide (e.mod3.toNat ≤ 5) && (k == .atomic || k == .line || ord != 0 || e.mod3 == 0) &&
    (e.mod1 == 0 || ncross || (remote && (ord == 1 || ord == 3)))

/-- The reason an extension gives: 6 outside Table 5-4, 9 where no extension may stand (spec 05 R103). -/
def extReasons (r : ExtRule) : Option Ext → List Nat
  | none => []
  | some e =>
    match r with
    | .none => [9]
    | .int sat table =>
      if e.mod3 == 0 && (e.mod1 == 0 || sat) && e.xop == 0 &&
        (e.imm16 == 0 || (table && e.imm16.extractLsb' 8 8 == 0)) then [] else [6]
    | .flt rm salt =>
      if e.mod1 == 0 && e.xop == 0 && decide (e.mod3.toNat ≤ 4) && (e.mod3 == 0 || rm) &&
        (e.imm16 == 0 || salt || (rm && e.mod3 == 4)) then [] else [6]
    | .mem k remote ncross => if memExtOk k remote ncross e then [] else [6]
    | .memS k remote ncross => if memExtOk k remote ncross e && !e.gn then [] else [6]
    | .eng laneSel =>
      if e.mod3 == 0 && e.mod1 == 0 && e.xop.extractLsb' 1 3 == 0 &&
        (if e.xop.getLsbD 0 then laneSel && e.imm16.extractLsb' 5 11 == 0 else e.imm16 == 0) then [] else [6]

/-- The reasons that an instruction's own fields, its own checks and its extension give. -/
def Sig.reasons (s : Sig) (m : Mods) : List Nat :=
  let word := s.fields.flatMap (fun f => fieldReasons m.lit f.1 f.2) ++ (s.own.filter (·.1)).map (·.2)
  let ext := extReasons s.ext m.ext
  -- an extension that the word may not have is reported unless a reason below 6 applies to the word (spec 05 R103)
  (if ext.contains 9 then word.filter fun r => decide (r < 6) else word) ++ ext

/-- The lowest of the reasons found, if any (spec 05 R95). -/
def lowestReason (l : List Nat) : Option Nat :=
  l.foldl (fun best n => match best with | none => some n | some b => some (min b n)) none

/-- The first register named at or above the allotment `regs` (spec 05 R97). (DEDUCED, log 193.) -/
def Sig.overAllotment (s : Sig) (regs : Nat) : Option Nat :=
  s.fields.findSome? fun (u, v) =>
    let n := v.toNat
    let named := match u with
      | .dst _ => decide (16 ≤ n) && decide (n ≤ 47)
      | .sel _ => decide (16 ≤ n) && decide (n ≤ 47)
      | _ => false
    if named && decide (regs ≤ n - 16) then some (n - 16) else none

/-- The reason for which a word of cause group 1 is refused, none for a word that passes (spec 05 Table 5-10). -/
def Instr.decodeReason (i : Instr) : Option Nat :=
  match i.sig, i.mods with
  | some s, some m => lowestReason (s.reasons m)
  | _, _ => none

/-! ## Packets (spec 05 R90-R94) -/

/-- The selector fields that count for R94, by major: a mask of minors and the lowest bits of their fields (spec 05 R94,
Tables 5-1 and 5-9). -/
def litTable (maj : Nat) : List (Nat × List Nat) :=
  match maj with
  | 0 => [(0x01FE, [13])]
  | 1 | 3 | 21 | 28 => [(0xFFFF, [13, 7])]
  | 2 | 4 => [(0xEEFF, [13, 7])]
  | 5 | 22 | 27 => [(0x0FFF, [13, 7])]
  | 6 | 7 => [(0x03FF, [13, 7])]
  | 8 => [(0x1FEF, [13, 7]), (0x0010, [13])]
  | 9 => [(0x03FF, [19, 13, 7]), (0x1C00, [19, 13])]
  | 10 => [(0x000E, [7])]
  | 11 | 41 => [(0x03FF, [9])]
  | 12 => [(0x0080, [15])]
  | 16 | 17 => [(0x007F, [13, 7])]
  | 18 | 19 => [(0x003F, [13, 7])]
  | 20 => [(0x000F, [19, 13, 7])]
  | 23 | 24 => [(0xFFFF, [13])]
  | 25 => [(0x1FFF, [13, 7])]
  | 26 => [(0x3FFF, [13, 7])]
  | 32 => [(0xE07F, [13, 7]), (0x1F00, [19, 13, 7])]
  | 33 | 34 => [(0x007F, [13, 7]), (0x1F00, [19, 13, 7])]
  | 35 | 36 => [(0x0013, [13, 7]), (0x002C, [19, 13, 7])]
  | 37 | 38 | 39 | 40 => [(0x05FF, [13, 7]), (0x0200, [19, 13, 7])]
  | 42 => [(0x0005, [19, 13, 7]), (0x001A, [13, 7])]
  | 48 => [(0x0041, [19, 13, 7]), (0x03BE, [19, 13])]
  | 49 => [(0x0127, [19, 13]), (0x06D8, [19, 13, 7])]
  | 50 | 51 => [(0x003F, [19, 13, 7])]
  | _ => []

/-- HasLit of R94, for an instruction word. The number of SREAD acts as a minor opcode (spec 08 R166), so a reserved one
is an unassigned minor. -/
def hasLit (w : W32) : Bool :=
  let n := (minorOf w).toNat
  let num := (w.extractLsb' 4 9).toNat
  (litTable (majorOf w).toNat).any (fun x => Nat.testBit x.1 n && x.2.any fun lo => w.extractLsb' lo 6 == 62) &&
    !(majorOf w == 0 && n == 7 && decide (29 ≤ num))

/-- Ctl of R94: the control words. -/
def isControl (w : W32) : Bool :=
  let j := (majorOf w).toNat
  let n := (minorOf w).toNat
  (j == 12 && (decide (n ≤ 3) || n == 5 || n == 6 || n == 7)) || (j == 0 && (n == 1 || n == 2 || n == 3 || n == 4))

/-- The pipe classes (spec 05 R93). -/
inductive Pipe where
  | v | sf | ls | bs | mx | tt
  deriving DecidableEq, Repr

/-- The pipe class of a major (spec 05 Table 5-5); none for an unassigned major. -/
def pipeOf (w : W32) : Option Pipe :=
  let j := (majorOf w).toNat
  if !majorAssigned w then none
  else if j == 0 || j == 10 || j == 11 || j == 12 then some .bs
  else if j == 22 then some .sf
  else if decide (j < 32) then some .v
  else if j == 48 then some .mx
  else if j == 50 then some .tt
  else some .ls

/-- One unit of a packet: the slot of its instruction word, that word, and the words that follow it. -/
structure PUnit where
  slot : Nat
  word : W32
  mods : Mods
  deriving DecidableEq, Repr

/-- How many words a unit has. -/
def PUnit.len (u : PUnit) : Nat := 1 + u.mods.lit.toList.length + u.mods.ext.toList.length

/-- Whether the word at slot `i` of `ws` is there and is an extension word. -/
def extAt (ws : List W32) (i : Nat) : Bool :=
  match ws[i]? with
  | some w => majorOf w == 63
  | none => false

/-- The procedure of R94 from slot `i` on: the units of the packet, or the reason for which it is illegal and the slot of
the word concerned. A report about an extension word names the instruction word it extends (R90). -/
def packetUnits (ws : List W32) : Nat → Nat → Bool → Nat → List Pipe → Except (Nat × Nat) (List PUnit)
  | 0, _, _, _, _ => .ok []
  | fuel + 1, i, tied, nV, used =>
    match ws[i]? with
    | none => .ok []
    | some w =>
      if majorOf w == 63 then .error (3, i)
      else
        let nV := if tied then nV else 0
        let used := if tied then used else []
        let p := pipeOf w
        let nV' := if p == some .v then nV + 1 else nV
        if decide (2 < nV') then .error (2, i)
        else if p != some .v && used.any (fun u => some u == p) then .error (2, i)
        else
          let used' := match p with
            | some .v => used
            | some q => q :: used
            | none => used
          let c := chainOf w
          let lit := hasLit w
          if lit && (!c || decide (2 < i + 1)) then .error (4, i)
          else
            let i1 := if lit then i + 2 else i + 1
            let tied1 := if lit then false else c
            let e := c && extAt ws i1
            let ext := if e then (ws[i1]?).map unpackExt else none
            let i2 := if e then i1 + 1 else i1
            let tied2 := match ext with
              | some x => x.chain
              | none => tied1
            if isControl w && tied2 then .error (5, i)
            else if decide (2 < i2) && tied2 then .error (1, i)
            else
              let u : PUnit := ⟨i, w, ⟨c, if lit then ws[i + 1]? else none, ext⟩⟩
              match packetUnits ws fuel i2 tied2 nV' used' with
              | .ok us => .ok (u :: us)
              | .error r => .error r

/-- What a lane finds at a slot of a packet. -/
inductive SlotDecode where
  | illegal (reason slot : Nat)     -- cause group 2 (spec 05 Table 5-11)
  | notInstr                        -- a literal or extension word stands there (spec 20 R405)
  | undefinedWord (reason : Nat) (u : PUnit)   -- reserved major (1) or minor (2)
  | instr (i : Instr) (u : PUnit)
  deriving DecidableEq, Repr

/-- The decoder: what stands at slot `slot` of the packet `ws`, for every packet. -/
noncomputable def decodeSlot (ws : List W32) (slot : Nat) : SlotDecode :=
  match packetUnits ws 3 0 false 0 [] with
  | .error r => .illegal r.1 r.2
  | .ok us =>
    match us.find? (fun u => u.slot == slot) with
    | none => .notInstr
    | some u =>
      match decodeWord u.word u.mods with
      | some i => .instr i u
      | none => .undefinedWord (if majorAssigned u.word then 2 else 1) u

/-- A little-endian word of four bytes. -/
def wordOfBytes (b0 b1 b2 b3 : Byte) : W32 := b3 ++ b2 ++ b1 ++ b0

/-- The three words of the twelve bytes of a packet (spec 05 R90). -/
def packetWords : List Byte → List W32
  | b0 :: b1 :: b2 :: b3 :: rest => wordOfBytes b0 b1 b2 b3 :: packetWords rest
  | _ => []

/-- The first slot of a packet given as bytes. -/
noncomputable def decodeBytes (bs : List Byte) (slot : Nat) : SlotDecode := decodeSlot (packetWords bs) slot

/-- The bytes of a word, least significant first. -/
def bytesOfWord (w : W32) : List Byte :=
  [w.extractLsb' 0 8, w.extractLsb' 8 8, w.extractLsb' 16 8, w.extractLsb' 24 8]

/-- The three words of a packet whose bits, numbered from bit 0 of the first word, are `w`; bits from `nbits` up are 0. -/
def tableWords (nbits w : Nat) : List W32 :=
  let v := w % 2 ^ nbits
  [BitVec.ofNat 32 v, BitVec.ofNat 32 (v / 2 ^ 32), BitVec.ofNat 32 (v / 2 ^ 64)]

/-- The instruction that the decoder reads from a packet whose bits are `w` (the first word in slot 0). -/
noncomputable def decodeTableWord (nbits w : Nat) : Option Instr :=
  match decodeBytes ((tableWords nbits w).flatMap bytesOfWord) 0 with
  | .instr i _ => some i
  | _ => none

end Sys2Proof
end

