-- ==== Sys2Proof/Machine/Bits.lean ====
section
/-! DEFINITION. Bit-field, byte-order and list helpers that the meanings share, and the placement generator PG64. -/

namespace Sys2Proof.Machine

/-- The value of a bit vector read as two's complement. -/
def sint {w : Nat} (x : BitVec w) : Int := x.toInt

/-- An exact integer wrapped to `w` bits (spec 08 R146). -/
def wrap (w : Nat) (x : Int) : BitVec w := BitVec.ofInt w x

/-- The number of one bits (spec 08 R153). -/
def popCount {w : Nat} (x : BitVec w) : Nat :=
  (List.range w).foldl (fun n i => if x.getLsbD i then n + 1 else n) 0

/-- The number of zero bits above the highest one bit; `w` for zero (spec 08 R153). -/
def leadingZeros {w : Nat} (x : BitVec w) : Nat :=
  if x.toNat = 0 then w else w - 1 - Nat.log2 x.toNat

/-- The number whose bit i is bit `w - 1 - i` of `x` (spec 08 R153). -/
def bitReverse {w : Nat} (x : BitVec w) : BitVec w :=
  BitVec.ofNat w ((List.range w).foldl (fun n i => if x.getLsbD i then n + 2 ^ (w - 1 - i) else n) 0)

/-- The bits of `x` from `lo`, `len` of them, as a number. -/
def bitsOf (x lo len : Nat) : Nat := (x / 2 ^ lo) % 2 ^ len

/-- A number with the bits from `lo`, `len` of them, replaced by those of `v`. -/
def setBits (x lo len v : Nat) : Nat :=
  x - (bitsOf x lo len) * 2 ^ lo + (v % 2 ^ len) * 2 ^ lo

/-- The little-endian number of bytes (spec 00 R4). -/
def leNat : List Byte → Nat
  | [] => 0
  | b :: bs => b.toNat + 256 * leNat bs

/-- The `n` bytes of a number, least significant first. -/
def leBytes : Nat → Nat → List Byte
  | 0, _ => []
  | n + 1, v => BitVec.ofNat 8 v :: leBytes n (v / 256)

/-- A little-endian field of a structure held as bytes. -/
def fieldAt (bs : List Byte) (off len : Nat) : Nat := leNat ((bs.drop off).take len)

/-- The bytes with those from `off` on replaced by `v`. -/
def putBytes (bs : List Byte) (off : Nat) (v : List Byte) : List Byte :=
  bs.take off ++ v ++ bs.drop (off + v.length)

/-- Rounded-up division. -/
def ceilDiv (a b : Nat) : Nat := (a + b - 1) / b

/-- The bits of a mask of lanes, lowest first. -/
def maskLanes (m : LaneMask) : List Nat := (List.range 32).filter fun l => m.getLsbD l

/-- The mask of the lanes for which `f` holds. -/
def laneMask (f : Nat → Bool) : LaneMask :=
  BitVec.ofNat 32 ((List.range 32).foldl (fun n l => if f l then n + 2 ^ l else n) 0)

/-- Insert into a list kept in ascending order of a key. -/
def insertBy {α : Type} (lt : α → α → Bool) (x : α) : List α → List α
  | [] => [x]
  | y :: ys => if lt y x then y :: insertBy lt x ys else x :: y :: ys

/-- Stable insertion sort. -/
def sortBy {α : Type} (lt : α → α → Bool) (xs : List α) : List α :=
  xs.foldl (fun acc x => insertAfter lt x acc) []
where
  /-- Insert after every entry that `x` does not precede. -/
  insertAfter (lt : α → α → Bool) (x : α) : List α → List α
    | [] => [x]
    | y :: ys => if lt x y then x :: y :: ys else y :: insertAfter lt x ys

/-- PG64 (spec 04 R80). -/
def pg64 (s x : W64) : W64 :=
  let z := s + (x + 1) * 0x9E3779B97F4A7C15
  let z := (z ^^^ (z >>> 32)) * 0xC3A59E174B2D6F71
  let z := (z ^^^ (z >>> 29)) * 0xA3B195C42E6D0F8B
  let z := (z ^^^ (z >>> 32)) * 0xE4C73A9158F62D35
  let z := (z ^^^ (z >>> 31)) * 0x8F1BC35D9A2764E7
  z ^^^ (z >>> 30)

/-- The random word of stochastic rounding (spec 02 R49): seed, salt and element index. -/
def drawWord (seed : W64) (salt : W16) (e : Nat) : W32 :=
  (pg64 seed (BitVec.ofNat 64 (salt.toNat * 2 ^ 48 + e))).extractLsb' 0 32

end Sys2Proof.Machine
end

