-- ==== Sys2Proof/Machine/Fp.lean ====
section
/-! DEFINITION. Floating-point formats, values, NaNs and Round (spec 02). -/

namespace Sys2Proof.Machine

/-! ## Flags as five bits: IV DZ OF UF NX (spec 02 Table 2-6) -/

abbrev FlagBits := BitVec 5
def flIV : FlagBits := 16
def flDZ : FlagBits := 8
def flOF : FlagBits := 4
def flUF : FlagBits := 2
def flNX : FlagBits := 1

/-! ## Formats (spec 02 Tables 2-1 and 2-2) -/

/-- What the all-ones exponent means: infinities and NaNs, the E4M3 rule (only F all ones is NaN), or nothing. -/
inductive Special where
  | ieee | e4m3 | none
  deriving DecidableEq, Repr

/-- A floating-point format: exponent and fraction widths, bias, special encodings. -/
structure Fmt where
  eb   : Nat
  fb   : Nat
  bias : Nat
  sp   : Special
  deriving DecidableEq, Repr

def fmt64 : Fmt := ⟨11, 52, 1023, .ieee⟩
def fmt32 : Fmt := ⟨8, 23, 127, .ieee⟩
def fmt16 : Fmt := ⟨5, 10, 15, .ieee⟩
def fmtBf : Fmt := ⟨8, 7, 127, .ieee⟩
def fmtE4m3 : Fmt := ⟨4, 3, 7, .e4m3⟩
def fmtE5m2 : Fmt := ⟨5, 2, 15, .ieee⟩
def fmtE2m1 : Fmt := ⟨2, 1, 1, .none⟩
def fmtE2m3 : Fmt := ⟨2, 3, 1, .none⟩
def fmtE3m2 : Fmt := ⟨3, 2, 3, .none⟩
def fmtAcc : Fmt := ⟨8, 31, 127, .ieee⟩

/-- The width of a format in bits. -/
def Fmt.width (f : Fmt) : Nat := 1 + f.eb + f.fb
/-- The exponent of the smallest normal. -/
def Fmt.emin (f : Fmt) : Int := 1 - (f.bias : Int)
/-- The largest biased exponent of a finite number. -/
def Fmt.topExp (f : Fmt) : Nat := match f.sp with
  | .ieee => 2 ^ f.eb - 2
  | _ => 2 ^ f.eb - 1
/-- emax: the exponent of the largest finite value. -/
def Fmt.emax (f : Fmt) : Int := (f.topExp : Int) - (f.bias : Int)
/-- The code of the largest finite value, positive. -/
def Fmt.maxCode (f : Fmt) : Nat := match f.sp with
  | .e4m3 => f.topExp * 2 ^ f.fb + (2 ^ f.fb - 2)
  | _ => f.topExp * 2 ^ f.fb + (2 ^ f.fb - 1)
/-- The code of +∞ (used for formats that have one). -/
def Fmt.infCode (f : Fmt) : Nat := (2 ^ f.eb - 1) * 2 ^ f.fb
/-- The sign bit's weight. -/
def Fmt.signBit (f : Fmt) : Nat := 2 ^ (f.eb + f.fb)
/-- Whether the format has infinities. -/
def Fmt.hasInf (f : Fmt) : Bool := f.sp == .ieee

/-- A code with a sign. -/
def Fmt.signed (f : Fmt) (neg : Bool) (code : Nat) : Nat := if neg then f.signBit + code else code

/-- A value read from a format: a NaN (whether signalling, and its fraction bits), an infinity, or ±m·2^e. -/
inductive FVal where
  | nan (sig : Bool) (frac : Nat)
  | inf (neg : Bool)
  | fin (neg : Bool) (m : Nat) (e : Int)
  deriving DecidableEq, Repr

/-- The value of a code (spec 02 R39, R40, Table 2-2). -/
def Fmt.value (f : Fmt) (c : Nat) : FVal :=
  let neg := bitsOf c (f.eb + f.fb) 1 == 1
  let e := bitsOf c f.fb f.eb
  let frac := bitsOf c 0 f.fb
  let top := e == 2 ^ f.eb - 1
  if f.sp == .ieee && top then
    (if frac == 0 then .inf neg else .nan (bitsOf frac (f.fb - 1) 1 == 0) frac)
  else if f.sp == .e4m3 && top && frac == 2 ^ f.fb - 1 then .nan false frac
  else if e == 0 then .fin neg frac (f.emin - f.fb)
  else .fin neg (2 ^ f.fb + frac) ((e : Int) - f.bias - f.fb)

/-- Whether a value is a NaN. -/
def FVal.isNan : FVal → Bool
  | .nan _ _ => true
  | _ => false
/-- Whether a value is a signalling NaN. -/
def FVal.isSig : FVal → Bool
  | .nan s _ => s
  | _ => false
/-- Whether a value is an infinity. -/
def FVal.isInf : FVal → Bool
  | .inf _ => true
  | _ => false
/-- Whether a value is a zero. -/
def FVal.isZero : FVal → Bool
  | .fin _ m _ => m == 0
  | _ => false
/-- The sign of a number (a NaN counts as positive). -/
def FVal.neg : FVal → Bool
  | .nan _ _ => false
  | .inf n => n
  | .fin n _ _ => n

/-! ## Exact values -/

/-- An exact non-negative real m·2^e, or strictly between m·2^e and (m+1)·2^e when `more`, with a sign. -/
structure Exact where
  neg  : Bool
  m    : Nat
  e    : Int
  more : Bool := false
  deriving DecidableEq, Repr

/-- The larger of two exponents as a shift from the other. -/
def shiftTo (m : Nat) (e lo : Int) : Nat := m * 2 ^ (e - lo).toNat

/-- The sum of two finite numbers as a signed integer at the lower exponent. -/
def addFin (n1 : Bool) (m1 : Nat) (e1 : Int) (n2 : Bool) (m2 : Nat) (e2 : Int) : Int × Int :=
  let lo := min e1 e2
  let x := (shiftTo m1 e1 lo : Int)
  let y := (shiftTo m2 e2 lo : Int)
  ((if n1 then -x else x) + (if n2 then -y else y), lo)

/-! ## Generated NaNs (spec 02 R54) -/

/-- The fraction of a generated NaN of a format with a payload, by cause and origin peer (Table 2-8). -/
def genFrac (f : Fmt) (cause peer : Nat) : Nat :=
  let quiet := 2 ^ (f.fb - 1)
  if decide (f.fb < 4) then quiet
  else
    let c := cause * 2 ^ (f.fb - 4)
    let room := f.fb - 4
    if decide (12 ≤ room) then quiet + c + peer * 2 ^ (room - 12)
    else quiet + c + peer / 2 ^ (12 - room)

/-- The code of a NaN with a fraction: positive, quiet; 0x7F in E4M3; 0 where the format has no NaN. -/
def Fmt.nanCode (f : Fmt) (frac : Nat) : Nat := match f.sp with
  | .ieee => f.infCode + (if frac / 2 ^ (f.fb - 1) % 2 == 1 then frac else frac + 2 ^ (f.fb - 1))
  | .e4m3 => 2 ^ (f.eb + f.fb) - 1
  | .none => 0

/-- The code of a generated NaN (spec 02 R54). -/
def genNan (f : Fmt) (cause peer : Nat) : Nat := f.nanCode (genFrac f cause peer)

/-- The fraction of a NaN of format `g` converted into format `f` (spec 02 R55); E4M3 and E5M2 sources become a
generated NaN with cause 1. -/
def convFrac (g f : Fmt) (frac peer : Nat) : Nat :=
  if decide (g.fb < 4) then genFrac f 1 peer
  else if decide (f.fb < 4) then 2 ^ (f.fb - 1)
  else
    let x := if decide (f.fb ≤ g.fb) then frac / 2 ^ (g.fb - f.fb) else frac * 2 ^ (f.fb - g.fb)
    if x / 2 ^ (f.fb - 1) % 2 == 1 then x else x + 2 ^ (f.fb - 1)

/-- The payload of a NaN fraction: the bits below the quiet bit (spec 02 R56). -/
def nanPayload (f : Fmt) (frac : Nat) : Nat := frac % 2 ^ (f.fb - 1)

/-- The NaN with the smallest payload among fractions of format `f` (spec 02 R56), as a code. -/
def pickNan (f : Fmt) (fracs : List Nat) : Nat :=
  match fracs.map (nanPayload f) with
  | [] => f.nanCode 0
  | p :: ps => f.nanCode (2 ^ (f.fb - 1) + ps.foldl min p)

/-- The fractions of the NaNs among values. -/
def nanFracs (vs : List FVal) : List Nat :=
  vs.filterMap fun v => match v with
    | .nan _ fr => some fr
    | _ => none

/-! ## Round (spec 02 R46-R49) -/

/-- The modes of Table 2-4 with the random word that stochastic rounding draws. -/
inductive RMode where
  | rne | rz | rd | ru
  | rs (r : W32)
  deriving DecidableEq, Repr

/-- The mode of a code of Table 2-4 (5 to 7 never reach an instruction); `r` is the word drawn under R49. -/
def rmodeOf (code : Nat) (r : W32) : RMode :=
  match code with
  | 0 => .rne
  | 1 => .rz
  | 2 => .rd
  | 3 => .ru
  | _ => .rs r

/-- Whether the neighbour of larger magnitude is chosen for `(a + rem/den)` units, where `0 < rem/den < 1` with `rem`
standing for a little more when `more`; `odd` is the parity of `a`. -/
def roundsAway (mode : RMode) (neg odd : Bool) (rem den : Nat) (more : Bool) : Bool :=
  match mode with
  | .rne =>
    let t := 2 * rem
    decide (den < t) || (t == den && (more || odd))
  | .rz => false
  | .rd => neg
  | .ru => !neg
  | .rs r => decide (r.toNat < rem * 2 ^ 32 / den)

/-- An exact value on the grid of multiples of 2^q: the multiple chosen, and whether it is inexact. -/
def roundGrid (mode : RMode) (x : Exact) (q : Int) : Nat × Bool :=
  if decide (q ≤ x.e) then
    let a := shiftTo x.m x.e q
    if x.more then ((if roundsAway mode x.neg (a % 2 == 1) 0 1 true then a + 1 else a), true)
    else (a, false)
  else
    let den := 2 ^ (q - x.e).toNat
    let a := x.m / den
    let rem := x.m % den
    if rem == 0 && !x.more then (a, false)
    else ((if roundsAway mode x.neg (a % 2 == 1) rem den x.more then a + 1 else a), true)

/-- The result of overflow (spec 02 Table 2-5), for a magnitude above the largest finite value; `big` when it is at
least 2^(emax+1); `up` when rounding chose the neighbour of larger magnitude. -/
def overflowCode (f : Fmt) (mode : RMode) (neg big up : Bool) : Nat :=
  if !f.hasInf then f.signed neg f.maxCode
  else
    let toInf := match mode with
      | .rne => true
      | .rz => false
      | .rd => neg
      | .ru => !neg
      | .rs _ => big || up
    f.signed neg (if toInf then f.infCode else f.maxCode)

/-- Round of an exact value (spec 02 R46-R48): code and flags. (DEDUCED, log 30.) -/
def Fmt.round (f : Fmt) (mode : RMode) (x : Exact) : Nat × FlagBits :=
  if x.m == 0 && !x.more then (f.signed x.neg 0, 0)
  else
    let ex : Int := (Nat.log2 x.m : Int) + x.e
    let q : Int := max ex f.emin - f.fb
    let (v, inexact) := roundGrid mode x q
    -- the largest finite value in units of 2^q, when q is at or below its own unit
    let maxq : Int := f.emax - f.fb
    let maxM := match f.sp with
      | .e4m3 => 2 ^ (f.fb + 1) - 2
      | _ => 2 ^ (f.fb + 1) - 1
    let big := decide (f.emax < ex)
    let ovf := big || (q == maxq &&
      (match mode with
        | .rne => decide (maxM < v)
        | _ => decide (maxM < v) ||
          (let a := (roundGrid .rz x q).1
           decide (maxM < a) || (a == maxM && inexact))))
    if ovf then (overflowCode f mode x.neg big (decide (maxM < v)), flOF ||| flNX)
    else if !inexact then (f.signed x.neg ((((q + f.fb + f.bias - 1) : Int).toNat) * 2 ^ f.fb + v), 0)
    else
      let tiny := decide (ex < f.emin) &&
        !(decide (ex + 1 = f.emin) && (roundGrid mode x (ex - f.fb)).1 == 2 ^ (f.fb + 1))
      (f.signed x.neg ((((q + f.fb + f.bias - 1) : Int).toNat) * 2 ^ f.fb + v),
        if tiny then flUF ||| flNX else flNX)

/-- Round of a signed integer times 2^e; `zneg` is the sign of an exact zero. -/
def Fmt.roundInt (f : Fmt) (mode : RMode) (n : Int) (e : Int) (zneg : Bool) : Nat × FlagBits :=
  f.round mode ⟨if n == 0 then zneg else decide (n < 0), n.natAbs, e, false⟩

/-- An infinity rounded into a format: itself, or the largest finite value with OF and NX (spec 02 R47). -/
def Fmt.roundInf (f : Fmt) (neg : Bool) : Nat × FlagBits :=
  if f.hasInf then (f.signed neg f.infCode, 0) else (f.signed neg f.maxCode, flOF ||| flNX)

end Sys2Proof.Machine
end

