-- ==== Sys2Proof/Machine/FpOps.lean ====
section
/-! DEFINITION. The floating-point operations: arithmetic, comparison, special functions, exact sums, conversions and block
formats (spec 02, 09). Every operation takes codes and gives a code with its flags. -/

namespace Sys2Proof.Machine

/-- The NaN result of an operation with the NaN operands among `vs`, and the flags (spec 02 R40, R56). -/
def nanResult (f : Fmt) (vs : List FVal) (extra : List Nat) (fl : FlagBits) : Nat × FlagBits :=
  (pickNan f (nanFracs vs ++ extra), fl ||| (if vs.any (·.isSig) then flIV else 0))

/-- A generated NaN that raises IV. -/
def invalid (f : Fmt) (cause peer : Nat) : Nat × FlagBits := (genNan f cause peer, flIV)

/-- The sign of an exact zero sum of two addends (spec 02 R57). -/
def zeroSign (mode : RMode) (n1 n2 : Bool) : Bool :=
  if n1 == n2 then n1 else match mode with
    | .rd => true
    | _ => false

/-- FADD on codes (spec 09 R176, Table 9-1). -/
def fpAdd (f : Fmt) (mode : RMode) (peer a b : Nat) : Nat × FlagBits :=
  let x := f.value a
  let y := f.value b
  if x.isNan || y.isNan then nanResult f [x, y] [] 0
  else match x, y with
    | .inf n1, .inf n2 => if n1 == n2 then (f.signed n1 f.infCode, 0) else invalid f 3 peer
    | .inf n, _ => (f.signed n f.infCode, 0)
    | _, .inf n => (f.signed n f.infCode, 0)
    | .fin n1 m1 e1, .fin n2 m2 e2 =>
      let (s, e) := addFin n1 m1 e1 n2 m2 e2
      f.roundInt mode s e (zeroSign mode n1 n2)
    | _, _ => (0, 0)

/-- The code with the sign of a number changed (a NaN is left as it stands). -/
def fpNeg (f : Fmt) (a : Nat) : Nat :=
  if (f.value a).isNan then a else if bitsOf a (f.eb + f.fb) 1 == 1 then a - f.signBit else a + f.signBit

/-- FSUB on codes. -/
def fpSub (f : Fmt) (mode : RMode) (peer a b : Nat) : Nat × FlagBits := fpAdd f mode peer a (fpNeg f b)

/-- A product of two values, rounded once; NaN fractions are those of format `f`. -/
def fpMulVal (f : Fmt) (mode : RMode) (peer : Nat) (x y : FVal) : Nat × FlagBits :=
  let n := x.neg != y.neg
  if x.isNan || y.isNan then nanResult f [x, y] [] 0
  else if (x.isInf && y.isZero) || (x.isZero && y.isInf) then invalid f 4 peer
  else if x.isInf || y.isInf then (f.signed n f.infCode, 0)
  else match x, y with
    | .fin _ m1 e1, .fin _ m2 e2 => f.round mode ⟨n, m1 * m2, e1 + e2, false⟩
    | _, _ => (0, 0)

/-- FMUL on codes. -/
def fpMul (f : Fmt) (mode : RMode) (peer a b : Nat) : Nat × FlagBits := fpMulVal f mode peer (f.value a) (f.value b)

/-- FFMA on codes: a × b + c, rounded once. -/
def fpFma (f : Fmt) (mode : RMode) (peer a b c : Nat) : Nat × FlagBits :=
  let x := f.value a
  let y := f.value b
  let z := f.value c
  let n := x.neg != y.neg
  let zeroInf := (x.isInf && y.isZero) || (x.isZero && y.isInf)
  if x.isNan || y.isNan then nanResult f [x, y, z] [] 0
  else if zeroInf then nanResult f [z] [genFrac f 4 peer] flIV
  else if z.isNan then nanResult f [z] [] 0
  else if x.isInf || y.isInf then
    (if z.isInf && z.neg != n then invalid f 3 peer else (f.signed n f.infCode, 0))
  else match x, y, z with
    | _, _, .inf nz => (f.signed nz f.infCode, 0)
    | .fin _ m1 e1, .fin _ m2 e2, .fin n3 m3 e3 =>
      let (s, e) := addFin n (m1 * m2) (e1 + e2) n3 m3 e3
      f.roundInt mode s e (zeroSign mode n n3)
    | _, _, _ => (0, 0)

/-- An exact quotient of two positive numbers to at least `p` bits. -/
def exactDiv (neg : Bool) (m1 : Nat) (e1 : Int) (m2 : Nat) (e2 : Int) (p : Nat) : Exact :=
  let k := p + Nat.log2 m2
  let n := m1 * 2 ^ k
  ⟨neg, n / m2, e1 - e2 - k, n % m2 != 0⟩

/-- FDIV on codes (spec 09 Table 9-1). -/
def fpDiv (f : Fmt) (mode : RMode) (peer a b : Nat) : Nat × FlagBits :=
  let x := f.value a
  let y := f.value b
  let n := x.neg != y.neg
  if x.isNan || y.isNan then nanResult f [x, y] [] 0
  else if (x.isInf && y.isInf) || (x.isZero && y.isZero) then invalid f 5 peer
  else if x.isInf then (f.signed n f.infCode, 0)
  else if y.isInf || x.isZero then (f.signed n 0, 0)
  else if y.isZero then (f.signed n f.infCode, flDZ)
  else match x, y with
    | .fin _ m1 e1, .fin _ m2 e2 => f.round mode (exactDiv n m1 e1 m2 e2 (f.fb + 72))
    | _, _ => (0, 0)

/-- The integer square root, bit by bit from bit `i - 1` down. -/
def isqrtBits (n : Nat) : Nat → Nat → Nat
  | 0, r => r
  | i + 1, r =>
    let t := r + 2 ^ i
    if decide (t * t ≤ n) then isqrtBits n i t else isqrtBits n i r

/-- The integer square root. -/
def isqrt (n : Nat) : Nat := isqrtBits n (Nat.log2 n / 2 + 1) 0

/-- The exact square root of m·2^e to at least `p` bits. -/
def exactSqrt (m : Nat) (e : Int) (p : Nat) : Exact :=
  let odd := e % 2 != 0
  let m1 := if odd then 2 * m else m
  let e1 := if odd then e - 1 else e
  let n := m1 * 2 ^ (2 * p)
  let r := isqrt n
  ⟨false, r, e1 / 2 - p, r * r != n⟩

/-- FSQRT on codes. -/
def fpSqrt (f : Fmt) (mode : RMode) (peer a : Nat) : Nat × FlagBits :=
  match f.value a with
  | .nan s fr => nanResult f [.nan s fr] [] 0
  | .inf n => if n then invalid f 5 peer else (f.infCode, 0)
  | .fin n m e =>
    if m == 0 then (f.signed n 0, 0)
    else if n then invalid f 5 peer
    else f.round mode (exactSqrt m e (f.fb + 40))

/-- The order of R179 as an integer: −∞ < negative < −0 < +0 < positive < +∞. -/
def fpOrder (f : Fmt) (a : Nat) : Int :=
  let mag := a % f.signBit
  if bitsOf a (f.eb + f.fb) 1 == 1 then -(mag : Int) - 1 else mag

/-- FMIN (`wantMax` false) and FMAX on codes (spec 09 R179). -/
def fpMinMax (f : Fmt) (wantMax : Bool) (a b : Nat) : Nat × FlagBits :=
  let x := f.value a
  let y := f.value b
  if x.isNan || y.isNan then nanResult f [x, y] [] 0
  else
    let less := decide (fpOrder f b < fpOrder f a)
    (if less != wantMax then b else a, 0)

/-- FRND on codes (spec 09 R180). -/
def fpRnd (f : Fmt) (mode : RMode) (a : Nat) : Nat × FlagBits :=
  match f.value a with
  | .nan s fr => nanResult f [.nan s fr] [] 0
  | .inf _ => (a, 0)
  | .fin n m e =>
    if m == 0 then (a, 0)
    else
      let (v, inexact) := roundGrid mode ⟨n, m, e, false⟩ 0
      if !inexact then (a, 0)
      else ((f.round .rne ⟨n, v, 0, false⟩).1, flNX)

/-- FCLASS on codes (spec 09 Table 9-3). -/
def fpClass (f : Fmt) (a : Nat) : W32 :=
  match f.value a with
  | .nan s _ => if s then 256 else 512
  | .inf n => if n then 1 else 128
  | .fin n m _ =>
    if m == 0 then (if n then 8 else 16)
    else if decide (m < 2 ^ f.fb) then (if n then 4 else 32)
    else (if n then 2 else 64)

/-- Whether a < b for two numbers that are not NaN, −0 and +0 being equal. -/
def fpLess (f : Fmt) (a b : Nat) : Bool :=
  let z := fun c => if (f.value c).isZero then 0 else c
  decide (fpOrder f (z a) < fpOrder f (z b))

/-- FCMP on codes: result and flags (spec 09 R182, Table 9-4). -/
def fpCompare (f : Fmt) (cond a b : Nat) : Bool × FlagBits :=
  let x := f.value a
  let y := f.value b
  let un := x.isNan || y.isNan
  let sig := x.isSig || y.isSig
  let lt := !un && fpLess f a b
  let gt := !un && fpLess f b a
  let eq := !un && !lt && !gt
  let quiet : FlagBits := if sig then flIV else 0
  let loud : FlagBits := if un then flIV else 0
  match cond with
  | 0 => (eq, quiet)
  | 1 => (!eq, quiet)
  | 2 => (lt, loud)
  | 3 => (lt || eq, loud)
  | 4 => (gt, loud)
  | 5 => (gt || eq, loud)
  | 6 => (un, quiet)
  | _ => (!un, quiet)

/-! ## Special functions (spec 09 R183) -/

/-- FRCP: 1/a. -/
def fpRcp (f : Fmt) (a : Nat) : Nat × FlagBits :=
  match f.value a with
  | .nan s fr => nanResult f [.nan s fr] [] 0
  | .inf n => (f.signed n 0, 0)
  | .fin n m e =>
    if m == 0 then (f.signed n f.infCode, flDZ)
    else f.round .rne (exactDiv n 1 0 m e (f.fb + 72))

/-- FRSQ: 1/√a. -/
def fpRsq (f : Fmt) (peer a : Nat) : Nat × FlagBits :=
  match f.value a with
  | .nan s fr => nanResult f [.nan s fr] [] 0
  | .inf n => if n then invalid f 5 peer else (0, 0)
  | .fin n m e =>
    if m == 0 then (f.signed n f.infCode, flDZ)
    else if n then invalid f 5 peer
    else
      -- 1/√(m·2^e) = √(2^(2p) / m') · 2^(-e'/2 - p) with e' even
      let odd := e % 2 != 0
      let m1 := if odd then 2 * m else m
      let e1 := if odd then e - 1 else e
      let p := f.fb + 40 + Nat.log2 m1
      let num := 2 ^ (2 * p)
      let r := isqrt (num / m1)
      f.round .rne ⟨false, r, -(e1 / 2) - p, r * r * m1 != num⟩

/-- ln 2 · 2^400, rounded down. -/
def ln2Fix : Nat :=
  0xb17217f7d1cf79abc9e3b39803f2f6af40f343267298b62d8a0d175b8baafa2be7b876206debac98559552fb4afa1b10ed2e
/-- (π/2) · 2^600, rounded down. -/
def halfPiFix : Nat :=
  0x1921fb54442d18469898cc51701b839a252049c1114cf98e804177d4c76273644a29410f31c6809bbdf2a33679a748636605614dbe4be286e9fc26adadaa3848bc90b6aecc4bcfd8de89885

/-- The working precision of the series below, in bits. -/
def fixBits : Nat := 200

/-- Σ t^k / k! from term `k` on, in fixed point. -/
def expSeries (t : Nat) : Nat → Nat → Nat → Nat → Nat
  | 0, _, _, acc => acc
  | fuel + 1, k, term, acc =>
    let term' := term * t / 2 ^ fixBits / (k + 1)
    expSeries t fuel (k + 1) term' (acc + term')

/-- The alternating series of sine or cosine, in fixed point: terms step by two factors. -/
def trigSeries (t2 : Nat) : Nat → Nat → Int → Int → Int
  | 0, _, _, acc => acc
  | fuel + 1, k, term, acc =>
    let term' := -(term * t2 / 2 ^ fixBits / ((k + 1) * (k + 2)))
    trigSeries t2 fuel (k + 2) term' (acc + term')

/-- A value a little below, or above, the exact m·2^e. -/
def nudge (neg : Bool) (m : Nat) (e : Int) (up : Bool) : Exact :=
  ⟨neg, if up then m * 2 ^ 200 else m * 2 ^ 200 - 1, e - 200, true⟩

/-- 2^a for a finite non-zero a = ±m·2^e, to the precision of the series. -/
def exactExp2 (neg : Bool) (m : Nat) (e : Int) : Exact :=
  let ex : Int := (Nat.log2 m : Int) + e
  if decide (12 < ex) then ⟨false, 1, if neg then -5000 else 5000, true⟩
  else if decide (ex < -60) then nudge false 1 0 (!neg)
  else
    -- a in fixed point is exact: e is at least -60 - 24
    let x : Nat := shiftTo m (e + fixBits) 0
    let one : Nat := 2 ^ fixBits
    let v : Int := if neg then -(x : Int) else x
    let n := v / (one : Int)
    let fr : Nat := (v % (one : Int)).toNat
    if fr == 0 then ⟨false, 1, n, false⟩
    else
      let t : Nat := fr * (ln2Fix / 2 ^ (400 - fixBits)) / one
      ⟨false, expSeries t 60 0 one one / 2 ^ 40, n - fixBits + 40, true⟩

/-- FEXP2. -/
def fpExp2 (a : Nat) : Nat × FlagBits :=
  match fmt32.value a with
  | .nan s fr => nanResult fmt32 [.nan s fr] [] 0
  | .inf n => (if n then 0 else fmt32.infCode, 0)
  | .fin n m e => if m == 0 then (fmt32.bias * 2 ^ 23, 0) else fmt32.round .rne (exactExp2 n m e)

/-- Bits of log2 of `x/2^fixBits` (in [1, 2)) by repeated squaring, most significant first. -/
def log2Bits : Nat → Nat → Nat → Nat
  | 0, _, acc => acc
  | fuel + 1, x, acc =>
    let y := x * x / 2 ^ 400
    if decide (2 ^ 401 ≤ y) then log2Bits fuel (y / 2) (2 * acc + 1) else log2Bits fuel y (2 * acc)

/-- FLOG2. -/
def fpLog2 (peer a : Nat) : Nat × FlagBits :=
  match fmt32.value a with
  | .nan s fr => nanResult fmt32 [.nan s fr] [] 0
  | .inf n => if n then invalid fmt32 5 peer else (fmt32.infCode, 0)
  | .fin n m e =>
    if m == 0 then (fmt32.signed true fmt32.infCode, flDZ)
    else if n then invalid fmt32 5 peer
    else
      let l := Nat.log2 m
      let ip : Int := (l : Int) + e
      if m == 2 ^ l then fmt32.roundInt .rne ip 0 false
      else
        let fr := log2Bits 160 (m * 2 ^ (400 - l)) 0
        -- log2 a = ip + fr / 2^160, and a little more
        let v : Int := ip * 2 ^ 160 + fr
        if decide (v < 0) then fmt32.round .rne ⟨true, (-v - 1).toNat, -160, true⟩
        else fmt32.round .rne ⟨false, v.toNat, -160, true⟩

/-- Sine (`cos` false) or cosine of a finite non-zero number with magnitude m·2^e. -/
def exactTrig (cos neg : Bool) (m : Nat) (e : Int) : Exact :=
  let ex : Int := (Nat.log2 m : Int) + e
  if decide (ex < -60) then (if cos then nudge false 1 0 false else nudge neg m e false)
  else
    let x := shiftTo m (e + 600) 0
    let k := x / halfPiFix
    let r := (x - k * halfPiFix) / 2 ^ (600 - fixBits)
    let t2 := r * r / 2 ^ fixBits
    let one : Int := 2 ^ fixBits
    let quad := k % 4
    let useCos := (quad % 2 == 1) != cos
    let v := if useCos then trigSeries t2 40 0 one one else trigSeries t2 40 1 (r : Int) (r : Int)
    let flip := if cos then (quad == 1 || quad == 2) else ((quad == 2 || quad == 3) != neg)
    let w := if flip then -v else v
    ⟨decide (w < 0), w.natAbs / 2 ^ 20, 20 - (fixBits : Int), true⟩

/-- FSIN and FCOS. -/
def fpTrig (cos : Bool) (peer a : Nat) : Nat × FlagBits :=
  match fmt32.value a with
  | .nan s fr => nanResult fmt32 [.nan s fr] [] 0
  | .inf _ => invalid fmt32 5 peer
  | .fin n m e =>
    if m == 0 then (if cos then (fmt32.bias * 2 ^ 23, 0) else (a, 0))
    else fmt32.round .rne (exactTrig cos n m e)

/-! ## Exact sums (spec 02 R56, R57, 09 R191) -/

/-- The exact sum of finite values as an integer at the lowest exponent. -/
def sumFin (vs : List FVal) : Int × Int :=
  vs.foldl (fun acc v =>
    match v with
    | .fin n m e =>
      let lo := min acc.2 e
      let x := acc.1 * 2 ^ (acc.2 - lo).toNat
      let y := (m * 2 ^ (e - lo).toNat : Nat)
      (if n then x - y else x + y, lo)
    | _ => acc) (0, 0)

/-- A zero result of a sum: −0 only when every term is −0 (spec 02 R57); any other result stands. -/
def plusZero (f : Fmt) (allNeg : Bool) (r : Nat × FlagBits) : Nat × FlagBits :=
  if r.1 == f.signBit && !allNeg then (0, r.2) else r

/-- One rounding of the exact sum of values (spec 09 R191): NaNs by R56, both infinities a NaN of cause 3, a zero by R57.
`vs` holds values of format `f`'s kind (any format), `fracs` their NaN fractions already in `f`. -/
def roundSum (f : Fmt) (mode : RMode) (peer : Nat) (vs : List FVal) (fracs : List Nat) : Nat × FlagBits :=
  let pinf := vs.any fun v => v == .inf false
  let ninf := vs.any fun v => v == .inf true
  let sig := vs.any (·.isSig)
  let both := pinf && ninf
  let fl : FlagBits := if sig || both then flIV else 0
  if !fracs.isEmpty || both then
    (pickNan f (fracs ++ if both then [genFrac f 3 peer] else []), fl)
  else if pinf then f.roundInf false
  else if ninf then f.roundInf true
  else
    let (s, e) := sumFin vs
    let allNeg := !vs.isEmpty && vs.all fun v => match v with
      | .fin n m _ => n && m == 0
      | _ => false
    plusZero f allNeg (f.roundInt mode s e allNeg)

/-- The sum of codes of one format, rounded once. -/
def fpSum (f : Fmt) (peer : Nat) (cs : List Nat) : Nat × FlagBits :=
  let vs := cs.map f.value
  roundSum f .rne peer vs (nanFracs vs)

/-- The fold of FMIN or FMAX over codes; `none` for an empty list. -/
def fpMinMaxFold (f : Fmt) (wantMax : Bool) (cs : List Nat) : Option (Nat × FlagBits) :=
  let vs := cs.map f.value
  match cs with
  | [] => none
  | c :: rest =>
    if vs.any (·.isNan) then some (nanResult f vs [] 0)
    else some (rest.foldl (fun acc x => (fpMinMax f wantMax acc x).1) c, 0)

/-! ## Conversions (spec 02 R64) -/

/-- The float format of a type code of Table 5-7. -/
def fmtOfType : Nat → Fmt
  | 8 => fmt64 | 9 => fmt32 | 10 => fmt16 | 11 => fmtBf | 12 => fmtE4m3 | 13 => fmtE5m2 | _ => fmtE2m1

/-- A float code converted into another float format (spec 02 R55, R64). -/
def fpConvert (g f : Fmt) (mode : RMode) (peer a : Nat) : Nat × FlagBits :=
  match g.value a with
  | .nan s fr =>
    if f.sp == .none then (0, flIV)
    else (f.nanCode (convFrac g f fr peer), if s then flIV else 0)
  | .inf n => f.roundInf n
  | .fin n m e => f.round mode ⟨n, m, e, false⟩

/-- An integer clamped to `[lo, hi]`. -/
def clampInt (lo hi x : Int) : Int := if decide (x < lo) then lo else if decide (hi < x) then hi else x

/-- A float code converted to an integer in `[lo, hi]` (spec 02 R64). -/
def fpToInt (g : Fmt) (mode : RMode) (lo hi : Int) (a : Nat) : Int × FlagBits :=
  match g.value a with
  | .nan _ _ => (0, flIV)
  | .inf n => (if n then lo else hi, flIV)
  | .fin n m e =>
    let (v, inexact) := roundGrid mode ⟨n, m, e, false⟩ 0
    let x : Int := if n then -(v : Int) else v
    if decide (x < lo) || decide (hi < x) then (clampInt lo hi x, flIV)
    else (x, if inexact then flNX else 0)

/-- The range of an integer type code of Table 5-7. -/
def intRange (t : Nat) : Int × Int :=
  let w := match t % 4 with
    | 0 => 8 | 1 => 16 | 2 => 32 | _ => 64
  if decide (t < 4) then (-(2 ^ (w - 1) : Int), 2 ^ (w - 1) - 1) else (0, 2 ^ w - 1)

/-- CVT from type code `src` to type code `dst`: result bits at the target's width and flags (spec 02 R64, 09 R184). -/
def convert (dst src : Nat) (mode : RMode) (peer a : Nat) : Nat × FlagBits :=
  let sw : Nat := match src with
    | 0 => 8 | 1 => 16 | 2 => 32 | 3 => 64 | 4 => 8 | 5 => 16 | 6 => 32 | 7 => 64
    | 8 => 64 | 9 => 32 | 10 => 16 | 11 => 16 | 12 => 8 | 13 => 8 | _ => 4
  let dw : Nat := match dst with
    | 0 => 8 | 1 => 16 | 2 => 32 | 3 => 64 | 4 => 8 | 5 => 16 | 6 => 32 | 7 => 64
    | 8 => 64 | 9 => 32 | 10 => 16 | 11 => 16 | 12 => 8 | 13 => 8 | _ => 4
  let x : Nat := a % 2 ^ sw
  let srcF := decide (8 ≤ src)
  let dstF := decide (8 ≤ dst)
  let xi : Int := if decide (src < 4) && decide (2 ^ (sw - 1) ≤ x) then (x : Int) - 2 ^ sw else x
  if srcF && dstF then fpConvert (fmtOfType src) (fmtOfType dst) mode peer x
  else if srcF then
    let (lo, hi) := intRange dst
    let (v, fl) := fpToInt (fmtOfType src) mode lo hi x
    ((v % (2 ^ dw : Int)).toNat, fl)
  else if dstF then (fmtOfType dst).roundInt mode xi 0 false
  else
    let (lo, hi) := intRange dst
    if decide (sw < dw) then ((xi % (2 ^ dw : Int)).toNat, 0)
    else
      let v := clampInt lo hi xi
      ((v % (2 ^ dw : Int)).toNat, if v == xi then 0 else flOF)

/-! ## Block formats (spec 02 R42-R45) -/

/-- An element of a block format as a value: element code, scale code and format (spec 02 R42, R43). The NaN fraction is that of
format `f`; a signalling element of a block with a finite scale is read as signalling (R40). (DEDUCED, log 31.) -/
def mxValue (ef f : Fmt) (peer elem scale : Nat) : FVal :=
  if scale == 255 then .nan false (genFrac f 2 peer)
  else match ef.value elem with
    | .nan sg _ => .nan sg (genFrac f 1 peer)
    | .inf n => .inf n
    | .fin n m e => .fin n m (e + scale - 127)

/-- The scale of a block of values and whether step 1 or 2 of R44 made the block a NaN block: with IV for step 2, and for a
signalling NaN among the values (R40). -/
def mxScale (ef : Fmt) (vs : List FVal) : Nat × Bool × FlagBits :=
  if vs.any (·.isNan) then (255, true, if vs.any (·.isSig) then flIV else 0)
  else if vs.any (·.isInf) && !ef.hasInf then (255, true, flIV)
  else
    let top := vs.foldl (fun (best : Option Int) v =>
      match v with
      | .fin _ m e => if m == 0 then best else
          let x : Int := (Nat.log2 m : Int) + e
          match best with
          | none => some x
          | some b => some (max b x)
      | _ => best) none
    match top with
    | none => (0, false, 0)
    | some t => ((clampInt (-127) 127 (t - ef.emax) + 127).toNat, false, 0)

/-- One element written into a block with scale code `scale` (spec 02 R44 step 4). -/
def mxElement (ef : Fmt) (mode : RMode) (scale : Nat) (nanBlock : Bool) (v : FVal) : Nat × FlagBits :=
  if nanBlock then (0, 0)
  else match v with
    | .fin n m e =>
      let (c, fl) := ef.round mode ⟨n, m, e - ((scale : Int) - 127), false⟩
      if fl &&& flOF != 0 then (ef.signed n ef.maxCode, flNX) else (c, fl)
    | .inf n => (ef.signed n ef.infCode, 0)
    | .nan _ _ => (0, 0)

/-- EXPAND of one element: the code of format `f` with the same value (spec 02 R45). -/
def expandElem (g f : Fmt) (a : Nat) : Nat :=
  match g.value a with
  | .fin n m e => (f.round .rne ⟨n, m, e, false⟩).1
  | _ => 0

end Sys2Proof.Machine
end

