-- ==== Sys2Proof/Machine/State.lean ====
section
/-! DEFINITION. The state of the Glasia G9: every piece of state the manual gives the device, as plain data, and the
device right after reset. -/

namespace Sys2Proof.Machine

/-- Why a step stops. Each fault says who raises it and whether that is safe. -/
inductive Fault where
  /-- Raised by the meaning of an encoded instruction performed with no instance at issue (`State.cur` is none): an
  instruction runs only as an instance of a PC-set (spec 07 R127). Safe. -/
  | noInstance
  deriving DecidableEq, Repr

/-- Why an instruction has no meaning. -/
inductive Refusal where
  /-- Raised by an arm of `exec` alone, for an instruction not modelled yet. Safe: the machine stops. -/
  | notModelled (mnemonic : String)
  deriving DecidableEq, Repr

/-! ## Translations (spec 10 R206-R212) -/

/-- A leaf found by a walk: virtual base, log2 of the page size, fabric physical base and attributes (spec 10 Table 10-4). -/
structure Leaf where
  vbase : Nat
  log2  : Nat
  pbase : Nat
  rd    : Bool
  w     : Bool
  x     : Bool
  mem   : Bool
  migr  : Bool
  hold  : Bool
  deriving DecidableEq, Repr

/-- An entry of a core TLB, tagged by context (spec 10 R209, 20 R415). -/
structure TlbEntry where
  core : Nat
  ctx  : Nat
  leaf : Leaf
  deriving DecidableEq, Repr

/-! ## Lanes (spec 07 Table 7-1) -/

/-- What keeps a lane from issuing (spec 07 R127). -/
inductive LaneStatus where
  | run
  | exited
  | parked (id : Nat)
  | rejoin (j : Nat)
  | barrier (cluster : Bool) (n : Nat) (since : Nat)
  | boWait (off : Nat) (since : Nat)
  | eret
  | yielding (n : Nat)
  deriving DecidableEq, Repr

/-- One lane of a group. `resume` is the offset after the word at which the lane waits; `age` is the counter of R129;
`bad` holds pages found unresolvable for the lane (spec 10 R211); `stall` marks a wait at issue (spec 19 R387); `waitFor`
keeps what an MWAIT, or with true an AMAXRD.sync, waits for (spec 14 R295, R300); `tries` counts the unsuccessful attempts of a version-checked
read (spec 01 R35, 11 R231); `savedBad` keeps `bad` while the lane runs its handler; `sickK`, `sickQ` mark registers and queue slots with an
uncorrectable error that no instruction has met (spec 21 R421), `savedSick` those of the queue saved for a handler; `segFail` is the reason for which a replay
that the lane waited on has failed, and the segment's name (spec 03 R77, 15 R324). -/
structure Lane where
  pc       : W32 := 0
  q        : List W64 := List.replicate 16 0
  k        : List W32 := List.replicate 32 0
  p        : BitVec 8 := 1
  status   : LaneStatus := .run
  helper   : Bool := false
  age      : Nat := 0
  resume   : W32 := 0
  epc      : W32 := 0
  savedQ   : List W64 := List.replicate 16 0
  lastPage : Option Leaf := none
  bad      : List Nat := []
  stall    : Option Nat := none
  waitFor  : Option (Bool × List (Nat × Nat × Nat)) := none
  tries    : Nat := 0
  savedBad : List Nat := []
  segFail  : Option (Nat × Nat) := none
  sickK    : W32 := 0
  sickQ    : W16 := 0
  savedSick : W16 := 0
  pixX     : W32 := 0
  pixY     : W32 := 0
  deriving DecidableEq, Repr

/-- What one lane receives from an instruction: pushes in order, named registers, a predicate, flags. -/
structure LaneOut where
  pushes : List W64 := []
  named  : List (Nat × W32) := []
  pred   : Option (Nat × Bool) := none
  flags  : BitVec 5 := 0
  deriving DecidableEq, Repr

/-- A parked sub-group (`tiles`: (team, tile, operations to end) for MWAIT and AMAXRD.sync, spec 14 R295, R300): the pages it still waits for, the pages found unresolvable, the absent scratchpad lines (team,
line) and the FIFO banks, one of which must serve it (spec 10 R201, R203, R211), and the replayed segments with the streams that wait for them (spec 15 R324). -/
structure Park where
  id    : Nat
  pages : List Nat := []
  bad   : List Nat := []
  lines : List (Nat × Nat) := []
  fifo  : List Nat := []
  segs  : List (Nat × Nat) := []
  tiles : List (Nat × Nat × Nat) := []
  deriving DecidableEq, Repr

/-- A prefetch token slot (spec 10 R216). -/
structure Token where
  gen     : BitVec 27 := 0
  busy    : Bool := false
  skipped : W32 := 0
  deriving DecidableEq, Repr

/-- A pending asynchronous cause (spec 20 R402). -/
structure AsyncCause where
  reason : BitVec 6 := 0
  aux    : BitVec 20 := 0
  d1     : W32 := 0
  d2     : W32 := 0
  deriving DecidableEq, Repr

/-- The pixel block of a pixel group: its primitive and place, the covered lanes, the input bytes of its lanes, and the
primitive's nine words (spec 15 R304, R306, R308, R309). -/
structure PixelBlock where
  prim  : Nat
  bx    : Nat
  by_   : Nat
  cover : LaneMask := 0
  input : List Byte := []
  words : List W32 := []
  deriving DecidableEq, Repr

/-- One group of 32 lanes (spec 07 Table 7-1, 20 Table 20-1). -/
structure Group where
  lanes     : List Lane := List.replicate 32 {}
  s         : List W64 := List.replicate 32 0
  j         : List W64 := List.replicate 8 0
  jh        : List W64 := List.replicate 8 0
  flags     : W32 := 0
  trapCause : W32 := 0
  trapD0    : W32 := 0
  trapD1    : W32 := 0
  trapD2    : W32 := 0
  trapPc    : W64 := 0
  trapMask  : W32 := 0
  nextPc    : W32 := 0
  hmask     : W32 := 0
  parkMask  : W32 := 0
  waitMask  : W32 := 0
  trapCtl   : W32 := 0
  context   : W32 := 0
  savedFlags : BitVec 5 := 0
  pend20    : Option AsyncCause := none
  pend22    : Option AsyncCause := none
  tokens    : List Token := List.replicate 32 {}
  parks     : List Park := []
  sel       : List W32 := []
  resident  : Bool := true
  ended     : Bool := false
  pixel     : Option PixelBlock := none
  vgradDone : Bool := false
  deriving DecidableEq, Repr

/-! ## Teams (spec 01 R11, 04 R87) -/

/-- SRAM bank modes (spec 10 R199). -/
inductive BankMode where
  | cache | scratch | fifo | off
  deriving DecidableEq, Repr

/-- A bank allotted to a team: its number on the core, its mode, and the counters of FIFO mode (spec 10 R199, R201). -/
structure Bank where
  phys : Nat
  mode : BankMode
  tape : Bool := false
  head : Nat := 0
  tail : Nat := 0
  deriving DecidableEq, Repr

/-- What a matrix engine performs on a tile (spec 13 R266). -/
inductive OpKind where
  | mma | mzero | mload | mdrain | mupd
  deriving DecidableEq, Repr

/-- An accepted tile operation: its block (offset and the bytes read at acceptance), the metadata voted with it, its
progress and the pages it waits for, the form it leaves, its shape record, and the first block of an update with a failed
element; `sent` marks a block whose write is on its way to another package (spec 13 R266-R281). -/
structure TileOp where
  kind    : OpKind
  group   : Nat
  off     : Nat
  block   : List Byte
  fmtWord : W32 := 0
  metas   : List W32 := []
  started : Bool := false
  next    : Nat := 0
  stopped : Bool := false
  pages   : List Nat := []
  bad     : Bool := false
  form    : Bool := false
  shape   : List Byte := []
  firstBad : Option Nat := none
  sent     : Bool := false
  deriving DecidableEq, Repr

/-- A failure of a tile operation that no instruction has met yet (spec 13 R275). -/
structure TileFail where
  cause  : Nat
  reason : Nat
  aux1   : W32
  off    : W32
  deriving DecidableEq, Repr

/-- An accumulator tile: elements that differ from +0 as (64 i + j, bits), the form tag, the flag word, the accepted
operations in order, undelivered failures, how the last ended operation failed (cause, reason), the physical tile, and an
uncorrectable error in an element that no operation has met (spec 13 R265-R277, 04 R87, 21 R421). -/
structure Tile where
  engine : Nat := 0
  phys   : Nat := 0
  elems  : List (Nat × W40) := []
  int    : Bool := false
  flags  : BitVec 5 := 0
  ops    : List TileOp := []
  taken  : Nat := 0
  ended  : Nat := 0
  fails  : List TileFail := []
  lastFail : Option (Nat × Nat) := none
  sick   : Bool := false
  deriving DecidableEq, Repr

/-- Where a team stands between dispatch and end (spec 20 R406, R412, R415). -/
inductive TeamStatus where
  | running
  | vacated
  | switchedOut
  | ended
  | discarded
  deriving DecidableEq, Repr

/-- A dispatched team. Its SCRATCH bytes lie in `State.mem` under its serial number (its index in `State.teams`). -/
structure Team where
  grid     : Nat
  idx      : Nat
  core     : Nat
  epoch    : Nat := 0
  status   : TeamStatus := .running
  groups   : List Group := []
  banks    : List Bank := []
  absent   : List Nat := []
  tiles    : List Tile := []
  tapeDesc : W64 := 0
  tapeFail : List W64 := []
  deriving DecidableEq, Repr

/-! ## Launches (spec 01 R16, 03 R65) -/

/-- A kernel descriptor as the command processor read it (spec 01 Table 1-2). -/
structure Kernel where
  addr     : Nat := 0
  codeSize : Nat := 0
  entry    : Nat := 0
  trapOff  : W32 := 0xFFFFFFFF
  regs     : Nat := 8
  groups   : Nat := 1
  acc      : Nat := 0
  setSize  : Nat := 1
  tapeB    : Nat := 0
  scratch  : Nat := 0
  pixel    : Bool := false
  tape     : Bool := false
  codeBase : Nat := 0
  kid      : W64 := 0
  args     : W64 := 0
  deriving DecidableEq, Repr

/-- The progress of a launch (spec 03 R70, R71, 21 R416). -/
inductive GridStatus where
  | accepted
  | dispatching
  | complete
  deriving DecidableEq, Repr

/-- The first trap report of a grid (spec 20 R406, 21 Table 21-1). -/
structure TrapReport where
  team   : W32
  group  : Nat
  core   : Nat
  cause  : W32
  mask   : W32
  d0     : W32
  d1     : W32
  d2     : W32
  off    : W32
  deriving DecidableEq, Repr

/-- A re-key of a grid's placement (spec 04 R88, R89): the epoch, its first team and the allowed cores from there on. -/
structure Rekey where
  epoch   : Nat
  firstU  : Nat
  allowed : List Nat
  deriving DecidableEq, Repr

/-- What a launch is given: its packet's fields, the rungs' kernels, and where it came from (spec 03 R65; for the pixel
launch of a card, spec 15 R307). -/
structure LaunchPar where
  ctx       : Nat := 0
  queue     : Nat := 0
  order     : Nat := 0
  packet    : List Byte := []
  kernels   : List Kernel := []
  gx        : Nat := 1
  gy        : Nat := 1
  gz        : Nat := 1
  ltag      : W32 := 0
  deps      : List W32 := []
  seed      : W64 := 0
  te        : BitVec 5 := 0
  det       : Bool := false
  mapMode   : Bool := false
  prio      : Nat := 0
  deadline  : Option Nat := none
  dlTrap    : Bool := false
  release   : Option Nat := none
  compl     : Option Nat := none
  map       : List W16 := []
  allowed   : List Nat := []
  card      : Option Nat := none
  issuer    : Option Nat := none
  pioff     : Nat := 0
  replay    : Option Nat := none
  recorded  : Bool := false
  deriving DecidableEq, Repr

/-- The placement of a grid's teams: allowed cores, epoch, first team of the epoch, next team, the re-keys a replay
applies and the cores pre-emption removed (spec 04 R78, R82, R88, R89). -/
structure Placement where
  allowed : List Nat := []
  epoch   : Nat := 0
  firstU  : Nat := 0
  next    : Nat := 0
  rekeys  : List Rekey := []
  removed : List Nat := []
  deriving DecidableEq, Repr

/-- What a grid's completion record will report (spec 21 R416-R418). -/
structure GridReport where
  flags     : BitVec 5 := 0
  nerr      : Nat := 0
  errAddr   : W64 := 0
  errKind   : Nat := 0
  trap      : Option TrapReport := none
  status    : Nat := 0
  deriving DecidableEq, Repr

/-- A launch and its progress; `begunNo` is its place in the order in which launches began dispatch (spec 03 R70-R74, 20 R406,
21 R416). -/
structure Grid where
  par       : LaunchPar := {}
  status    : GridStatus := .accepted
  rung      : Nat := 0
  released  : Bool := false
  place     : Placement := {}
  began     : Nat := 0
  begunNo   : Option Nat := none
  firstDisp : Option Nat := none
  due       : Bool := false
  halted    : Bool := false
  preempted : Bool := false
  picked    : Bool := false
  copyAt    : Option Nat := none
  pixels    : List PixelBlock := []
  walked    : Bool := false
  report    : GridReport := {}
  deriving DecidableEq, Repr

/-- A slot that has been read and whose launch is neither accepted nor rejected yet: its bytes, its place in the order of reading,
whether its record's header has been written, and whether its record cannot be written (spec 03 R68, R70, 21 R417). -/
structure SlotRead where
  bytes  : List Byte
  order  : Nat := 0
  headed : Bool := false
  lost   : Bool := false
  deriving DecidableEq, Repr

/-- A launch queue's registers (spec 03 Table 3-5), the place of its next segment entry, the slot being read, and the slots that a
disabled queue has still to cancel (R69). -/
structure Queue where
  qbase   : W64 := 0
  qsize   : W32 := 0
  qctl    : W32 := 0
  qwrite  : W32 := 0
  qread   : W32 := 0
  qstat   : W32 := 0
  segbase : W64 := 0
  segsize : W32 := 0
  segPos  : Nat := 0
  slot    : Option SlotRead := none
  closing : Nat := 0
  deriving DecidableEq, Repr

/-- Bytes of a queue's segment buffer still to be written, for the entry at a place (spec 03 R76). -/
structure SegWrite where
  queue : Nat
  ctx   : Nat
  place : Nat
  addr  : Nat
  data  : List Byte
  deriving DecidableEq, Repr

/-- A duration estimate (spec 03 R72). The list of them is kept most recently used first. -/
structure Estimate where
  ctx  : Nat
  kid  : W64
  desc : Nat
  ns   : Nat
  deriving DecidableEq, Repr

/-- A recorded segment of a queue: its entries in order as (place in the ring counted from the first entry ever made, grid,
whether it is a re-key), whether the next checkpoint has closed it, whether it is released or overwritten, and its span count
(spec 03 R76, 15 R325). -/
structure Segment where
  queue    : Nat
  seg      : Nat
  items    : List (Nat × Nat × Bool) := []
  closed   : Bool := false
  released : Bool := false
  spans    : Nat := 0
  lost     : Bool := false
  deriving DecidableEq, Repr

/-- A replay of a segment: the recorded packets not yet launched, as (place, original grid), and the replayed grid under way
(spec 03 R77). -/
structure Replay where
  name    : Nat
  started : Bool := false
  todo    : List (Nat × Nat) := []
  current : Option Nat := none
  ended   : Bool := false
  deriving DecidableEq, Repr

/-! ## Memory-side units -/

/-- An entry of a core's shape-record cache (spec 01 R36): the record's bytes by version. Most recently used first. -/
structure ShapeEntry where
  core    : Nat
  ctx     : Nat
  addr    : Nat
  version : W32
  bytes   : List Byte
  deriving DecidableEq, Repr

/-- A fault record held by the hub; `failed` marks one that could not be written to the ring and is tried again (spec 10 R211, R213). -/
structure FaultRecord where
  ctx       : Nat
  page      : Nat
  kind      : Nat
  handle    : W32
  core      : Nat
  time      : W64
  delivered : Bool := false
  failed    : Bool := false
  deriving DecidableEq, Repr

/-- A write of the command processor that waits on a page of a context: of which record (a unit's name), and whether the page's fault
record has been resolved as unresolvable (spec 03 R66, 10 R211). -/
structure PageWait where
  by_  : Nat × Nat × Nat
  ctx  : Nat
  page : Nat
  bad  : Bool := false
  deriving DecidableEq, Repr

/-- A page under hold-down or a host request for one (spec 10 R215). -/
structure Held where
  ctx   : Nat
  page  : Nat
  until_ : Nat
  deriving DecidableEq, Repr

/-- A scatter contribution held by Bramble (spec 11 R238, 15 R326). -/
structure Contribution where
  ctx    : Nat
  pa     : Nat
  va     : W64
  key    : W32
  lid    : W64
  seq    : Nat
  val    : W32
  grid   : Nat
  core   : Nat
  team   : Nat
  group  : Nat
  deriving DecidableEq, Repr

/-- A bulk prefetch under way (spec 10 R216, 11 R239). -/
structure Prefetch where
  id     : Nat
  team   : Nat
  group  : Nat
  ctx    : Nat
  next   : Nat
  left   : Nat
  token  : Option Nat
  bo     : Option Nat
  skips  : Nat := 0
  deriving DecidableEq, Repr

/-- The scatter overflow registers of a context (spec 15 Table 15-4). -/
structure ScatOv where
  ctx  : Nat
  base : W64 := 0
  size : W32 := 0
  used : W32 := 0
  deriving DecidableEq, Repr

/-! ## The tape (spec 15 R319-R325) -/

/-- A recompute span: the segment it names, the widths it counted (64-bit records true) and the records that fill it, newest
first; whether a replay has filled it, whether it is closed, and whether its segment counts it (spec 15 R323-R325). -/
structure SpanRec where
  seg      : Nat
  widths   : List Bool := []
  filled   : List (Bool × W64) := []
  isFilled : Bool := false
  closed   : Bool := false
  counted  : Bool := false
  place    : Nat := 0
  deriving DecidableEq, Repr

/-- A record of a tape stream (`wide` for 64 bits) with the address that Medlar keeps it at, or a recompute span. -/
inductive TapeRec where
  | raw (wide : Bool) (v : W64) (place : Nat)
  | span (x : SpanRec)
  deriving DecidableEq, Repr

/-- A stream of a tape: newest record first; the bytes recorded and the spans opened since the tape was created; and, for each
segment under replay, how many of its TMARKs the replayed lane has executed and whether it fills a span now (spec 15
R320-R324). -/
structure TapeStream where
  ctx    : Nat
  desc   : Nat
  idx    : Nat
  sealed : Bool := false
  recs   : List TapeRec := []
  bytes  : Nat := 0
  spans  : Nat := 0
  fills  : List (Nat × Nat × Bool) := []
  deriving DecidableEq, Repr

/-! ## Cards (spec 17) -/

/-- A write of a card's completion record still to be made: its offset and bytes, and what is subtracted from the barrier object once
it has been made (spec 17 R354, R359). -/
structure OwedWrite where
  off  : Nat
  data : List Byte
  dec  : Nat := 0
  deriving DecidableEq, Repr

/-- An accepted job card (spec 17 R349-R363). Item statuses are kept as the list of ended items with their status (Table
17-8). The item under way: its number, the bytes of it that the engine has passed (`pos`, at most
`mark` before it was last begun again) and subtracted (`subDone`), whether a
line's write is on its way to another package (`sent`), whether poisoned bytes were met (`sick`), a failure, and the pages it
waits for. `range` is what a ragged copy moves; `kfail` fails every item. `owed` are the writes of the completion record still to be
made, with the pages they wait for, and whether the first of them is on its way to another package; `lastDue` is the last decrement, which follows them; `gave` counts the bytes of a collective's
output for which the own input has been sent to the other ranks; `ahead` are the lines read that are still in use, as domain, number
and bytes. -/
structure Card where
  bytes    : List Byte
  core     : Nat
  team     : Nat
  grid     : Nat
  ctx      : Nat
  nitem    : Nat
  relDue   : Bool := false
  begun    : Bool := false
  cur      : Option Nat := none
  pos      : Nat := 0
  subDone  : Nat := 0
  mark     : Nat := 0
  sent     : Bool := false
  sick     : Bool := false
  fail     : Option Nat := none
  pages    : List Nat := []
  bad      : List Nat := []
  done     : List (Nat × Nat) := []
  itemFail : List (Nat × Nat) := []
  nextItem : Nat := 0
  kfail    : Option Nat := none
  range    : Option (Nat × Nat) := none
  ranks    : List Nat := []
  flags    : BitVec 5 := 0
  count    : Nat := 0
  owed     : List OwedWrite := []
  recSent  : Bool := false
  recPages : List Nat := []
  recBad   : List Nat := []
  recFail  : Bool := false
  lastDue  : Option Nat := none
  pixGrid  : Option Nat := none
  cancel   : Option Nat := none
  ended    : Bool := false
  tries    : Nat := 0
  gave     : Nat := 0
  ahead    : List (Nat × Nat × List Byte) := []
  deriving DecidableEq, Repr

/-- A part of a collective input that a peer has sent, and whether it came poisoned (spec 12 R263, 21 R420). -/
structure CollInput where
  ctag  : W32
  rank  : Nat
  kind  : Byte
  nelem : W32
  cctl  : W32
  ranks : List (BitVec 12)
  elem  : Nat
  data  : List Byte
  sick  : Bool := false
  deriving DecidableEq, Repr

/-! ## The fabric (spec 12) -/

/-- Proxy states other than I (spec 12 Table 12-1). -/
inductive ProxyState where
  | s | e | m
  deriving DecidableEq, Repr

/-- A proxy entry: its line, its state, the grid that stored to the line last, and the line's place in a copy that names a bundle
(spec 12 R244, R245, R253, 21 R418). (DEDUCED, log 114.) -/
structure Proxy where
  line   : Nat
  st     : ProxyState
  grid   : Option Nat := none
  bundle : Option Nat := none
  deriving DecidableEq, Repr

/-- What a request of this device asks of a home (spec 12 R245, R246), or, for `awaitInput`, that it waits for another rank's
part of a collective (spec 12 R263). -/
inductive ReqKind where
  | readShared | readExclusive | upgrade | writeback (data : List Byte) | evictNotice
  | uncachedRead (n : Nat) | uncachedWrite (cells : List PeerCell)
  | atomic (op : PeerAtomic) | discard | awaitInput (ctag : Nat)
  deriving DecidableEq, Repr

/-- An outstanding fabric request: its tag, its line or address, the grid and the unit it is made for, its route, the lowest virtual
address that a lane's access gave it, since when it counts its time, whether it is reissued, its place in a copy that names a
bundle, and whether its data is poisoned (spec 12 R247, R248, R253, R258, R260, 21 R420). -/
structure Request where
  tag    : Nat
  peer   : Nat
  addr   : Nat
  kind   : ReqKind
  sent   : Bool := true
  grid   : Option Nat := none
  who    : Option (Nat × Nat × Nat) := none
  route  : Nat := 0
  va     : Nat := 0
  since  : Nat := 0
  again  : Bool := false
  bundle : Option Nat := none
  bad    : Bool := false
  deriving DecidableEq, Repr

/-- The answer to a unit's own request, waiting for the unit to use it (spec 12 R247). -/
structure Answer where
  who   : Nat × Nat × Nat
  addr  : Nat
  value : PeerAnswer
  deriving DecidableEq, Repr

/-- A failed request of a unit, met when it goes on; `stored` marks one of a store or discard that is reported as an error entry
(spec 12 R248). -/
structure ReqFailure where
  who    : Nat × Nat × Nat
  addr   : Nat
  remote : Bool
  stored : Bool := false
  deriving DecidableEq, Repr

/-- A directory entry of a line homed here: its remote holders, at most four by number, and whether one owns it; the peers whose
acknowledgement is awaited; and, when it is coarse, the marked groups of 36 peers and the number of copies (spec 12 R245). -/
structure DirEntry where
  line    : Nat
  holders : List Nat
  owned   : Bool
  waitAck : List Nat := []
  groups  : W64 := 0
  copies  : Nat := 0
  deriving DecidableEq, Repr

/-- What a message on the fabric carries (spec 12 R245, R247, R255, R263). -/
inductive FabMsg where
  | request (tag : Nat)
  | answer (tag : Nat) (a : PeerAnswer)
  | recall (line : Nat)
  | ack (line : Nat) (data : List Byte) (poisoned : Bool)
  | input (x : PeerReq)
  deriving DecidableEq, Repr

/-- A message of this device to a peer. -/
structure OutMsg where
  peer : Nat
  msg  : FabMsg
  deriving DecidableEq, Repr

/-- What a flit of a link is: a header flit of four quarters, 64 bytes of data, the tag of the eight flits before it, or the control
flit that marks the old key clear (spec 12 R256, R261, R262). -/
inductive FlitKind where
  | header
  | data
  | tag
  | clear
  deriving DecidableEq, Repr

/-- A flit in a port's replay buffer: what it is, its sequence number, the key it is sealed under and the counter of its group, which
make its ciphertext what it was first, and the messages that end with it (spec 12 R256, R259, R261, R262). -/
structure Flit where
  kind  : FlitKind
  seq   : W16
  key   : BitVec 1
  group : W64
  msgs  : List OutMsg := []
  deriving DecidableEq, Repr

/-- A fabric port: PORTSTAT and the link state behind it. Of both directions: the lanes in use, whether the port retrains. Of the
sending direction: the channels paused, the next and the last acknowledged sequence number, the replay buffer, the free quarters of the
header flit that is being packed, the flits sealed so far (eight make a group), the session salt, the keys held, whether a rotation is
under way and whether its clear flit has been sent. Of the receiving direction: the next sequence number, the flits received, the last
NAK sent, the channels on which PAUSE was sent last, the keys held, the index groups arrive under and whether a rotation is under way,
and the group whose integrity check failed last and how often in a row (spec 12 Table 12-4, R256-R262). -/
structure Port where
  stat     : W32 := 0
  lanes    : BitVec 4 := 0
  retrain  : Bool := false
  paused   : BitVec 4 := 0
  txSeq    : W16 := 0
  ackSeq   : W16 := 0
  replayBuf : List Flit := []
  room     : Nat := 0
  txFlits  : Nat := 0
  salt     : W32 := 0
  txKeys   : BitVec 2 := 0
  txRot    : Bool := false
  txClear  : Bool := false
  rxSeq    : W16 := 0
  rxFlits  : Nat := 0
  nak      : Option W16 := none
  held     : BitVec 4 := 0
  rxKeys   : BitVec 2 := 0
  rxIdx    : BitVec 1 := 0
  rxRot    : Bool := false
  badGroup : Nat := 0
  badRun   : Nat := 0
  deriving DecidableEq, Repr

/-! ## Registers of base address region 0 -/

/-- The registers of base address region 0 that no other structure holds (spec 10, 12, 15, 19, 20, 21, 22). -/
structure Regs where
  llcctl   : W32 := 0
  invAddr  : W64 := 0
  invCmd   : W32 := 0
  migHold  : W32 := 2000000
  fqBase   : W64 := 0
  fqSize   : W32 := 0
  fqWrite  : W32 := 0
  fqRead   : W32 := 0
  migReq   : W64 := 0
  scovCtx  : W32 := 0
  syncTo   : W32 := 0
  vacMask  : List W64 := [0, 0, 0, 0]
  vacCmd   : W32 := 0
  vacTime  : W32 := 0
  ctxBase  : W64 := 0
  ctxCmd   : W32 := 0
  elBase   : W64 := 0
  elSize   : W32 := 0
  elWrite  : W32 := 0
  elRead   : W32 := 0
  elCtl    : W32 := 0
  elLost   : W32 := 0
  timeCtl  : W32 := 0
  timeStat : W32 := 0
  ppsLatch : W64 := 0
  ppsCount : W32 := 0
  ptmIvl   : W32 := 10000
  pwrLimit : W32 := 4200
  pwrNow   : W32 := 0
  pwrCapNs : W64 := 0
  mxFreq   : W32 := 4000
  tempMax  : W32 := 0
  fwStat   : W32 := 0
  fwCmd    : W32 := 0
  fwStage  : W64 := 0
  fwVer    : W32 := 0
  fabId    : W32 := 0
  fabCtl   : W32 := 0
  fabTo    : W32 := 2000
  routeIdx : W32 := 0
  deriving DecidableEq, Repr

/-- The firmware image in flash, none for the one the device was made with; whether its write has not ended; which image runs, if one
does, told in the same way; and the minimum security version number that signed images have raised (spec 22 R431, R432). -/
structure Flash where
  image    : Option (List Byte) := none
  partial_ : Bool := false
  running  : Option (Option (List Byte)) := some none
  minimum  : Nat := 0
  deriving DecidableEq, Repr

/-- Device time and its servo: the correction in ppm, whether it removes a lead that the source has measured, measurements within
100 ns in a row, whether a PTM request is answered, the two grounds of HOLDOVER, and the times of the last measurement, the last PTM
request and the last pulse edge (spec 22 R426-R430); and, for the power manager, the times of the last prediction, since which every
predicted sum has been low, and to which PWRCAPNS has counted (R435). (DESIGN CHOICE, log 3.) -/
structure Clock where
  now      : W64 := 0
  ppm      : Int := 0
  lead     : Bool := false
  good     : Nat := 0
  ptmWait  : Bool := false
  holdSrc  : Bool := false
  holdPps  : Bool := false
  lastMeas : Nat := 0
  lastReq  : Nat := 0
  lastEdge : Nat := 0
  lastPredict : Nat := 0
  quietSince  : Nat := 0
  capTo       : Nat := 0
  deriving DecidableEq, Repr

/-- A vacate waiting to be served (spec 20 R412). -/
structure VacReq where
  ctx      : Nat
  cores    : List Nat
  fromHost : Bool
  grid     : Option Nat
  deriving DecidableEq, Repr

/-- A context switched out, with the AMAX values saved for it by core (spec 20 R415). -/
structure CtxSave where
  ctx   : Nat
  out   : Bool
  amax  : List (Nat × List W32) := []
  deriving DecidableEq, Repr

/-- The instance at issue: team, group, lanes and code byte offset of its instruction word (spec 07 R127). -/
structure Inst where
  team  : Nat
  group : Nat
  mask  : LaneMask
  pc    : W32
  deriving DecidableEq, Repr

/-- The command processor's tables (spec 03 R67-R77, 20 R412, R415, 21 R422); `switchStep` is how far a context switch under way has
come: 1 when OUT is saved, 2 when the pending contributions have been performed. -/
structure CmdProc where
  queues    : List Queue := List.replicate 64 {}
  estimates : List Estimate := []
  segments  : List Segment := []
  replays   : List Replay := []
  readOrder : Nat := 0
  vacs      : List VacReq := []
  ctxs      : List CtxSave := []
  devErr    : Bool := false
  entries   : List SegWrite := []
  switchStep : Nat := 0
  deriving DecidableEq, Repr

/-- Translations, fault records, migration and the shape-record caches (spec 01 R36, 10 R209-R215). -/
structure MemUnit where
  shapes     : List ShapeEntry := []
  tlb        : List TlbEntry := []
  faults     : List FaultRecord := []
  nextHandle : W32 := 1
  held       : List Held := []
  waits      : List PageWait := []
  parkId     : Nat := 0
  deriving DecidableEq, Repr

/-- The asynchronous units: scatter, prefetch, tape, cards, collectives, AMAX registers and cycle counters by core. -/
structure Engines where
  scatter    : List Contribution := []
  scatSeq    : Nat := 0
  scatOv     : List ScatOv := []
  prefetches : List Prefetch := []
  streams    : List TapeStream := []
  cards      : List Card := []
  collIn     : List CollInput := []
  amax       : List (Nat × List W32) := []
  cycles     : List (Nat × W64) := []
  deriving DecidableEq, Repr

/-- A request that this device has answered as its home: source, tag, the request, its answer, and whether only a reissue of it has
been seen (spec 12 R260). -/
structure Served where
  src    : Nat
  tag    : Nat
  req    : PeerReq
  answer : PeerAnswer
  late   : Bool
  deriving DecidableEq, Repr

/-- The fabric (spec 12). `routes` lists the route entries that differ from reset; `answered` the answers this device gave as a
home, by source and tag (R260); `outbox` the messages waiting to leave; `farDown` the links between other packages that are down,
as the outside sets them (R251); `parts` what lanes have received that have been performed while a later lane of their instance waits
for another package (11 R222); `locks` the lines of a store that is one event and not yet performed everywhere, with its unit (18 R364);
`attested` the ports whose peers were attested at bring-up (22 R434). -/
structure Fabric where
  proxies  : List Proxy := []
  dir      : List DirEntry := []
  requests : List Request := []
  answers  : List Answer := []
  reqFails : List ReqFailure := []
  nextTag  : Nat := 0
  answered : List Served := []
  routes   : List (Nat × W64) := []
  ports    : List Port := List.replicate 48 {}
  outbox   : List OutMsg := []
  farDown  : List (Nat × Nat) := []
  parts    : List ((Nat × Nat × Nat) × LaneOut) := []
  locks    : List (Nat × (Nat × Nat × Nat)) := []
  attested : BitVec 48 := 0
  deriving DecidableEq, Repr

/-- The hub and the management controller (spec 21 R423, 22): time, firmware, the persistent log, attestation, the capping steps
in force and those for heat by island, corrections counted, interrupts sent, the data of the last host read, the events still to be
written to the event log, and whether host writes fail now. -/
structure Hub where
  clock     : Clock := {}
  flash     : Flash := {}
  zlog      : List W32 := []
  spdmUp    : Bool := false
  doeOut    : List Byte := []
  cap       : Nat := 0
  hot       : List Nat := List.replicate 128 0
  corrected : Nat := 0
  msix      : Nat := 0
  powered   : Bool := true
  hostRead  : W64 := 0
  bar2Data  : List Byte := []
  bar2Ur    : Bool := false
  bar2Bad   : Bool := false
  events    : List (List Byte) := []
  hostDown  : Bool := false
  deriving DecidableEq, Repr

/-- What the outside does that no instruction of the table is: the host writes its memory, the host link fails or works again, a link
between two other packages goes down or comes up (spec 10 R213, 12 R251, 18 R383). (DESIGN CHOICE, log 188.) -/
inductive OutsideInput where
  | hostStore (addr : Nat) (data : List Byte)
  | hostLink (down : Bool)
  | farLink (u v : Nat) (down : Bool)
  deriving DecidableEq, Repr

/-- The model's own scheduling data: the events of the outside and of engines waiting to happen, the instance at issue,
whose turn the next step is, the core served last and each core's round-robin pointer over its groups (spec 07 R128), the number of events performed, and the
counter that the free values of `Config` are applied to; `waiting` are events held back until other packages have given up
lines. (DESIGN CHOICE, log 4.) -/
structure Sched where
  agenda  : List Instr := []
  inbox   : List OutsideInput := []
  waiting : List Instr := []
  cur     : Option Inst := none
  turn    : Bool := false
  core    : Nat := 255
  rr      : List (Nat × Nat) := []
  events  : Nat := 0
  freeCtr : Nat := 0
  deriving DecidableEq, Repr

/-- The whole device. `poison` lists the poisoned lines and `badBytes` the bytes of them known to be in error; a poisoned line with
none listed is in error throughout (spec 13 R281, 21 R420). -/
structure State where
  mem    : List Host.Cell := []
  poison : List Nat := []
  badBytes : List Nat := []
  teams  : List Team := []
  grids  : List Grid := []
  cp     : CmdProc := {}
  mm     : MemUnit := {}
  eng    : Engines := {}
  fab    : Fabric := {}
  regs   : Regs := {}
  hub    : Hub := {}
  sched  : Sched := {}
  deriving DecidableEq, Repr

/-- The device right after reset: every register at the value the manual gives (the defaults of the structures above),
no launch, no team, memory with nothing listed. (DESIGN CHOICE, log 2.) -/
def State.reset : State := {}

end Sys2Proof.Machine
end

