-- ==== Sys2Proof/Machine/Ops.lean ====
section
/-! DEFINITION. The named operations over memory and registers: reading and writing bytes, lanes, groups, teams and grids,
the event log and error entries, taking a trap, returning from one, halting, and how an instance retires, parks or waits. -/

namespace Sys2Proof.Machine

/-- The outcome of a meaning. -/
abbrev Res := Host.Outcome State Fault Refusal

/-! ## Lists by index -/

/-- The list with its n-th entry changed; unchanged when there is none. -/
def modNth {α : Type} : List α → Nat → (α → α) → List α
  | [], _, _ => []
  | x :: xs, 0, f => f x :: xs
  | x :: xs, n + 1, f => x :: modNth xs n f

/-- Every entry with its index. -/
def indexed {α : Type} (xs : List α) : List (Nat × α) := (List.range xs.length).zip xs

/-- Every entry changed by a function of its index. -/
def mapIdx {α β : Type} (f : Nat → α → β) (xs : List α) : List β := (indexed xs).map fun x => f x.1 x.2

/-! ## Memory: bytes by key, in one canonical form -/

/-- The byte at a key. What no entry lists reads as zero. (DESIGN CHOICE, log 1.) -/
def memRead : List Host.Cell → Nat → Byte
  | [], _ => 0
  | (k, v) :: m, a => if k = a then v else memRead m a

/-- Memory with one byte written, in canonical form. -/
def memWrite : List Host.Cell → Nat → Byte → List Host.Cell
  | [], a, v => if v = 0 then [] else [(a, v)]
  | (k, x) :: m, a, v =>
    if a < k then (if v = 0 then (k, x) :: m else (a, v) :: (k, x) :: m)
    else if a = k then (if v = 0 then m else (a, v) :: m)
    else (k, x) :: memWrite m a v

/-- Keys strictly rising and above a bound, and no zero byte listed. -/
def memAbove : Option Nat → List Host.Cell → Bool
  | _, [] => true
  | lo, (k, v) :: m =>
    (match lo with
      | none => true
      | some b => decide (b < k)) && v != 0 && memAbove (some k) m

/-- The canonical form of memory. -/
def Memory.wf (m : List Host.Cell) : Bool := memAbove none m

/-- The `n` bytes from a key on. -/
def memReadN (m : List Host.Cell) (a n : Nat) : List Byte := (List.range n).map fun i => memRead m (a + i)

/-- Memory with a list of bytes written from a key on. -/
def memWriteN (m : List Host.Cell) : Nat → List Byte → List Host.Cell
  | _, [] => m
  | a, b :: bs => memWriteN (memWrite m a b) (a + 1) bs

/-- Memory with a list of cells written in order. -/
def memWriteCells (m : List Host.Cell) (cs : List Host.Cell) : List Host.Cell :=
  cs.foldl (fun m c => memWrite m c.1 c.2) m

/-- This device's peer number as it stands in addresses. -/
def ownPeer : Nat := 0xFFF
/-- Host memory's peer number (spec 12 R242). (DEDUCED, log 48.) -/
def hostPeer : Nat := 0xFFE
/-- The key of a local physical address of this device. -/
def localKey (a : Nat) : Nat := ownPeer * 2 ^ 45 + a
/-- The key of a host bus address: the same byte as fabric address (0xFFE, a) below 2^45, a key of its own above. -/
def hostKey (a : Nat) : Nat := if a < 2 ^ 45 then hostPeer * 2 ^ 45 + a else 2 ^ 62 + a
/-- The key of a byte of a team's SCRATCH banks (spec 10 R198), by the team's serial number. -/
def scratchKey (team off : Nat) : Nat := 2 ^ 57 + team * 2 ^ 21 + off
/-- The peer number of a key of global memory. -/
def keyPeer (k : Nat) : Nat := k / 2 ^ 45
/-- Whether a key lies in host memory. -/
def isHostKey (k : Nat) : Bool := keyPeer k == hostPeer || decide (2 ^ 62 ≤ k)
/-- The local physical address of a key of global memory. -/
def keyLocal (k : Nat) : Nat := k % 2 ^ 45
/-- One past the last byte of HBM4 (spec 10 R206). -/
def hbmEnd : Nat := 2 ^ 40

def State.rd (s : State) (a n : Nat) : List Byte := memReadN s.mem a n
def State.rdNat (s : State) (a n : Nat) : Nat := leNat (memReadN s.mem a n)

/-- The poison of the lines for which `f` holds cleared (spec 21 R420). -/
def State.curePoison (s : State) (f : Nat → Bool) : State :=
  { s with
    poison := s.poison.filter fun l => !f l
    badBytes := s.badBytes.filter fun b => !f (b / 128) }

/-- The state with bytes written from a key on (one write event; a line covered whole loses its poison, spec 21 R420). -/
def State.wr (s : State) (a : Nat) (bs : List Byte) : State :=
  State.curePoison { s with mem := memWriteN s.mem a bs } fun l => decide (a ≤ l * 128) && decide (l * 128 + 128 ≤ a + bs.length)

/-- The state with the cells of one write event written. -/
def State.wrCells (s : State) (cs : List Host.Cell) : State :=
  State.curePoison { s with mem := memWriteCells s.mem cs } fun l =>
    (List.range 128).all fun i => cs.any fun c => c.1 == l * 128 + i

/-- Whether one of `n` bytes at a key is poisoned (spec 21 R420). -/
def State.poisoned (s : State) (a n : Nat) : Bool :=
  s.poison.any fun l => decide (a < l * 128 + 128) && decide (l * 128 < a + n)

/-- A line marked poisoned throughout. -/
def State.addPoison (s : State) (line : Nat) : State :=
  { s with
    poison := if s.poison.contains line then s.poison else line :: s.poison
    badBytes := s.badBytes.filter fun b => b / 128 != line }

/-- Whether the byte at a key is itself in error: its line is poisoned, and no other bytes alone are known to be. (DEDUCED, log 166.) -/
def State.byteBad (s : State) (k : Nat) : Bool :=
  s.poison.contains (k / 128) && (s.badBytes.contains k || !s.badBytes.any fun b => b / 128 == k / 128)

/-- One byte in error: its line is poisoned, with the bytes of it that were in error before (spec 13 R281). -/
def State.poisonByte (s : State) (k : Nat) : State :=
  if s.byteBad k then s
  else { s with poison := if s.poison.contains (k / 128) then s.poison else (k / 128) :: s.poison, badBytes := k :: s.badBytes }

/-- A line discarded: zero, and its poison cleared (spec 10 R217). -/
def State.discardLine (s : State) (line : Nat) : State := s.wr (line * 128) (List.replicate 128 0)

/-! ## Teams, groups, lanes, grids -/

/-- A team that is not there. -/
def noTeam : Team := { grid := 0, idx := 0, core := 0 }

def State.team (s : State) (t : Nat) : Team := s.teams.getD t noTeam
def State.modTeam (s : State) (t : Nat) (f : Team → Team) : State := { s with teams := modNth s.teams t f }
def State.grp (s : State) (t g : Nat) : Group := (s.team t).groups.getD g {}
def State.modGroup (s : State) (t g : Nat) (f : Group → Group) : State :=
  s.modTeam t fun T => { T with groups := modNth T.groups g f }
def Group.lane (G : Group) (l : Nat) : Lane := G.lanes.getD l {}
/-- Every lane of a group changed by a function of its number. -/
def Group.mapLanes (G : Group) (f : Nat → Lane → Lane) : Group := { G with lanes := mapIdx f G.lanes }
def State.grid (s : State) (n : Nat) : Grid := s.grids.getD n {}
def State.modGrid (s : State) (n : Nat) (f : Grid → Grid) : State := { s with grids := modNth s.grids n f }
/-- The kernel of the rung a grid runs. -/
def Grid.kernel (G : Grid) : Kernel := G.par.kernels.getD G.rung {}
/-- The kernel a team runs. -/
def State.kernelOf (s : State) (t : Nat) : Kernel := (s.grid (s.team t).grid).kernel
/-- The context of a team. -/
def State.ctxOf (s : State) (t : Nat) : Nat := (s.grid (s.team t).grid).par.ctx
/-- The lanes of a group for which `f` holds. -/
def Group.where_ (G : Group) (f : Lane → Bool) : LaneMask := laneMask fun l => f (G.lane l)

/-- The group of the instance at issue. -/
def State.instGrp (s : State) (c : Inst) : Group := s.grp c.team c.group
/-- The kernel of the instance at issue. -/
def State.instKernel (s : State) (c : Inst) : Kernel := s.kernelOf c.team

/-- The logical identifier of a lane (spec 01 R12). -/
def State.lid (s : State) (t g l : Nat) : Nat :=
  ((s.team t).idx * (s.kernelOf t).groups + g) * 32 + l

/-- The device's own peer number: 0xFFF before bring-up (spec 00 R2, 12 R254). -/
def State.peerNo (s : State) : Nat :=
  if s.regs.fabId.getLsbD 31 then (s.regs.fabId.extractLsb' 0 12).toNat else 0xFFF

/-- A fabric physical address with this device's own number written as 0xFFF (spec 12 R242). -/
def State.normPa (s : State) (pa : Nat) : Nat :=
  if keyPeer pa == s.peerNo then localKey (keyLocal pa) else pa

/-! ## Values of lanes -/

/-- Push (spec 00 Table 0-3). -/
def Lane.push (L : Lane) (v : W64) : Lane := { L with q := v :: L.q.take 15, sickQ := L.sickQ <<< 1 }
/-- Several pushes, the first one first. -/
def Lane.pushes (L : Lane) (vs : List W64) : Lane := vs.foldl Lane.push L
def Lane.reg (L : Lane) (n : Nat) : W32 := L.k.getD n 0
def Lane.setReg (L : Lane) (n : Nat) (v : W32) : Lane :=
  { L with k := modNth L.k n fun _ => v, sickK := L.sickK &&& ~~~(1#32 <<< n) }
/-- A predicate: p0 reads true (spec 07 R121). -/
def Lane.pred (L : Lane) (n : Nat) : Bool := n == 0 || L.p.getLsbD n
/-- A write of a predicate: p0 does not change (spec 07 R121). -/
def Lane.setPred (L : Lane) (n : Nat) (b : Bool) : Lane :=
  if n = 0 then L
  else { L with p := BitVec.ofNat 8 (setBits L.p.toNat n 1 (if b then 1 else 0)) }
def Group.sreg (G : Group) (n : Nat) : W64 := G.s.getD n 0
def Group.setS (G : Group) (n : Nat) (v : W64) : Group := { G with s := modNth G.s n fun _ => v }

/-- Handler mode: TRAPCAUSE.INH (spec 20 R399). -/
def Group.inh (G : Group) : Bool := G.trapCause.getLsbD 31

/-! ## Events held back -/

/-- An event that cannot be performed before other packages have given up lines waits. -/
def State.holdBack (s : State) (i : Instr) : State :=
  if s.sched.waiting.contains i then s else { s with sched := { s.sched with waiting := s.sched.waiting ++ [i] } }
/-- Whether an event is a host write to device memory. -/
def isHostWrite (i : Instr) : Bool := match i with
  | .bar2Access _ _ (some _) => true
  | _ => false

/-- The oldest host write to device memory that waits: PCI Express lets no access of the host to device memory pass it (spec 18 R383). -/
def State.firstHostWrite (s : State) : Option Instr := s.sched.waiting.find? isHostWrite

/-- An event placed by the outside that must wait behind others of its kind. -/
def State.queues (s : State) (i : Instr) : Bool := isHostWrite i && s.firstHostWrite.isSome

/-- An event that waited, if it did, no longer waits. -/
def State.letGo (s : State) (i : Instr) : State := { s with sched := { s.sched with waiting := s.sched.waiting.erase i } }

/-! ## Time and free values (spec 08 R167, 22 R426) -/

/-- The state after a free value has been taken. -/
def State.tick (s : State) : State := { s with sched := { s.sched with freeCtr := s.sched.freeCtr + 1 } }

/-- A device time, which never goes beyond the counter's 64 bits. -/
def timeWord (t : Nat) : W64 := BitVec.ofNat 64 (min (2 ^ 64 - 1) t)

/-- What the counter counts while `ns` nanoseconds pass, its rate corrected by `ppm`. -/
def atRate (ppm : Int) (ns : Nat) : Nat := ns * (1000000 + ppm).toNat / 1000000

/-- Device time, looked at: some time has passed since it was last looked at. (DESIGN CHOICE, log 7.) -/
def State.lookTime (s : State) : W64 × State :=
  let now := timeWord (s.hub.clock.now.toNat + atRate s.hub.clock.ppm (Config.elapsedNs s.sched.freeCtr).toNat)
  (now, { s.tick with hub := { s.hub with clock := { s.hub.clock with now := now } } })

/-- Device time raised to at least `t`: an event due at `t` happens no earlier. -/
def State.timeAtLeast (s : State) (t : Nat) : State :=
  if decide (s.hub.clock.now.toNat < t) then
    { s with hub := { s.hub with clock := { s.hub.clock with now := timeWord t } } }
  else s

/-- A list kept by a number: the value for it, or a default. -/
def assocGet {α : Type} (xs : List (Nat × α)) (k : Nat) (d : α) : α :=
  match xs.find? fun x => x.1 == k with
  | some x => x.2
  | none => d

/-- A list kept by a number with one value replaced. -/
def assocSet {α : Type} (xs : List (Nat × α)) (k : Nat) (v : α) : List (Nat × α) :=
  (k, v) :: xs.filter fun x => x.1 != k

/-- A core's cycle counter, looked at (spec 08 R166). -/
def State.lookCycles (s : State) (core : Nat) : W64 × State :=
  let old := assocGet s.eng.cycles core 0
  let e := Config.elapsedCycles s.sched.freeCtr
  let now := if old + e < old then old else old + e
  (now, { s.tick with eng := { s.eng with cycles := assocSet s.eng.cycles core now } })

/-! ## The event log (spec 21 R423) -/

/-- MSI-X vector 0 signalled. -/
def State.signalMsix (s : State) : State := { s with hub := { s.hub with msix := s.hub.msix + 1 } }

/-- A ring register pair: how many entries stand in a ring of `n`. -/
def ringCount (w r n : Nat) : Nat := if n = 0 then 0 else (w + n - r % n) % n

/-- The key a hub ring's base register names, none outside HBM4 (spec 10 R213, 21 R423): bit 63 selects the host. -/
def ringKey (base : W64) (align off len : Nat) : Option Nat :=
  if base.getLsbD 63 then some (hostKey ((base.toNat % 2 ^ 57) / align * align + off))
  else
    let a := (base.toNat % 2 ^ 45) / align * align + off
    if decide (a + len ≤ hbmEnd) then some (localKey a) else none

/-! The directory, as far as writes of the hub meet it: Directory.lean goes on. -/

/-- Whether an entry is coarse (spec 12 R245). -/
def DirEntry.coarse (d : DirEntry) : Bool := d.groups != 0
/-- Whether a line has a remote copy. -/
def DirEntry.any (d : DirEntry) : Bool := d.coarse || !d.holders.isEmpty
/-- The directory entry of a line homed here. -/
def State.dirEntry (s : State) (line : Nat) : Option DirEntry := s.fab.dir.find? fun d => d.line == line
/-- Whether a line belongs to a store that is one event on several packages, parts of which are on their way, of a unit other than
those of `but` (spec 18 R364, R377). -/
def State.lockedBut (s : State) (line : Nat) (but : Nat × Nat × Nat → Bool) : Bool :=
  s.fab.locks.any fun x => x.1 == line && (s.team x.2.1).status == .running && !but x.2

/-- Whether remote copies of a line homed here, or a store under way, stand in the way of an access by this device (spec 10 R204). -/
def State.dirBlocks (s : State) (line : Nat) (write : Bool) : Bool :=
  (match s.dirEntry line with
    | none => false
    | some d => !d.waitAck.isEmpty || d.owned || (write && d.any)) || s.lockedBut line fun _ => false

/-- The key at which the next event of the log is written; none when it cannot be written. -/
def State.eventKey (s : State) : Option Nat :=
  match ringKey s.regs.elBase 64 (64 * (s.regs.elWrite.toNat % max 1 s.regs.elSize.toNat)) 64 with
  | none => none
  | some k => if isHostKey k && s.hub.hostDown then none else some k

/-- An event that is not written: ELLOST counts it. -/
def State.loseEvent (s : State) : State :=
  { s with regs := { s.regs with elLost := if s.regs.elLost == 0xFFFFFFFF then s.regs.elLost else s.regs.elLost + 1 } }

/-- An event's 64 bytes written to the log, or counted in ELLOST. -/
def State.putEvent (s : State) (e : List Byte) : State :=
  match s.eventKey with
  | none => s.loseEvent
  | some k =>
    let s := s.wr k e
    let s := { s with regs := { s.regs with
      elWrite := BitVec.ofNat 32 ((s.regs.elWrite.toNat + 1) % max 1 s.regs.elSize.toNat) } }
    if s.regs.elCtl.getLsbD 0 then s.signalMsix else s

/-- Whether the line that the next event is written to is held by other packages. -/
def State.eventBlocked (s : State) : Bool := match s.eventKey with
  | none => false
  | some k => s.dirBlocks (k / 128) true

/-- An event written to the log, or counted in ELLOST (spec 21 R423, Table 21-5); it waits while other packages hold the line of the
ring. ELSIZE 0 disables the log. (DEDUCED, log 185.) -/
def State.logEvent (s : State) (type ctx : Nat) (ltag : W32) (data : List Byte) : State :=
  let n := s.regs.elSize.toNat
  if n == 0 then s
  else if decide (n - 1 ≤ ringCount s.regs.elWrite.toNat s.regs.elRead.toNat n + s.hub.events.length) then s.loseEvent
  else
    let (now, s) := s.lookTime
    let e := leBytes 8 now.toNat ++ [BitVec.ofNat 8 type, BitVec.ofNat 8 ctx, 0, 0] ++ leBytes 4 ltag.toNat ++ data ++
      List.replicate (48 - data.length) 0
    if s.hub.events.isEmpty && !s.eventBlocked then s.putEvent e else { s with hub := { s.hub with events := s.hub.events ++ [e] } }

/-! ## Error entries (spec 21 R418) -/

/-- The grid whose record takes a grid's reports: for a pixel launch, the grid that kicked its card (spec 15 R307). -/
def State.recordGrid (s : State) (g : Nat) : Nat :=
  match (s.grid g).par.issuer with
  | some i => i
  | none => g

/-- An error entry of a grid: kind and address (spec 21 R418, Table 21-3). -/
def State.errorEntry (s : State) (grid kind : Nat) (addr : W64) : State :=
  let g := s.recordGrid grid
  let G := s.grid g
  let r := G.report
  let first := r.nerr == 0 || decide (addr.toNat < r.errAddr.toNat) ||
    (addr == r.errAddr && decide (kind < r.errKind))
  let s := s.modGrid g fun G => { G with report := { r with
    nerr := min (r.nerr + 1) 0xFFFFFFFF
    errAddr := if first then addr else r.errAddr
    errKind := if first then kind else r.errKind } }
  s.logEvent 4 G.par.ctx G.par.ltag (leBytes 8 addr.toNat ++ leBytes 4 kind)

/-! ## Completion record bytes (spec 21 Table 21-1, 21-2) -/

/-- GSTAT. -/
def gstat (r : GridReport) (rung check : Nat) (missed done : Bool) : Nat :=
  (if done then 2 ^ 31 else 0) + (if missed then 2 ^ 30 else 0) + rung * 2 ^ 27 + check * 2 ^ 16 +
    (match r.trap with
      | some t => t.core * 256
      | none => 0) + r.status

/-- Bytes 0x24 to 0x3F: the trap fields. -/
def trapFields : Option TrapReport → List Byte
  | none => List.replicate 28 0
  | some t => leBytes 4 t.team.toNat ++ leBytes 4 t.cause.toNat ++ leBytes 4 t.mask.toNat ++ leBytes 4 t.d0.toNat ++
      leBytes 4 t.d1.toNat ++ leBytes 4 t.d2.toNat ++ leBytes 4 t.off.toNat

/-- GFLAGS. -/
def gflags (r : GridReport) : Nat :=
  r.flags.toNat + (match r.trap with
    | some t => t.group * 256
    | none => 0)

/-! ## Traps (spec 20 R398-R406) -/

/-- What a trap reports: cause, TRAPDETAIL0-2, and the lanes that met the condition. -/
structure TrapInfo where
  cause : Nat
  d0    : W32 := 0
  d1    : W32 := 0
  d2    : W32 := 0
  mask  : LaneMask := 0
  fatal : Bool := false
  deriving DecidableEq, Repr

/-- The common form of TRAPDETAIL0 (spec 20 R400). -/
def detail0 (lane reason aux : Nat) : W32 :=
  BitVec.ofNat 32 ((lane % 64) * 2 ^ 26 + (reason % 64) * 2 ^ 20 + aux % 2 ^ 20)

/-- A trap with the common form of detail. -/
def trapOf (cause lane reason aux : Nat) (d1 d2 : W32) (mask : LaneMask) : TrapInfo :=
  { cause := cause, d0 := detail0 lane reason aux, d1 := d1, d2 := d2, mask := mask }

/-- A trap whose details 1 and 2 hold an address (spec 20 Table 20-3). -/
def trapAddr (cause lane reason aux : Nat) (addr : W64) (mask : LaneMask) : TrapInfo :=
  trapOf cause lane reason aux (addr.extractLsb' 0 32) (addr.extractLsb' 32 32) mask

/-- Whether a lane is neither exited, parked nor waiting (spec 20 R401). -/
def Lane.stopsRunning (L : Lane) : Bool := match L.status with
  | .run => true
  | .yielding _ => true
  | _ => false
def Lane.isParked (L : Lane) : Bool := match L.status with
  | .parked _ => true
  | _ => false
def Lane.isExited (L : Lane) : Bool := L.status == .exited
/-- Whether a lane waits at a REJOIN, a barrier or a barrier object. -/
def Lane.isWaiting (L : Lane) : Bool := match L.status with
  | .rejoin _ => true
  | .barrier _ _ _ => true
  | .boWait _ _ => true
  | _ => false

/-- The trap registers of a group that takes a trap at an offset (spec 20 R398, R401). -/
def Group.setTrap (G : Group) (x : TrapInfo) (inh async : Bool) (pc : W64) (nextPc : W32) : Group :=
  { G.mapLanes (fun _ L => if L.isExited then L else { L with epc := L.pc }) with
    trapCause := BitVec.ofNat 32 ((if inh then 2 ^ 31 else 0) + (if async then 256 else 0) + x.cause)
    trapD0 := x.d0
    trapD1 := x.d1
    trapD2 := x.d2
    trapPc := pc
    trapMask := x.mask
    nextPc := nextPc
    hmask := G.where_ Lane.stopsRunning
    parkMask := G.where_ Lane.isParked
    waitMask := G.where_ Lane.isWaiting }

/-- Entry of handler mode (spec 20 R403): the lanes of HMASK save their queues, the group its flags; a second set of rejoin
masks, zero, is used; the lanes of HMASK stand at the handler's first packet. (DEDUCED, log 23.) -/
def Group.enterHandler (G : Group) (trapOff : W32) : Group :=
  { G.mapLanes (fun l L =>
      if G.hmask.getLsbD l then
        { L with
          savedQ := L.q, savedSick := L.sickQ, savedBad := L.bad, bad := [], pc := trapOff, status := .run, stall := none,
          waitFor := none, tries := 0 }
      else L) with
    savedFlags := G.flags.extractLsb' 0 5
    jh := List.replicate 8 0
    sel := [] }

/-- Whether a team stands between dispatch and its end. -/
def Team.live (T : Team) : Bool := match T.status with
  | .running => true
  | .vacated => true
  | .switchedOut => true
  | _ => false

/-- The flags of every group of a team that has not ended. -/
def Team.liveFlags (T : Team) : BitVec 5 :=
  T.groups.foldl (fun f G => if G.ended then f else f ||| G.flags.extractLsb' 0 5) 0

/-- Flags ORed into a grid's report (spec 02 R53); those of a pixel launch go to its card (spec 15 R307). -/
def State.gridFlags (s : State) (g : Nat) (f : BitVec 5) : State :=
  match (s.grid g).par.card with
  | some c => { s with eng := { s.eng with cards := modNth s.eng.cards c fun C => { C with flags := C.flags ||| f } } }
  | none => s.modGrid g fun G => { G with report := { G.report with flags := G.report.flags ||| f } }

/-- A team's state discarded (spec 20 R406 steps 4 and 5): its flags have been taken; its matrix operations are dropped. -/
def Team.discard (T : Team) : Team :=
  { T with status := .discarded, tiles := T.tiles.map fun t => { t with ops := [], fails := [] }
           groups := T.groups.map fun G => { G with ended := true } }

/-- The failures of a team that ends which no instruction has met: of tile operations, and of tape writes (spec 21 Table 21-3). -/
def State.reportUndelivered (s : State) (T : Team) : State :=
  let s := T.tiles.foldl (fun s x => x.fails.foldl (fun s f => s.errorEntry T.grid 3 (f.off.zeroExtend 64)) s) s
  T.tapeFail.foldl (fun s a => s.errorEntry T.grid 1 a) s

/-- Every team of a grid stopped and discarded, its flags ORed into the record and its undelivered failures reported, its cards and
prefetches cancelled (spec 20 R406). -/
def State.stopGrid (s : State) (g : Nat) : State :=
  let f := s.teams.foldl (fun f T => if T.grid == g && T.live then f ||| T.liveFlags else f) 0
  let s := s.gridFlags g f
  let s := s.teams.foldl (fun s T => if T.grid == g && T.live then s.reportUndelivered T else s) s
  { s with
    teams := s.teams.map fun T => if T.grid == g && T.live then T.discard else T
    eng := { s.eng with
      cards := s.eng.cards.map fun C => if C.grid == g && C.cancel.isNone then { C with cancel := some 15 } else C } }

/-- The halt of a grid by a trap of group `g` of team `t` (spec 20 R406, 15 R307). -/
def State.haltTeam (s : State) (t g : Nat) : State :=
  let T := s.team t
  let G := s.grp t g
  let gr := s.grid T.grid
  let rep : TrapReport :=
    ⟨BitVec.ofNat 32 T.idx, g, T.core, G.trapCause, G.trapMask, G.trapD0, G.trapD1, G.trapD2,
      BitVec.ofNat 32 (G.trapPc.toNat - gr.kernel.codeBase)⟩
  let own := s.recordGrid T.grid
  let s := s.stopGrid T.grid
  let s := s.modGrid T.grid fun G => { G with halted := true }
  let s := s.modGrid own fun G => { G with report := { G.report with
    trap := match G.report.trap with
      | none => some rep
      | some r => some r
    status := if gr.par.card.isNone then 10 else G.report.status } }
  let r := { (s.grid own).report with trap := some rep }
  s.logEvent 1 gr.par.ctx (s.grid own).par.ltag
    (leBytes 4 (gstat r (s.grid own).rung 0 false false) ++ leBytes 4 (gflags r) ++
      leBytes 8 r.errAddr.toNat ++ leBytes 4 r.errKind ++ trapFields r.trap)

/-- Group `g` of team `t` takes a trap at offset `pc` of its code (spec 20 R401, R403, R406): its trap registers are set;
the kernel's handler is entered, or the team is halted (no handler, a nested trap, or a fatal cause). (DEDUCED, log 199.) -/
def State.takeTrap (s : State) (t g : Nat) (x : TrapInfo) (async : Bool) (pc nextPc : W32) : State :=
  let K := s.kernelOf t
  let nested := (s.grp t g).inh
  let halt := nested || x.fatal || K.trapOff == 0xFFFFFFFF
  let addr : W64 := BitVec.ofNat 64 ((K.codeBase + pc.toNat) % 2 ^ 57)
  let s := s.modGroup t g fun G => G.setTrap x (nested || !halt) async addr nextPc
  if halt then s.haltTeam t g
  else s.modGroup t g fun G => G.enterHandler K.trapOff

/-- The offset of the word after the unit at `pc` (spec 20 R401). -/
def afterUnit (pc : W32) (m : Mods) : W32 :=
  pc + BitVec.ofNat 32 (4 * (1 + m.lit.toList.length + m.ext.toList.length))

/-- What the lanes of an instance have gathered for its instruction is dropped. -/
def State.dropGathered (s : State) (c : Inst) : State :=
  s.modGroup c.team c.group fun G => G.mapLanes fun l L =>
    if c.mask.getLsbD l then { L with tries := 0, bad := [], waitFor := none, segFail := none } else L

/-- A trap taken by the instance at issue. -/
def State.instTrap (s : State) (c : Inst) (m : Mods) (x : TrapInfo) : State :=
  (s.dropGathered c).takeTrap c.team c.group x false c.pc (afterUnit c.pc m)

/-! ## Parking and waiting at issue -/

/-- Whether an operation that lanes of team `t` wait for, as (team, tile, operations to end), has not ended. One stopped by
pre-emption has not ended, and resumes with its team; a drain of another team counts while that team is bound to the core of `t`
(spec 14 R295, R300). -/
def State.opPending (s : State) (t : Nat) (x : Nat × Nat × Nat) : Bool :=
  let T := s.team x.1
  (if x.1 == t then T.live else (T.status == .running || T.status == .switchedOut) && T.core == (s.team t).core) &&
    match T.tiles[x.2.1]? with
    | some y => decide (y.ended < x.2.2)
    | none => false

/-- Whether a park's condition still holds it: pages, lines, FIFO, or a segment's replay (spec 10 R201, R203, R211). (DEDUCED, log 164.) -/
def State.parkHolds (s : State) (t : Nat) (p : Park) : Bool :=
  !p.pages.isEmpty || !p.segs.isEmpty ||
  p.tiles.any (s.opPending t) ||
  p.lines.any (fun x => (s.team x.1).absent.contains x.2) ||
  (!p.fifo.isEmpty && p.fifo.all fun b =>
    match (s.team t).banks[b / 2]? with
      | none => false
      | some B =>
        if B.mode != .fifo then false
        else
          let n := (B.tail + 4096 - B.head) % 4096
          if b % 2 == 0 then n == 0 else decide (2048 ≤ n))

/-- The lanes of the parks that nothing holds become runnable. -/
def Group.wake (holds : Park → Bool) (G : Group) : Group :=
  if G.parks.isEmpty then G
  else
    let free := G.parks.filter fun p => !holds p
    let wakeLane (L : Lane) : Lane :=
      match L.status with
      | .parked id =>
        match free.find? fun p => p.id == id with
        | some p => { L with status := .run, bad := p.bad }
        | none => L
      | _ => L
    { G with parks := G.parks.filter holds, lanes := G.lanes.map wakeLane }

/-- The sub-groups whose condition has ended become runnable, their lanes to execute their instruction again. -/
def State.wakeParks (s : State) : State :=
  { s with teams := mapIdx (fun t T => { T with groups := T.groups.map (Group.wake (s.parkHolds t)) }) s.teams }

/-- The lanes of a mask park as one sub-group (spec 07 R133). -/
def State.park (s : State) (t g : Nat) (mask : LaneMask) (p : Park) : State :=
  let id := s.mm.parkId
  let s := { s with mm := { s.mm with parkId := id + 1 } }
  s.modGroup t g fun G =>
    { G.mapLanes (fun l L => if mask.getLsbD l then { L with status := .parked id, stall := none } else L) with
      parks := G.parks ++ [{ p with id := id }] }

/-- The instance at issue waits at issue: its lanes are not ready until another event has happened (spec 19 R387). (DEDUCED, log 10.) -/
def State.stall (s : State) (c : Inst) : State :=
  s.modGroup c.team c.group fun G =>
    G.mapLanes fun l L => if c.mask.getLsbD l then { L with stall := some s.sched.events } else L

/-! ## Rejoin masks and barriers (spec 07 R137, 19 R390) -/

/-- The rejoin masks in use: the second set in handler mode (spec 20 R403). -/
def Group.masks (G : Group) : List W64 := if G.inh then G.jh else G.j
def Group.setMask (G : Group) (n : Nat) (v : W64) : Group :=
  if G.inh then { G with jh := modNth G.jh n fun _ => v } else { G with j := modNth G.j n fun _ => v }
def enrOf (j : W64) : LaneMask := j.extractLsb' 0 32
def arrOf (j : W64) : LaneMask := j.extractLsb' 32 32
def maskOf (arr enr : LaneMask) : W64 := arr ++ enr

/-- A lane goes on at the word after the one it waits at. -/
def Lane.goOn (L : Lane) : Lane := { L with status := .run, pc := L.resume }

/-- Release(jn) of R137 on the set of masks `hm` names (the handler's or the kernel's). -/
def Group.release (G : Group) (hm : Bool) (n : Nat) : Group :=
  let j := (if hm then G.jh else G.j).getD n 0
  if enrOf j != 0 && enrOf j &&& ~~~arrOf j == 0 then
    let G := G.mapLanes fun l L => if L.status == .rejoin n && (arrOf j).getLsbD l then L.goOn else L
    if hm then { G with jh := modNth G.jh n fun _ => 0 } else { G with j := modNth G.j n fun _ => 0 }
  else G

/-- The teams of a team's cluster team-set that stand dispatched, by serial number; none when one is not dispatched yet. -/
def State.setMates (s : State) (t : Nat) : Option (List Nat) :=
  let T := s.team t
  let m := (s.kernelOf t).setSize
  let base := T.idx / m * m
  (List.range m).mapM fun r =>
    ((indexed s.teams).find? fun x => x.2.grid == T.grid && x.2.idx == base + r).map (·.1)

/-- Whether a lane has arrived at a barrier. -/
def Lane.arrived (L : Lane) (cluster : Bool) (n : Nat) : Bool := match L.status with
  | .barrier c k _ => c == cluster && k == n
  | _ => false

/-- Whether every lane of a team that has not exited has arrived at a barrier. -/
def Team.allArrived (T : Team) (cluster : Bool) (n : Nat) : Bool :=
  T.groups.all fun G => G.lanes.all fun L => L.isExited || L.arrived cluster n

/-- A lane that waits at a barrier goes on. -/
def Lane.leaveBar (cluster : Bool) (n : Nat) (L : Lane) : Lane := if L.arrived cluster n then L.goOn else L

/-- Every lane of a team that waits at a barrier goes on. -/
def Team.releaseBar (T : Team) (cluster : Bool) (n : Nat) : Team :=
  { T with groups := T.groups.map fun G => { G with lanes := G.lanes.map (Lane.leaveBar cluster n) } }

/-- Release of the team barriers and cluster barriers of a team whose expected lanes have all arrived (spec 19 R390). -/
def State.checkBarriers (s : State) (t : Nat) : State :=
  let s := (List.range 8).foldl (fun s n =>
    if (s.team t).allArrived false n then s.modTeam t fun T => T.releaseBar false n else s) s
  match s.setMates t with
  | none => s
  | some ms => (List.range 8).foldl (fun s n =>
      if ms.all fun u => (s.team u).allArrived true n then
        ms.foldl (fun s u => s.modTeam u fun T => T.releaseBar true n) s
      else s) s

/-! ## Handler mode left, lanes and groups ended (spec 20 R405, 07 R137, R144) -/

/-- Whether every lane of HMASK waits at ERET or has exited. (DEDUCED, log 22.) -/
def Group.handlerDone (G : Group) : Bool :=
  (List.range 32).all fun l => !G.hmask.getLsbD l || (G.lane l).isExited || (G.lane l).status == .eret

/-- The lanes of HMASK that stand at ERET. -/
def Group.eretLanes (G : Group) : LaneMask :=
  laneMask fun l => G.hmask.getLsbD l && (G.lane l).status == .eret

/-- The return from handler mode (spec 20 R405): queues, flags and rejoin masks restored, each lane at its EPC. -/
def Group.leaveHandler (G : Group) : Group :=
  let back := G.eretLanes
  { G.mapLanes (fun l L =>
      if back.getLsbD l then
        { L with
          q := L.savedQ, sickQ := L.savedSick, bad := L.savedBad, savedBad := [], pc := L.epc, status := .run, stall := none }
      else L) with
    flags := BitVec.ofNat 32 (setBits G.flags.toNat 0 5 G.savedFlags.toNat)
    trapCause := BitVec.ofNat 32 (setBits G.trapCause.toNat 31 1 0)
    sel := [] }

/-- The return of group `g` of team `t`, when every lane of HMASK stands at ERET or has exited: an EPC outside the code is a
nested trap (spec 20 R405). -/
def State.tryLeave (s : State) (t g : Nat) : State :=
  let G := s.grp t g
  if !G.inh || !G.handlerDone then s
  else
    let size := (s.kernelOf t).codeSize
    let back := G.eretLanes
    let bad := laneMask fun l => back.getLsbD l &&
      ((G.lane l).epc.toNat % 4 != 0 || decide (size ≤ (G.lane l).epc.toNat))
    match maskLanes bad with
    | [] => s.modGroup t g Group.leaveHandler
    | l :: _ =>
      s.takeTrap t g (trapOf 8 l 6 0x20 (G.lane l).epc 0 bad) false (G.lane l).pc ((G.lane l).pc + 4)

/-- A group whose 32 lanes have exited ends: its flags go to the record (spec 07 R144, 02 R53). -/
def State.tryEndGroup (s : State) (t g : Nat) : State :=
  let G := s.grp t g
  if G.ended || !(G.lanes.all Lane.isExited) then s
  else
    let s := s.gridFlags (s.team t).grid (G.flags.extractLsb' 0 5)
    s.modGroup t g fun G => { G with ended := true, parks := [], resident := false }

/-- The lanes of a mask exit (spec 07 R137, 20 R404). (DEDUCED, log 25.) -/
def State.exitLanes (s : State) (t g : Nat) (mask : LaneMask) : State :=
  let clear (j : W64) : W64 := maskOf (arrOf j &&& ~~~mask) (enrOf j &&& ~~~mask)
  let s := s.modGroup t g fun G =>
    let hm := G.inh
    let G := G.mapLanes fun l L => if mask.getLsbD l then { L with status := .exited, stall := none } else L
    let G := { G with j := G.j.map clear, jh := if hm then G.jh.map clear else G.jh }
    let G := (List.range 8).foldl (fun G n => G.release false n) G
    if hm then (List.range 8).foldl (fun G n => G.release true n) G else G
  let s := s.checkBarriers t
  let s := s.tryLeave t g
  s.tryEndGroup t g

/-! ## Retirement (spec 07 R131-R136, 01 R19) -/

/-- The end of an instance: lane `l` goes on at `next l` (none: it stays, parked or waiting, or has exited), from the state
`s1` that holds the instruction's effects. A next offset outside the code is the trap of R19, taken from `s0`. (DEDUCED, log 194.) -/
def finish (c : Inst) (m : Mods) (next : Nat → Option W32) (s0 s1 : State) : Res :=
  let size := (s0.instKernel c).codeSize
  let G0 := s0.instGrp c
  let out (l : Nat) : Bool := match next l with
    | some n => decide (size ≤ n.toNat)
    | none => false
  let bad := laneMask fun l => c.mask.getLsbD l && !(G0.lane l).helper && out l
  match maskLanes bad with
  | l :: _ => .next (s0.instTrap c m (trapOf 7 l 11 0x20 ((next l).getD 0) 0 bad))
  | [] => .next (s1.modGroup c.team c.group fun G => G.mapLanes fun l L =>
      match (if c.mask.getLsbD l then next l else none) with
      | some n => { L with pc := n, stall := none, bad := [], waitFor := none, tries := 0 }
      | none => L)

/-- The end of an instance whose lanes go on at the next word, but for those of `stay`. -/
def finishSeq (c : Inst) (m : Mods) (stay : LaneMask) (s0 s1 : State) : Res :=
  finish c m (fun l => if stay.getLsbD l then none else some (afterUnit c.pc m)) s0 s1

/-- The end of an instance in which the lanes of `stay` wait or leave, whose next word lies inside the code all the same:
a fall-through out of the code traps at this instruction (spec 01 R19). -/
def finishWait (c : Inst) (m : Mods) (stay : LaneMask) (s0 s1 : State) : Res :=
  let n := afterUnit c.pc m
  if decide ((s0.instKernel c).codeSize ≤ n.toNat) then finish c m (fun _ => some n) s0 s1
  else finishSeq c m stay s0 s1

/-- An event row performed when what it needs is not there (no such card, grid, port or outstanding request, a GO bit that is 0):
the event does not take place, and nothing changes. (DESIGN CHOICE, log 13.) -/
def notDue (s : State) : Res := .next s

/-- A meaning runs for the instance at issue. (DEDUCED, log 14.) -/
def withInst (s : State) (k : Inst → Res) : Res :=
  match s.sched.cur with
  | none => .fault .noInstance
  | some c => k c

/-- A trap of the instance at issue, as an outcome. -/
def trapRes (s : State) (c : Inst) (m : Mods) (x : TrapInfo) : Res := .next (s.instTrap c m x)

/-- A wait at issue, as an outcome. -/
def stallRes (s : State) (c : Inst) : Res := .next (s.stall c)

/-! ## Guards (spec 05 R102) -/

/-- Active() of the instance at issue for a guard field and the extension's GN. -/
def activeOf (s : State) (c : Inst) (g : Nat) (neg : Bool) : LaneMask :=
  let G := s.instGrp c
  laneMask fun l => c.mask.getLsbD l && ((G.lane l).pred g != neg)

/-- GN of the extension. -/
def guardNeg (m : Mods) : Bool := match m.ext with
  | some e => e.gn
  | none => false
/-- IMM16 of the extension. -/
def immOf (m : Mods) : BitVec 16 := match m.ext with
  | some e => e.imm16
  | none => 0
/-- MOD3 of the extension. -/
def mod3Of (m : Mods) : Nat := match m.ext with
  | some e => e.mod3.toNat
  | none => 0
/-- MOD1 of the extension. -/
def mod1Of (m : Mods) : Bool := match m.ext with
  | some e => e.mod1 == 1
  | none => false
/-- XOP of the extension. -/
def xopOf (m : Mods) : BitVec 4 := match m.ext with
  | some e => e.xop
  | none => 0

/-- The lowest lane of a mask that is not a helper lane (spec 07 R139). -/
def electLane (G : Group) (mask : LaneMask) : Option Nat :=
  (maskLanes mask).find? fun l => !(G.lane l).helper

end Sys2Proof.Machine
end

