-- ==== Sys2Proof/Machine/Directory.lean ====
section
/-! DEFINITION. The home directory of this device's lines: remote holders, recalls and what they block; and the messages that wait
to leave on the fabric (spec 10 R204, 12 R244-R247). -/

namespace Sys2Proof.Machine

/-- The number of peers. -/
def peerCount : Nat := 2257

/-- A message put among those that wait to leave. -/
def State.post (s : State) (peer : Nat) (msg : FabMsg) : State :=
  { s with fab := { s.fab with outbox := s.fab.outbox ++ [⟨peer, msg⟩] } }

/-! ## Entries -/

/-- The group of 36 peers that a bit of a coarse entry covers. -/
def groupBit (p : Nat) : W64 := 1#64 <<< (p / 36)

/-- Whether a peer may hold a copy, as far as the entry tells. -/
def DirEntry.holds (d : DirEntry) (p : Nat) : Bool :=
  if d.coarse then d.groups &&& groupBit p != 0 else d.holders.contains p
/-- Whether a peer besides `p` may hold a copy. -/
def DirEntry.others (d : DirEntry) (p : Nat) : Bool := d.coarse || d.holders.any (· != p)

/-- The peers that an invalidation goes to, for a device of number `self`. -/
def DirEntry.asked (d : DirEntry) (self : Nat) : List Nat :=
  if d.coarse then (List.range peerCount).filter fun p => p != self && d.holds p else d.holders

/-- A holder added: the fifth makes the entry coarse. -/
def DirEntry.add (d : DirEntry) (p : Nat) : DirEntry :=
  if d.coarse then { d with groups := d.groups ||| groupBit p, copies := d.copies + 1 }
  else if d.holders.contains p then d
  else if decide (d.holders.length < 4) then { d with holders := p :: d.holders }
  else { d with holders := [], groups := d.holders.foldl (fun g x => g ||| groupBit x) (groupBit p), copies := 5 }

/-- A copy given up by its holder: an entry with no copy left tracks precisely again. -/
def DirEntry.drop (d : DirEntry) (p : Nat) : DirEntry :=
  if d.coarse then
    (if !d.holds p then d
     else if decide (d.copies ≤ 1) then { d with groups := 0, copies := 0, owned := false }
     else { d with copies := d.copies - 1 })
  else { d with holders := d.holders.filter (· != p), owned := d.owned && !(d.holders.filter (· != p)).isEmpty }

/-! ## The directory -/

/-- A directory entry replaced; one without copies is dropped. -/
def State.setDir (s : State) (d : DirEntry) : State :=
  let rest := s.fab.dir.filter fun x => x.line != d.line
  { s with fab := { s.fab with dir := if !d.any && d.waitAck.isEmpty then rest else d :: rest } }

/-- Invalidations or recalls sent to the remote holders of a line, but not to `keep`; their acknowledgements are awaited. -/
def State.recallBut (s : State) (line : Nat) (keep : Option Nat) : State :=
  match s.dirEntry line with
  | none => s
  | some d =>
    if !d.waitAck.isEmpty then s
    else
      let asked := (d.asked s.peerNo).filter fun p => some p != keep
      let s := s.setDir { d with
        holders := match keep with
          | some p => if d.holds p then [p] else []
          | none => []
        groups := 0
        copies := 0
        waitAck := asked
        owned := d.owned && !asked.isEmpty }
      asked.foldl (fun s p => s.post p (.recall line)) s

/-- Every remote copy of a line asked back. -/
def State.recallLine (s : State) (line : Nat) : State := s.recallBut line none

/-- The holders of every line of a list asked for their copies. -/
def State.recallLines (s : State) (lines : List Nat) : State := lines.foldl State.recallLine s

/-- The lines of `n` bytes at a key that other packages hold modified, or are giving up. -/
def State.heldIn (s : State) (a n : Nat) : List Nat :=
  (s.fab.dir.map (·.line) ++ s.fab.locks.map (·.1)).eraseDups.filter fun l => decide (a / 128 ≤ l) && decide (l * 128 < a + n) && s.dirBlocks l false

/-- An event of the hub that reads `n` bytes of this device's memory at a key: it waits until other packages have given up their lines
(spec 10 R204). -/
def hubRead (me : Instr) (a n : Nat) (s : State) (k : State → Res) : Res :=
  if (s.heldIn a n).isEmpty then k (s.letGo me) else .next (State.holdBack (s.recallLines (s.heldIn a n)) me)

/-- Events that waited for their line of the ring written as far as they can be; the holders of the next line are asked for it. A log
that has been disabled takes none. -/
def State.flushEvents (s : State) : State :=
  if s.hub.events.isEmpty then s
  else
    s.hub.events.foldl (fun s e =>
      if s.regs.elSize == 0 then s
      else if s.hub.events.isEmpty && !s.eventBlocked then s.putEvent e
      else
        let s := match s.eventKey with
          | some k => s.recallLine (k / 128)
          | none => s
        { s with hub := { s.hub with events := s.hub.events ++ [e] } }) { s with hub := { s.hub with events := [] } }

end Sys2Proof.Machine
end

