-- ==== Sys2Proof/Machine/Layout.lean ====
section
/-! DEFINITION. Layout words and tile addresses (spec 01 R21-R28), shape records (R29-R33) and source fields (spec 13
Table 13-3). -/

namespace Sys2Proof.Machine

/-- The width of an element format code of Table 1-5; none for a reserved code. -/
def fmtBits : Nat → Option Nat
  | 0x01 => some 64 | 0x02 => some 32 | 0x03 => some 16 | 0x04 => some 16 | 0x05 => some 8 | 0x06 => some 8
  | 0x07 => some 4 | 0x08 => some 8 | 0x09 => some 8 | 0x0A => some 4 | 0x10 => some 8 | 0x11 => some 16
  | 0x12 => some 32 | 0x13 => some 64 | 0x14 => some 8 | 0x15 => some 16 | 0x16 => some 32 | 0x17 => some 64
  | 0x30 => some 6 | 0x31 => some 6 | 0x32 => some 4 | _ => none

/-- Whether a format code is block-scaled (spec 01 R28). -/
def isMx (c : Nat) : Bool := c == 8 || c == 9 || c == 10 || c == 0x30 || c == 0x31

/-- A layout word's fields (spec 01 Table 1-6). -/
structure Layout where
  t    : Bool
  pad  : Nat
  logc : Nat
  logr : Nat
  leaf : Nat
  fmt  : Nat
  bits : Nat
  deriving DecidableEq, Repr

/-- A layout word read; none when it is invalid (spec 01 R23, R28). -/
def parseLayout (w : W32) : Option Layout :=
  let x := w.toNat
  let logc := bitsOf x 20 4
  let logr := bitsOf x 16 4
  let leaf := bitsOf x 14 2
  let fmt := bitsOf x 0 8
  match fmtBits fmt with
  | none => none
  | some b =>
    if decide (2 ≤ logr) && decide (logr ≤ 8) && decide (2 ≤ logc) && decide (logc ≤ 8) && decide (leaf < 2) &&
      bitsOf x 28 3 == 0 && bitsOf x 8 6 == 0 && (!isMx fmt || decide (5 ≤ logc))
    then some ⟨w.getLsbD 31, bitsOf x 24 4, logc, logr, leaf, fmt, b⟩
    else none

/-- Stored rows. -/
def Layout.R (y : Layout) : Nat := 2 ^ y.logr
/-- Stored columns. -/
def Layout.C (y : Layout) : Nat := 2 ^ y.logc
/-- Bytes of a stored tile. -/
def Layout.bytes (y : Layout) : Nat := y.R * y.C * y.bits / 8
/-- Bytes from one tile of a tensor to the next (spec 01 R27). -/
def Layout.stride (y : Layout) : Nat := y.bytes + 128 * y.pad
/-- The alignment of a tile base (spec 01 R26). -/
def Layout.align (y : Layout) : Nat := min y.bytes 128
/-- Rows of the operand (spec 01 R25). -/
def Layout.rop (y : Layout) : Nat := if y.t then y.C else y.R
/-- Columns of the operand. -/
def Layout.cop (y : Layout) : Nat := if y.t then y.R else y.C

/-- Bits 0 to h-1 of the leaf coordinates interleaved: column bits at even places, row bits at odd (spec 01 R24). -/
def interleave : Nat → Nat → Nat → Nat
  | 0, _, _ => 0
  | h + 1, lr, lc => lc % 2 + 2 * (lr % 2) + 4 * interleave h (lr / 2) (lc / 2)

/-- The leaf index M of R24. -/
def leafIndex (logr logc lr lc : Nat) : Nat :=
  let hr := logr - 2
  let hc := logc - 2
  let h := min hr hc
  interleave h lr lc + 4 ^ h * (if h < hr then lr / 2 ^ h else lc / 2 ^ h)

/-- The element index of stored element (i, j) (spec 01 R24). -/
def Layout.index (y : Layout) (i j : Nat) : Nat :=
  16 * leafIndex y.logr y.logc (i / 4) (j / 4) +
    (if y.leaf == 0 then 4 * (i % 4) + j % 4 else 4 * (j % 4) + i % 4)

/-- The bit offset of stored element (i, j) from the tile base. -/
def Layout.bitOff (y : Layout) (i j : Nat) : Nat := y.index i j * y.bits

/-- The number of the tile that holds stored element (r, c) of a tensor of `e1` stored columns (spec 01 R27). -/
def Layout.tileNo (y : Layout) (e1 r c : Nat) : Nat := r / y.R * ceilDiv e1 y.C + c / y.C

/-- The byte offset of the tile and the bit offset within it of stored element (r, c) of a tensor. -/
def Layout.tensorAt (y : Layout) (e1 r c : Nat) : Nat × Nat :=
  (y.tileNo e1 r c * y.stride, y.bitOff (r % y.R) (c % y.C))

/-- Bytes from the base to the end of the last tile of a tensor of stored extents (e0, e1). -/
def Layout.tensorBytes (y : Layout) (e0 e1 : Nat) : Nat :=
  ceilDiv e0 y.R * ceilDiv e1 y.C * y.stride

/-- The byte offset of the scale of stored element (r, c) of a tensor from its scale array (spec 13 R269). -/
def Layout.scaleAt (y : Layout) (e1 r c : Nat) : Nat :=
  y.tileNo e1 r c * (y.R * y.C / 32) + r % y.R * (y.C / 32) + c % y.C / 32

/-- Elements of a run of a tile access (spec 11 R228, R232), for rows of `n` elements. -/
def Layout.runLen (y : Layout) (n : Nat) : Nat := if y.bits == 6 then min 16 n else min (128 / y.bits) n

/-! ## Shape records (spec 01 R29-R33) -/

/-- A shape record's fields. -/
structure Shape where
  nocross  : Bool
  rank     : Nat
  fmt      : Nat
  layout   : W32
  version  : W32
  nseq     : Nat
  ext      : List Nat
  base     : Nat
  table    : List Nat
  reserved : Bool
  deriving DecidableEq, Repr

/-- A record read from its header and table bytes. -/
def parseShape (bs : List Byte) : Shape :=
  let shdr := fieldAt bs 0 4
  let nseqW := fieldAt bs 12 4
  let nseq := nseqW % 2 ^ 16
  { nocross := bitsOf shdr 16 1 == 1
    rank := bitsOf shdr 8 4
    fmt := bitsOf shdr 0 8
    layout := BitVec.ofNat 32 (fieldAt bs 4 4)
    version := BitVec.ofNat 32 (fieldAt bs 8 4)
    nseq := nseq
    ext := (List.range 4).map fun i => fieldAt bs (16 + 4 * i) 4
    base := fieldAt bs 32 8
    table := if decide (512 < nseq) then [] else (List.range nseq).map fun k => fieldAt bs (64 + 4 * k) 4
    reserved := bitsOf shdr 17 15 != 0 || bitsOf shdr 12 4 != 0 || nseqW / 2 ^ 16 != 0 ||
      fieldAt bs 32 8 / 2 ^ 57 != 0 || fieldAt bs 40 24 != 0 }

/-- Whether a list does not fall. -/
def nonFalling : List Nat → Bool
  | a :: b :: r => decide (a ≤ b) && nonFalling (b :: r)
  | _ => true

/-- Whether a record is malformed (spec 01 R31). -/
def Shape.malformed (r : Shape) : Bool :=
  decide (512 < r.nseq) || r.reserved || r.rank == 0 || decide (4 < r.rank) ||
  ((List.range 4).any fun d => decide (r.rank ≤ d) && r.ext.getD d 0 != 1) ||
  (match parseLayout r.layout with
    | none => true
    | some y => y.fmt != r.fmt) ||
  (decide (0 < r.nseq) &&
    (r.table.getD 0 0 != 0 || !nonFalling r.table || decide (r.ext.getD 0 0 < r.table.getD (r.nseq - 1) 0)))

/-- The first row of sequence k (spec 01 R30). -/
def Shape.start (r : Shape) (k : Nat) : Nat := if r.nseq = 0 then 0 else r.table.getD k 0
/-- One past the last row of sequence k. -/
def Shape.stop (r : Shape) (k : Nat) : Nat :=
  if k + 1 < r.nseq then r.table.getD (k + 1) 0 else r.ext.getD 0 0
/-- The number of the sequence that holds a row; none for a row at or beyond EXT0. -/
def Shape.seqOf (r : Shape) (row : Nat) : Option Nat :=
  if decide (r.ext.getD 0 0 ≤ row) then none
  else (List.range (max r.nseq 1)).find? fun k => decide (r.start k ≤ row) && decide (row < r.stop k)

/-! ## Source fields (spec 13 Table 13-3) -/

/-- A source field's parts; `bad` when a bit that must be zero is set. -/
structure Source where
  space : Nat
  rank  : Nat
  addr  : Nat
  bad   : Bool
  deriving DecidableEq, Repr

/-- A source field read. -/
def parseSource (w : W64) : Source :=
  let x := w.toNat
  let space := bitsOf x 62 2
  let rank := bitsOf x 59 3
  let addr := bitsOf x 0 57
  ⟨space, rank, addr, bitsOf x 57 2 != 0 || (space != 2 && rank != 0) ||
    ((space == 1 || space == 2) && decide (2 ^ 32 ≤ addr))⟩

end Sys2Proof.Machine
end

