-- ==== Sys2Proof/Machine/Footprint.lean ====
section
/-! DEFINITION. Footprints: the regions of job cards (spec 17 R349-R355) and of tile operations (spec 13 R270, 14 R287), and
which later accesses of the issuing team they hold back. -/

namespace Sys2Proof.Machine

/-- A byte range that an engine reads or writes: global (`dom` the context) or a team's scratchpad (256 + its serial). -/
structure Region where
  dom   : Nat
  start : Nat
  len   : Nat
  write : Bool
  deriving DecidableEq, Repr

/-- Whether two ranges share a 128-byte line (spec 17 R355). -/
def sameLine (a la b lb : Nat) : Bool :=
  decide (0 < la) && decide (0 < lb) && decide (a / 128 ≤ (b + lb - 1) / 128) && decide (b / 128 ≤ (a + la - 1) / 128)

/-- Whether two ranges share a byte. -/
def sameByte (a la b lb : Nat) : Bool := decide (a < b + lb) && decide (b < a + la) && decide (0 < la) && decide (0 < lb)

/-- Whether two regions overlap (spec 17 R355). -/
def Region.overlaps (x y : Region) : Bool := x.dom == y.dom && sameLine x.start x.len y.start y.len

/-! ## Cards -/

/-- Card kinds (spec 17 Table 17-3). -/
def kCopy : Nat := 1
def kCopy2d : Nat := 2
def kGather : Nat := 3
def kFill : Nat := 4
def kRast : Nat := 5
def kRastAdj : Nat := 6
def kEdge : Nat := 7
def kAllRed : Nat := 8
def kAllGath : Nat := 9
def kRedScat : Nat := 10

/-- Field helpers of a card's bytes. -/
def Card.f (C : Card) (off len : Nat) : Nat := fieldAt C.bytes off len
def Card.kind (C : Card) : Nat := C.f 3 1
def Card.detach (C : Card) : Bool := bitsOf (C.f 0 4) 15 1 == 1
def Card.rel (C : Card) : Bool := bitsOf (C.f 0 4) 14 1 == 1
def Card.booff (C : Card) : Nat := C.f 4 4
def Card.crec (C : Card) : Nat := C.f 8 8
def Card.reltime (C : Card) : Nat := C.f 0x10 8
def Card.nprim (C : Card) : Nat := C.f 0x3E 2
def Card.isBytes (C : Card) : Bool := C.kind != kRast && C.kind != kRastAdj && C.kind != kEdge

/-- Bytes of an element of a collective's format. -/
def collElem (fmt : Nat) : Nat := if fmt == 2 || fmt == 0x12 then 4 else 2
def Card.cctl (C : Card) : Nat := C.f 0x34 4
def Card.collEsize (C : Card) : Nat := collElem (bitsOf C.cctl 24 8)
def Card.nrank (C : Card) : Nat := bitsOf C.cctl 8 12
def Card.nelem (C : Card) : Nat := C.f 0x30 4

/-- Bytes of a collective's input. -/
def Card.collIn (C : Card) : Nat :=
  if C.kind == kRedScat then C.nrank * C.nelem * C.collEsize else C.nelem * C.collEsize
/-- Bytes of a collective's output. -/
def Card.collOut (C : Card) : Nat :=
  if C.kind == kAllGath then C.nrank * C.nelem * C.collEsize else C.nelem * C.collEsize

/-- The total count of Table 17-3. -/
def Card.total (C : Card) : Nat :=
  if C.kind == kCopy || C.kind == kFill then C.f 0x28 4
  else if C.kind == kCopy2d || C.kind == kGather then C.f 0x28 4 * C.f 0x2C 4
  else if C.kind == kRast || C.kind == kRastAdj then C.nprim
  else if C.kind == kEdge then C.f 0x30 4
  else C.collOut

/-- The number of items of Table 17-3. -/
def Card.items (C : Card) : Nat :=
  if C.kind == kCopy2d || C.kind == kGather then C.f 0x2C 4
  else if C.kind == kRast || C.kind == kRastAdj then C.nprim
  else if C.kind == kEdge then C.f 0x30 4
  else ceilDiv C.total 65536

/-- The domain and start that a source field names for a team; none while the team of that rank is not dispatched. -/
def State.place (s : State) (t : Nat) (x : Source) : Option (Nat × Nat) :=
  if x.space == 0 then some (s.ctxOf t, x.addr)
  else if x.space == 1 then some (256 + t, x.addr)
  else
    let T := s.team t
    let m := (s.kernelOf t).setSize
    ((indexed s.teams).find? fun y => y.2.grid == T.grid && y.2.idx == T.idx / m * m + x.rank).map
      fun y => (256 + y.1, x.addr)

/-- A region that a source field starts. -/
def State.regionAt (s : State) (t : Nat) (w : W64) (len : Nat) (write : Bool) : List Region :=
  match s.place t (parseSource w) with
  | some (d, a) => [⟨d, a, len, write⟩]
  | none => []

/-- A global region. -/
def State.regionG (s : State) (t a len : Nat) (write : Bool) : Region := ⟨s.ctxOf t, a % 2 ^ 57, len, write⟩

/-- The regions of a card of team `t` (spec 17 Table 17-9). -/
def State.cardRegions (s : State) (t : Nat) (C : Card) : List Region :=
  let w (off : Nat) : W64 := BitVec.ofNat 64 (C.f off 8)
  if C.kind == kCopy then
    s.regionAt t (w 0x18) (C.f 0x28 4) false ++ s.regionAt t (w 0x20) (C.f 0x28 4) true ++
      (if C.f 0x30 8 == 0 then [] else [s.regionG t (C.f 0x30 8) (64 + 4 * 512) false])
  else if C.kind == kCopy2d then
    s.regionAt t (w 0x18) (C.f 0x30 4 * (C.f 0x2C 4 - 1) + C.f 0x28 4) false ++
      s.regionAt t (w 0x20) (C.f 0x34 4 * (C.f 0x2C 4 - 1) + C.f 0x28 4) true
  else if C.kind == kGather then
    s.regionAt t (w 0x18) (C.f 0x38 4 * C.f 0x28 4) false ++ s.regionAt t (w 0x30) (4 * C.f 0x2C 4) false ++
      s.regionAt t (w 0x20) (C.f 0x28 4 * C.f 0x2C 4) true
  else if C.kind == kFill then s.regionAt t (w 0x18) (C.f 0x28 4) true
  else if C.kind == kRast || C.kind == kRastAdj then [s.regionG t (C.f 0x18 8) (48 * C.nprim) false]
  else if C.kind == kEdge then
    [s.regionG t (C.f 0x18 8) (32 * C.f 0x30 4) false, s.regionG t (C.f 0x20 8) (48 * C.nprim) false,
      s.regionG t (C.f 0x10 8) (32 * C.f 0x34 1 * C.f 0x30 4) true]
  else
    [s.regionG t (C.f 0x18 8) C.collIn false, s.regionG t (C.f 0x28 8) (2 * C.nrank) false,
      s.regionG t (C.f 0x20 8) C.collOut true]

/-! ## Tile operations -/

/-- M and N of a DIMS word. -/
def dimM (w : Nat) : Nat := bitsOf w 0 7
def dimN (w : Nat) : Nat := bitsOf w 7 7

/-- The regions that an accepted tile operation of team `t` reads or writes (spec 13 R270, 14 R287). -/
def State.tileOpRegions (s : State) (t : Nat) (o : TileOp) : List Region :=
  let f (off len : Nat) : Nat := fieldAt o.block off len
  let w (off : Nat) : W64 := BitVec.ofNat 64 (f off 8)
  match o.kind with
  | .mzero => []
  | .mload => s.regionAt t (BitVec.ofNat 64 (fieldAt o.block 0 8)) 32768 false
  | .mma =>
    let M := dimM (f 8 4)
    let N := dimN (f 8 4)
    let K := f 12 4
    let K' := if bitsOf (f 4 4) 1 1 == 1 then K / 2 else K
    let oper (srcOff layOff scOff e0 e1 : Nat) : List Region :=
      match parseLayout (BitVec.ofNat 32 (f layOff 4)) with
      | none => []
      | some y =>
        let a := if y.t then (e1, e0) else (e0, e1)
        let src := parseSource (w srcOff)
        s.regionAt t (w srcOff) (y.tensorBytes a.1 a.2) false ++
          (if isMx y.fmt then
            (match s.place t { src with addr := f scOff 8 % 2 ^ 57 } with
              | some (d, st) => [⟨d, st, ceilDiv a.1 y.R * ceilDiv a.2 y.C * (y.R * y.C / 32), false⟩]
              | none => [])
          else [])
    [⟨256 + t, o.off, 128, true⟩] ++ oper 0x10 0x20 0x28 M K' ++ oper 0x18 0x24 0x30 K N ++
      (if bitsOf (f 4 4) 2 2 == 0 then [] else [s.regionG t (f 0x38 8) (64 + 4 * 512) false])
  | .mdrain =>
    match parseLayout (BitVec.ofNat 32 (f 0x18 4)) with
    | none => []
    | some y =>
      let M := dimM (f 8 4)
      let N := dimN (f 8 4)
      let a := if y.t then (N, M) else (M, N)
      s.regionAt t (w 0x10) (y.tensorBytes a.1 a.2) true ++
        (if isMx y.fmt then
          s.regionAt t (w 0x20) (ceilDiv a.1 y.R * ceilDiv a.2 y.C * (y.R * y.C / 32)) true
        else [])
  | .mupd =>
    let M := dimM (f 8 4)
    let P := f 12 4
    let n := M * P
    [⟨256 + t, o.off, 128, true⟩, s.regionG t (f 0x10 8) (4 * n) true, s.regionG t (f 0x18 8) n true,
      s.regionG t (f 0x20 8) (ceilDiv n 32) true, s.regionG t (f 0x28 8) n true,
      s.regionG t (f 0x30 8) (ceilDiv n 32) true, s.regionG t (f 0x38 8) (2 * n) true]

/-! ## Stores that wait (spec 13 R270, 14 R287, 17 R357) -/

/-- Whether a card still holds back a store of its team that overlaps region `r`: a raster card has read its primitives
once its walk is over. -/
def State.cardHolds (s : State) (t : Nat) (dom start len : Nat) : Bool :=
  s.eng.cards.any fun C => C.team == t && !C.ended &&
    !((C.kind == kRast || C.kind == kRastAdj) && (match C.pixGrid with
      | some g => (s.grid g).walked
      | none => false)) &&
    (s.cardRegions t C).any fun r => r.dom == dom && sameByte r.start r.len start len

/-- Whether a tile operation of the team holds back a store that overlaps its bytes. -/
def State.tileHolds (s : State) (t : Nat) (dom start len : Nat) : Bool :=
  (s.team t).tiles.any fun T => T.ops.any fun o =>
    (s.tileOpRegions t o).any fun r => r.dom == dom && sameByte r.start r.len start len

/-- Whether a store by team `t` waits for an engine. -/
def State.heldBack (s : State) (t : Nat) (dom start len : Nat) : Bool :=
  s.cardHolds t dom start len || s.tileHolds t dom start len

end Sys2Proof.Machine
end

