-- ==== Sys2Proof/Machine/Translate.lean ====
section
/-! DEFINITION. Translation: page walks, the last-page registers and core TLBs, fault records, invalidation and migration
(spec 10 R206-R215). -/

namespace Sys2Proof.Machine

/-! ## The context table (spec 20 R411) -/

/-- The key of a context's entry. -/
def State.ctxEntry (s : State) (ctx : Nat) : Nat :=
  localKey ((s.regs.ctxBase.toNat % 2 ^ 45) / 4096 * 4096 + 64 * ctx)
/-- The local physical page a context entry field names. -/
def pageField (v : Nat) : Nat := (v % 2 ^ 45) / 4096 * 4096
/-- The root table of a context. -/
def State.root (s : State) (ctx : Nat) : Nat := pageField (s.rdNat (s.ctxEntry ctx + 8) 8)
/-- The core mask of a context as 256 bits. -/
def State.ctxCores (s : State) (ctx : Nat) : Nat :=
  s.rdNat (localKey (s.rdNat (s.ctxEntry ctx + 0x30) 8 % 2 ^ 45)) 32
/-- The cores of a 256-bit mask, ascending. -/
def coresOf (mask : Nat) : List Nat := (List.range 256).filter fun c => bitsOf mask c 1 == 1

/-- Whether a context's entry is usable (spec 20 R411). -/
def State.ctxUsable (s : State) (ctx : Nat) : Bool :=
  let e := s.ctxEntry ctx
  let f (off len : Nat) : Nat := s.rdNat (e + off) len
  let field (off : Nat) : Bool := f off 8 == pageField (f off 8)
  let n := (coresOf (s.ctxCores ctx)).length
  bitsOf (f 0 4) 8 24 == 0x435801 && bitsOf (f 0 4) 0 8 == 0 && f 4 4 == 1 && field 8 && field 0x10 && f 0x1C 4 == 0 &&
    field 0x20 && f 0x2C 4 == 0 && decide (f 0x30 8 < 2 ^ 45) && f 0x38 8 == 0 &&
    decide (512 * n ≤ f 0x18 4) && decide (16 * n ≤ f 0x28 4)

/-- The lines of a context's entry and core mask that other packages hold modified (spec 10 R204). -/
def State.ctxBusy (s : State) (ctx : Nat) : List Nat :=
  let mask := localKey (s.rdNat (s.ctxEntry ctx + 0x30) 8 % 2 ^ 45)
  [s.ctxEntry ctx / 128, mask / 128, (mask + 31) / 128].filter fun l => s.dirBlocks l false

/-! ## Walks (spec 10 R207-R210) -/

/-- Where a walk ends: a malformed entry at a level, an entry with V = 0, or a leaf; or, for now, at a line of a table that another
package holds modified (spec 10 R204). (DEDUCED, log 43.) -/
inductive Walk where
  | malformed (level : Nat)
  | missing
  | leaf (f : Leaf)
  | busy (line : Nat)
  deriving DecidableEq, Repr

/-- The leaf that an entry gives for a virtual address at a level of page size 2^log2. -/
def leafOf (e va log2 : Nat) : Leaf :=
  { vbase := va / 2 ^ log2 * 2 ^ log2, log2 := log2, pbase := bitsOf e 12 45 * 4096 / 2 ^ log2 * 2 ^ log2,
    rd := bitsOf e 2 1 == 1, w := bitsOf e 3 1 == 1, x := bitsOf e 4 1 == 1, mem := bitsOf e 8 2 == 1,
    migr := bitsOf e 59 1 == 1, hold := bitsOf e 58 1 == 1 }

/-- Whether a valid entry breaks one of the rules of R208 by itself. -/
def entryBad (e level : Nat) : Bool :=
  let leaf := bitsOf e 1 1 == 1
  bitsOf e 60 4 != 0 || bitsOf e 57 1 != 0 || bitsOf e 10 2 != 0 || bitsOf e 5 2 != 0 || decide (2 ≤ bitsOf e 8 2) ||
  (level == 0 && !leaf) || (decide (3 ≤ level) && leaf) ||
  (!leaf && bitsOf e 45 12 != 0xFFF) || (bitsOf e 7 1 == 1 && level != 0) ||
  (!leaf && bitsOf e 58 2 != 0) ||
  (leaf && bitsOf e 12 (9 * level) != 0)

/-- Whether the 16 entries of a 64 KiB page agree (spec 10 R207): `at_ i` is entry i. -/
def contigOk (at_ : Nat → Nat) : Bool :=
  (List.range 16).all fun i =>
    bitsOf (at_ i) 12 4 == i && setBits (at_ i) 12 4 0 == setBits (at_ 0) 12 4 0 && bitsOf (at_ i) 0 1 == 1

/-- The walk from a table at a level (levels below `n`). -/
def State.walkFrom (s : State) (va : Nat) : Nat → Nat → Walk
  | 0, _ => .missing
  | n + 1, table =>
    let idx := bitsOf va (12 + 9 * n) 9
    let e := s.rdNat (localKey (table + 8 * idx)) 8
    if s.dirBlocks (localKey (table + 8 * idx) / 128) false then .busy (localKey (table + 8 * idx) / 128)
    else if bitsOf e 0 1 == 0 then .missing
    else if entryBad e n then .malformed n
    else if bitsOf e 1 1 == 1 then
      if bitsOf e 7 1 == 1 then
        (if contigOk fun i => s.rdNat (localKey (table + 8 * (idx / 16 * 16 + i))) 8 then .leaf (leafOf e va 16)
         else .malformed n)
      else .leaf (leafOf e va (12 + 9 * n))
    else s.walkFrom va n (bitsOf e 12 33 * 4096)

/-- The walk of a virtual address in a context. -/
def State.walk (s : State) (ctx va : Nat) : Walk :=
  if s.dirBlocks (s.ctxEntry ctx / 128) false then .busy (s.ctxEntry ctx / 128) else s.walkFrom va 5 (s.root ctx)

/-- Whether a leaf maps an address. -/
def Leaf.covers (f : Leaf) (va : Nat) : Bool := decide (f.vbase ≤ va) && decide (va < f.vbase + 2 ^ f.log2)
/-- The fabric physical address of a virtual address under a leaf. -/
def Leaf.pa (f : Leaf) (va : Nat) : Nat := f.pbase + (va - f.vbase)

/-- Translation of a lane's address: last-page register, core TLB, walk (spec 10 R209). -/
def State.lookup (s : State) (core ctx : Nat) (last : Option Leaf) (va : Nat) : Walk :=
  let viaTlb : Walk :=
    match s.mm.tlb.find? fun e => e.core == core && e.ctx == ctx && e.leaf.covers va with
    | some e => .leaf e.leaf
    | none => s.walk ctx va
  match last with
  | some f => if f.covers va then .leaf f else viaTlb
  | none => viaTlb

/-- A leaf entered into a core's TLB. -/
def State.tlbAdd (s : State) (core ctx : Nat) (f : Leaf) : State :=
  if s.mm.tlb.any fun e => e.core == core && e.ctx == ctx && e.leaf == f then s
  else { s with mm := { s.mm with tlb := ⟨core, ctx, f⟩ :: s.mm.tlb } }

/-- Translations that `hit` covers removed from every last-page register and TLB (spec 10 R214). (DESIGN CHOICE, log 126.) -/
def State.dropTranslations (s : State) (hit : Nat → Leaf → Bool) : State :=
  let dropLane (ctx : Nat) (L : Lane) : Lane :=
    match L.lastPage with
    | some f => if hit ctx f then { L with lastPage := none } else L
    | none => L
  let dropTeam (T : Team) : Team :=
    let ctx := (s.grid T.grid).par.ctx
    { T with groups := T.groups.map fun G => { G with lanes := G.lanes.map (dropLane ctx) } }
  { s with teams := s.teams.map dropTeam, mm := { s.mm with tlb := s.mm.tlb.filter fun e => !hit e.ctx e.leaf } }

/-- A page invalidation. -/
def State.invalidatePage (s : State) (ctx va : Nat) : State :=
  s.dropTranslations fun c f => c == ctx && f.covers va

/-! ## Fault records (spec 10 R211, R213) -/

/-- The page of an address as fault records name it. -/
def pageOf (va : Nat) : Nat := va / 4096 * 4096

/-- The page, of any size, that an address lies in. -/
def State.leafBase (s : State) (ctx va : Nat) : Nat := match s.walk ctx va with
  | .leaf f => f.vbase
  | _ => pageOf va

/-- One fault record exists for (context, page); a later fault joins it (spec 10 R211). -/
def State.ensureFault (s : State) (ctx page kind core : Nat) : State :=
  if s.mm.faults.any fun r => r.ctx == ctx && r.page == page then s
  else
    let (now, s) := s.lookTime
    { s with mm := { s.mm with
        faults := s.mm.faults ++ [⟨ctx, page, kind, s.mm.nextHandle, core, now, false, false⟩]
        nextHandle := s.mm.nextHandle + 1 } }

/-- A park that waits on a page counts it off; `bad` when it was resolved as unresolvable. -/
def Park.countOff (p : Park) (page : Nat) (bad : Bool) : Park :=
  if p.pages.contains page then
    { p with pages := p.pages.filter (· != page), bad := if bad then page :: p.bad else p.bad }
  else p

/-- A write's wait on a page when that page is resolved: over, or marked as one that cannot be served. -/
def PageWait.resolve (ctx page : Nat) (bad : Bool) (x : PageWait) : Option PageWait :=
  if x.ctx == ctx && x.page == page then (if bad then some { x with bad := true } else none) else some x

/-- A page of a context resolved: every sub-group, card, tile operation and write of the command processor
waiting on it counts it off (spec 10 R211, 03 R66). -/
def State.resolvePage (s : State) (ctx page : Nat) (bad : Bool) : State :=
  let opOff (o : TileOp) : TileOp :=
    if o.pages.contains page then
      { o with pages := o.pages.filter (· != page), bad := o.bad || bad }
    else o
  let teamOff (T : Team) : Team :=
    if (s.grid T.grid).par.ctx == ctx then
      { T with
        groups := T.groups.map fun G => { G with parks := G.parks.map fun p => p.countOff page bad }
        tiles := T.tiles.map fun t => { t with ops := t.ops.map opOff } }
    else T
  let cardOff (C : Card) : Card :=
    if C.ctx == ctx then
      { C with
        pages := C.pages.filter (· != page), bad := if bad && C.pages.contains page then page :: C.bad else C.bad
        recPages := C.recPages.filter (· != page)
        recBad := if bad && C.recPages.contains page then page :: C.recBad else C.recBad }
    else C
  let s := { s with
    teams := s.teams.map teamOff
    eng := { s.eng with cards := s.eng.cards.map cardOff }
    mm := { s.mm with
      faults := s.mm.faults.filter fun r => !(r.ctx == ctx && r.page == page)
      waits := s.mm.waits.filterMap (PageWait.resolve ctx page bad) } }
  s.wakeParks

/-! ## Accesses by units that are no lane -/

/-- The permission an access needs. -/
structure Need where
  rd : Bool := false
  w  : Bool := false
  x  : Bool := false
  deriving DecidableEq, Repr

/-- Whether a leaf grants a permission. -/
def Leaf.allows (f : Leaf) (n : Need) : Bool := (!n.rd || f.rd) && (!n.w || f.w) && (!n.x || f.x)

/-- Whether a leaf asks for migration (spec 10 Table 10-5, outcome 4). -/
def State.migrates (s : State) (f : Leaf) : Bool :=
  f.migr && !f.hold && keyPeer (s.normPa f.pbase) != ownPeer

/-- The kind of the fault record of a page that a unit misses: one whose leaf asks for migration is a migration record.
(DEDUCED, log 96.) -/
def State.faultKind (s : State) (ctx page kind : Nat) : Nat :=
  match s.walk ctx page with
  | .leaf f => if s.migrates f then 4 else kind
  | _ => kind

/-- How a unit's access to a page ends: at a key, with a missing page, with a failure (1 malformed, 2 no permission, 3 physical
range, 4 no such peer, 5 fabric down), or, for now, at a line of a table that another package holds. -/
inductive Unit_ where
  | ok (key : Nat) (mem : Bool)
  | missing (page kind : Nat)
  | bad (why : Nat)
  | busy (line : Nat)
  deriving DecidableEq, Repr

/-- Why a key cannot be reached: 3 reserved local address, 4 no such peer, 5 fabric down; 0 when it can. -/
def State.keyBad (s : State) (k : Nat) : Nat :=
  let p := keyPeer k
  if p == ownPeer then (if decide (hbmEnd ≤ keyLocal k) then 3 else 0)
  else if p == hostPeer then 0
  else if decide (2257 ≤ p) then 4
  else if !s.regs.fabId.getLsbD 31 then 5
  else 0

/-- Translation of a unit's access to one address (no last-page register or TLB). (DEDUCED, log 47.) -/
def State.unitAt (s : State) (ctx va : Nat) (n : Need) (kind : Nat) : Unit_ :=
  if decide (2 ^ 57 ≤ va) then .bad 1
  else match s.walk ctx va with
    | .malformed _ => .bad 1
    | .missing => .missing (pageOf va) kind
    | .busy l => .busy l
    | .leaf f =>
      if !f.allows n then .bad 2
      else if s.migrates f then .missing f.vbase 4
      else
        let k := s.normPa (f.pa va)
        match s.keyBad k with
        | 0 => .ok k f.mem
        | w => .bad w

/-- The pieces of a range that lie in one 4 KiB page each. -/
def pagePieces : Nat → Nat → Nat → List (Nat × Nat)
  | 0, _, _ => []
  | fuel + 1, a, n =>
    if n = 0 then []
    else
      let k := min n (4096 - a % 4096)
      (a, k) :: pagePieces fuel (a + k) (n - k)

/-- The pieces of a range. -/
def piecesOf (a n : Nat) : List (Nat × Nat) := pagePieces (n / 4096 + 2) a n

/-- A unit's access to a range: its (key, length) pieces; or the missing pages; or a failure; or a line of a table that another
package holds. -/
inductive UnitRange where
  | ok (ps : List (Nat × Nat × Bool))
  | missing (pages : List (Nat × Nat))
  | bad (why : Nat)
  | busy (line : Nat)
  deriving DecidableEq, Repr

def State.unitRange (s : State) (ctx a n : Nat) (nd : Need) (kind : Nat) : UnitRange :=
  (piecesOf a n).foldr (fun p acc =>
    match s.unitAt ctx p.1 nd kind, acc with
    | .bad w, _ => .bad w
    | _, .bad w => .bad w
    | .busy l, _ => .busy l
    | _, .busy l => .busy l
    | .missing g k, .missing gs => .missing ((g, k) :: gs)
    | .missing g k, .ok _ => .missing [(g, k)]
    | .ok _ _, .missing gs => .missing gs
    | .ok k m, .ok ps => .ok ((k, p.2, m) :: ps)) (.ok [])

/-- The bytes of pieces. -/
def State.rdPieces (s : State) (ps : List (Nat × Nat × Bool)) : List Byte := ps.flatMap fun p => s.rd p.1 p.2.1

/-- Bytes written over pieces, in order. -/
def State.wrPieces (s : State) : List (Nat × Nat × Bool) → List Byte → State
  | [], _ => s
  | p :: ps, bs => (s.wr p.1 (bs.take p.2.1)).wrPieces ps (bs.drop p.2.1)

/-- Whether a byte of pieces is poisoned. -/
def State.piecesPoisoned (s : State) (ps : List (Nat × Nat × Bool)) : Bool := ps.any fun p => s.poisoned p.1 p.2.1

/-! ## Migration (spec 10 R215) -/

/-- The key of the leaf entry that maps an address at its level, for the migration unit's write of HOLD. -/
def State.leafKeyFrom (s : State) (va : Nat) : Nat → Nat → Option Nat
  | 0, _ => none
  | n + 1, table =>
    let k := localKey (table + 8 * bitsOf va (12 + 9 * n) 9)
    let e := s.rdNat k 8
    if bitsOf e 0 1 == 0 then none
    else if bitsOf e 1 1 == 1 then some k
    else s.leafKeyFrom va n (bitsOf e 12 33 * 4096)

/-- HOLD of a page's leaf written: in all 16 entries of a 64 KiB page. -/
def State.writeHold (s : State) (ctx va : Nat) (b : Bool) : State :=
  let put (s : State) (k : Nat) : State := s.wr k (leBytes 8 (setBits (s.rdNat k 8) 58 1 (if b then 1 else 0)))
  match s.leafKeyFrom va 5 (s.root ctx) with
  | none => s
  | some k =>
    if bitsOf (s.rdNat k 8) 7 1 == 1 then (List.range 16).foldl (fun s i => put s (k / 128 * 128 + 8 * i)) s else put s k

end Sys2Proof.Machine
end

