-- ==== Sys2Proof/Machine/Fabric.lean ====
section
/-! DEFINITION. The fabric as accesses meet it: peers as points of the plane and their routes, messages, requests, proxy
entries, and when a byte range of any peer can be read or written (spec 12 R242-R259). -/

namespace Sys2Proof.Machine

/-! ## Topology (spec 12 R249-R252) -/

/-- The point of a peer (spec 12 R249). -/
def pointOf (p : Nat) : Nat × Nat × Nat :=
  if p < 2209 then (p / 47, p % 47, 1) else if p < 2256 then (p - 2209, 1, 0) else (1, 0, 0)

/-- The inverse modulo 47 of a number that is not a multiple of 47; 0 of one that is. -/
def inv47 (a : Nat) : Nat := ((List.range 47).find? fun b => a * b % 47 == 1).getD 0

/-- The peer of a point given in any coordinates (spec 12 R251). -/
def peerOfPoint (x y z : Nat) : Nat :=
  if z % 47 != 0 then x * inv47 z % 47 * 47 + y * inv47 z % 47
  else if y % 47 != 0 then 2209 + x * inv47 y % 47
  else 2256

/-- Whether two peers are neighbours (spec 12 R249). -/
def isNeighbour (u v : Nat) : Bool :=
  let a := pointOf u
  let b := pointOf v
  u != v && (a.1 * b.1 + a.2.1 * b.2.1 + a.2.2 * b.2.2) % 47 == 0

/-- The neighbours of a peer in ascending order: entry n is the partner of port n (spec 12 R250). -/
def neighboursOf (u : Nat) : List Nat := (List.range peerCount).filter (isNeighbour u)

/-- The peer that a minimal route from `u` to `v` reaches first (spec 12 R251). -/
def firstHop (u v : Nat) : Nat :=
  if isNeighbour u v then v
  else
    let a := pointOf u
    let b := pointOf v
    let sub (x y : Nat) : Nat := (x + 47 * 47 - y) % 47
    peerOfPoint (sub (a.2.1 * b.2.2) (a.2.2 * b.2.1)) (sub (a.2.2 * b.1) (a.1 * b.2.2)) (sub (a.1 * b.2.1) (a.2.1 * b.1))

/-- The port of this device toward a neighbour. -/
def State.portTo (s : State) (v : Nat) : Option Nat := (neighboursOf s.peerNo).findIdx? (· == v)

/-- A port's registers. -/
def State.port (s : State) (n : Nat) : Port := s.fab.ports.getD n {}

/-- Whether the link between two neighbours is up: for this device's links PORTSTAT.UP, for the others what the outside tells.
(DEDUCED, log 176.) -/
def State.linkUp (s : State) (u v : Nat) : Bool :=
  let own (w : Nat) : Bool := match s.portTo w with
    | some n => (s.port n).stat.getLsbD 31
    | none => false
  if u == s.peerNo then own v
  else if v == s.peerNo then own u
  else !s.fab.farDown.any fun l => l == (u, v) || l == (v, u)

/-- The links of the minimal route between two peers (spec 12 R251). -/
def minimalLinks (u v : Nat) : List (Nat × Nat) :=
  let w := firstHop u v
  if w == v then [(u, v)] else [(u, w), (w, v)]

/-- The route entry of a destination (spec 12 Table 12-3). -/
def State.routeEntry (s : State) (v : Nat) : W64 := assocGet s.fab.routes v 0x0FFFFFFFFFFFF000

/-- The intermediates of a route entry that are not none. -/
def State.intermediate (s : State) (v k : Nat) : Option Nat :=
  let i := bitsOf (s.routeEntry v).toNat (12 + 12 * k) 12
  if i == s.peerNo || i == v || decide (peerCount ≤ i) then none else some i

/-- The links of a route to a peer: 0 is the minimal route, k + 1 the one through Ik (spec 12 R251). -/
def State.routeLinks (s : State) (v k : Nat) : Option (List (Nat × Nat)) :=
  if k = 0 then some (minimalLinks s.peerNo v)
  else (s.intermediate v (k - 1)).map fun r => minimalLinks s.peerNo r ++ minimalLinks r v

/-- Whether every link of a route is up. -/
def State.routeUp (s : State) (v k : Nat) : Bool := match s.routeLinks v k with
  | some ls => ls.all fun l => s.linkUp l.1 l.2
  | none => false

/-- The deterministic route to a peer: the minimal one, else the first up one of the intermediates; none while no route is up
(spec 12 R252). -/
def State.routeTo (s : State) (v : Nat) : Option Nat := (List.range 5).find? (s.routeUp v)

/-- A port changed. -/
def State.modPort (s : State) (n : Nat) (f : Port → Port) : State :=
  { s with fab := { s.fab with ports := modNth s.fab.ports n f } }

/-- The port on which a route to a peer leaves this device. -/
def State.routePort (s : State) (v k : Nat) : Option Nat :=
  s.portTo (firstHop s.peerNo (if k = 0 then v else (s.intermediate v (k - 1)).getD v))

/-- Flits queued at the first link of a route. -/
def State.routeLoad (s : State) (v k : Nat) : Nat := match s.routePort v k with
  | some n => (s.port n).replayBuf.length
  | none => 0

/-- The route of a message: deterministic, or by the adaptive rule the up route whose first link has the least occupied queue
(spec 12 R252). (DESIGN CHOICE, log 174.) -/
def State.freeRoute (s : State) (v : Nat) (det : Bool) : Option Nat :=
  if det || !s.regs.fabCtl.getLsbD 0 then s.routeTo v
  else ((List.range 5).filter (s.routeUp v)).foldl (fun best k => match best with
    | none => some k
    | some j => if decide (s.routeLoad v k < s.routeLoad v j) then some k else some j) none

/-- The route of a request: line k of a copy that names a bundle takes route k mod (NB + 1) while that is up (spec 12 R253).
(DEDUCED, log 175.) -/
def State.requestRoute (s : State) (r : Request) : Option Nat :=
  let det := match r.grid with
    | some g => (s.grid g).par.det
    | none => false
  match r.bundle with
  | none => s.freeRoute r.peer det
  | some k =>
    let j := k % (bitsOf (s.routeEntry r.peer).toNat 0 2 + 1)
    if s.routeUp r.peer j then some j else s.freeRoute r.peer det

/-! ## Messages (spec 12 R255-R259) -/

/-- Bytes of data that a request carries. -/
def ReqKind.dataLen : ReqKind → Nat
  | .writeback d => d.length
  | .uncachedWrite cs => cs.length
  | .atomic _ => 16
  | _ => 0

/-- Bytes of data that an answer carries. -/
def PeerAnswer.dataLen : PeerAnswer → Nat
  | .shared d => d.length
  | .exclusive d => d.length
  | .bytes d => d.length
  | .old _ => 8
  | .poisoned a => PeerAnswer.dataLen a
  | _ => 0

/-- Bytes of data that a peer's request carries. -/
def PeerReq.dataLen : PeerReq → Nat
  | .writeback _ d => d.length
  | .uncachedWrite cs => cs.length
  | .atomic _ _ => 16
  | .collective _ _ _ _ _ rs _ d => 2 * rs.length + d.length
  | .poisoned r => PeerReq.dataLen r
  | _ => 0

/-- The data flits of a message: one for every 64 bytes. Beside them it takes a quarter of a header flit (spec 12 R256).
(DEDUCED, log 110.) -/
def flitsOf (data : Nat) : Nat := (data + 63) / 64

/-- The virtual channel of a message. -/
def FabMsg.channel : FabMsg → Nat
  | .request _ => 0
  | .answer _ _ => 1
  | .ack _ _ _ => 1
  | .recall _ => 2
  | .input _ => 3

/-- The bytes of data of a message that is no request. -/
def FabMsg.dataLen : FabMsg → Nat
  | .request _ => 0
  | .answer _ a => PeerAnswer.dataLen a
  | .ack _ d _ => d.length
  | .recall _ => 0
  | .input x => PeerReq.dataLen x

/-- The key index a port seals under (spec 12 Table 12-4). -/
def Port.keyIdx (P : Port) : BitVec 1 := P.stat.extractLsb' 26 1
/-- Whether a port runs in native mode. -/
def Port.native (P : Port) : Bool := !P.stat.getLsbD 30

/-- The flits that a message of `data` bytes adds: a header flit when none has a free quarter, data flits, and a tag flit after every
eighth flit (spec 12 R256). -/
def Port.adds (P : Port) (data : Nat) : Nat :=
  let k := (if P.room = 0 then 1 else 0) + flitsOf data
  k + (P.txFlits % 8 + k) / 8

/-- Whether a port takes a message of `data` bytes on a channel now: it is not paused there, it does not retrain, and its replay
buffer has room (spec 12 R257, R259, R260). -/
def Port.takes (P : Port) (vc data : Nat) : Bool :=
  !P.paused.getLsbD vc && !P.retrain && (!P.native || decide (P.replayBuf.length + P.adds data ≤ 1024))

/-- The tag flit that ends the open group. -/
def Port.endGroup (P : Port) : Port :=
  { P with
    replayBuf := P.replayBuf ++ [⟨.tag, P.txSeq, P.keyIdx, BitVec.ofNat 64 ((P.txFlits - 1) / 8), []⟩]
    txSeq := P.txSeq + 1
    txFlits := ceilDiv P.txFlits 8 * 8
    room := 0 }

/-- A flit numbered, sealed in its group and kept in the replay buffer until it is acknowledged; the eighth of a group is followed by
its tag flit (spec 12 R256, R259, R261). -/
def Port.push (P : Port) (kind : FlitKind) (msgs : List OutMsg) : Port :=
  let Q : Port := { P with
    replayBuf := P.replayBuf ++ [⟨kind, P.txSeq, P.keyIdx, BitVec.ofNat 64 (P.txFlits / 8), msgs⟩]
    txSeq := P.txSeq + 1
    txFlits := P.txFlits + 1 }
  if Q.txFlits % 8 == 0 then { Q.endGroup with room := P.room } else Q

/-- A message without data ends with the header flit that is being packed. -/
def addToHeader (m : OutMsg) (fs : List Flit) : List Flit :=
  let last := (indexed fs).foldl (fun n x => if x.2.kind == .header then x.1 else n) fs.length
  modNth fs last fun f => { f with msgs := f.msgs ++ [m] }

/-- A message of `data` bytes sent on a port in native mode (spec 12 R256, R259): a quarter of a header flit, and its data flits.
(DEDUCED, log 179.) -/
def Port.send (P : Port) (data : Nat) (m : OutMsg) : Port :=
  if !P.native then P
  else
    let n := flitsOf data
    let here : List OutMsg := if n = 0 then [m] else []
    let P := if P.room = 0 then { P.push .header here with room := 3 }
      else { P with room := P.room - 1, replayBuf := here.foldl (fun fs m => addToHeader m fs) P.replayBuf }
    (List.range n).foldl (fun P i => P.push .data (if i + 1 == n then [m] else [])) P

/-- A message sent, when a route is up and its port takes it. -/
def State.sendMsg (s : State) (m : OutMsg) : Option State :=
  ((s.freeRoute m.peer false).bind (s.routePort m.peer)).bind fun n =>
    if (s.port n).takes m.msg.channel m.msg.dataLen then some (s.modPort n fun P => P.send m.msg.dataLen m) else none

/-- Header flits that are being packed leave as they are: what is sent in a later step begins new ones. -/
def State.closeHeaders (s : State) : State :=
  if s.fab.ports.all fun P => P.room == 0 then s
  else { s with fab := { s.fab with ports := s.fab.ports.map fun P => { P with room := 0 } } }

/-- Messages that wait leave as they can. -/
def State.sendBox (s : State) : State :=
  s.fab.outbox.foldl (fun s m => match s.sendMsg m with
    | some s' => s'
    | none => s.post m.peer m.msg) { s with fab := { s.fab with outbox := [] } }

/-! ## Requests (spec 12 R247, R258) -/

/-- Requests of this device to a peer that hold a tag: sent, or to be sent again under it. -/
def State.tagsUsed (s : State) (peer : Nat) : Nat :=
  (s.fab.requests.filter fun r => r.peer == peer && (r.sent || r.again) && (match r.kind with
    | .awaitInput _ => false
    | _ => true)).length

/-- Whether a request can be sent now: a route is up, its port takes it, and a tag is free. -/
def State.canSend (s : State) (r : Request) : Bool :=
  match (s.requestRoute r).bind (s.routePort r.peer) with
  | none => false
  | some n => (s.port n).takes 0 r.kind.dataLen && (r.again || decide (s.tagsUsed r.peer < 512))

/-- The number under which the hub, as it writes slots for the GLAUNCHes of a team, is told from the team's lanes. -/
def slotWriterNo : Nat := 250

/-- A request for the line or bytes at a key. -/
def requestFor (k : Nat) (kind : ReqKind) (grid : Option Nat) (who : Option (Nat × Nat × Nat)) : Request :=
  { tag := 0, peer := keyPeer k, addr := k, kind := kind, sent := false, grid := grid, who := who, va := k }

/-- A request made, not yet sent. (DEDUCED, log 108.) -/
def State.ask (s : State) (r : Request) : State :=
  let (now, s) := s.lookTime
  { s with fab := { s.fab with
      requests := s.fab.requests ++ [{ r with tag := s.fab.nextTag, since := now.toNat }], nextTag := s.fab.nextTag + 1 } }

/-- Request `tag` sent on its route; poisoned data sent for the first time is an error entry of its grid (spec 21 R420). -/
def State.sendTag (s : State) (tag : Nat) : State :=
  match s.fab.requests.find? fun r => r.tag == tag with
  | none => s
  | some r =>
    let k := (s.requestRoute r).getD 0
    let (now, s) := s.lookTime
    let mark (x : Request) : Request :=
      if x.tag == tag then { x with sent := true, route := k, since := if x.again then x.since else now.toNat } else x
    let s := { s with fab := { s.fab with requests := s.fab.requests.map mark } }
    let s := match s.routePort r.peer k with
      | some n => s.modPort n fun P => P.send r.kind.dataLen ⟨r.peer, .request tag⟩
      | none => s
    match r.grid with
    | some g => if r.bad && !r.again then s.errorEntry g 6 (BitVec.ofNat 64 (r.addr / 128 * 128)) else s
    | none => s

/-- Requests that no event of the table sends (uncached accesses and discards) and messages leave as soon as they can. -/
def State.sendPending (s : State) : State :=
  s.fab.requests.foldl (fun s r =>
    let plain := match r.kind with
      | .uncachedRead _ => true
      | .uncachedWrite _ => true
      | .discard => true
      | _ => false
    if plain && !r.sent && s.canSend r then s.sendTag r.tag else s) s.sendBox

/-- The lowest virtual address that an instruction gave each of the requests it made (tags from `tag` on): `vas` are the keys of
its bytes with their addresses (spec 21 Table 21-3). -/
def State.nameRequests (s : State) (tag : Nat) (vas : List (Nat × Nat)) : State :=
  let name (r : Request) : Request :=
    match if r.tag < tag then [] else vas.filter fun x => x.1 / 128 == r.addr / 128 with
    | [] => r
    | x :: xs => { r with va := xs.foldl (fun a y => min a y.2) x.2 }
  if s.fab.nextTag == tag then s else { s with fab := { s.fab with requests := s.fab.requests.map name } }

/-- A line of a copy that names a bundle, number `k`: the requests made for it (tags from `tag` on), and its copies held here among
`keys`, which its write-back takes to its home. (DEDUCED, log 182.) -/
def State.bundleLine (s : State) (tag k : Nat) (keys : List Nat) : State :=
  { s with fab := { s.fab with
      requests := s.fab.requests.map fun r => if r.tag < tag then r else { r with bundle := some k }
      proxies := s.fab.proxies.map fun p => if keys.any (fun a => a / 128 == p.line) then { p with bundle := some k } else p } }

/-- Whether a request concerns a line. -/
def Request.onLine (r : Request) (line : Nat) : Bool :=
  match r.kind with
  | .awaitInput _ => false
  | .uncachedRead n => decide (r.addr / 128 ≤ line) && decide (line ≤ (r.addr + n - 1) / 128)
  | .uncachedWrite cs => r.addr / 128 == line || cs.any fun c => c.addr / 128 == line
  | _ => r.addr / 128 == line

/-- Whether a request on a line is outstanding. -/
def State.lineBusy (s : State) (line : Nat) : Bool := s.fab.requests.any fun r => r.onLine line

/-! ## Proxy entries (spec 12 R244, R245) -/

/-- The proxy entry of a line. -/
def State.proxyEntry (s : State) (line : Nat) : Option Proxy := s.fab.proxies.find? fun p => p.line == line
/-- A proxy entry's state; none is I (spec 12 Table 12-1). -/
def State.proxy (s : State) (line : Nat) : Option ProxyState := (s.proxyEntry line).map (·.st)
/-- Whether a line is held so that it can be written. -/
def State.holdsLine (s : State) (line : Nat) : Bool := s.proxy line == some .e || s.proxy line == some .m

/-- A proxy entry set, or dropped. -/
def State.setProxy (s : State) (line : Nat) (p : Option ProxyState) (grid : Option Nat := none) : State :=
  let rest := s.fab.proxies.filter fun x => x.line != line
  { s with fab := { s.fab with proxies := match p with
      | some v => { line := line, st := v, grid := grid } :: rest
      | none => rest } }

/-- A copy of a peer's line dropped, and with it the poison it had here. (DEDUCED, log 115.) -/
def State.dropCopy (s : State) (line : Nat) : State := (s.setProxy line none).curePoison fun l => l == line

/-- A line held here is written back to its home and dropped. -/
def State.writeBack (s : State) (line : Nat) : State :=
  let r := requestFor (line * 128) (.writeback (s.rd (line * 128) 128)) ((s.proxyEntry line).bind (·.grid)) none
  (s.ask { r with bad := s.poison.contains line, bundle := (s.proxyEntry line).bind (·.bundle) }).dropCopy line

/-- Whether a key lies in the memory of another package. -/
def peerKey (k : Nat) : Bool :=
  let p := keyPeer k
  p != ownPeer && p != hostPeer && decide (p < peerCount)

/-- Whether a key lies in the memory of another package. -/
def State.isPeerKey (_ : State) (k : Nat) : Bool := peerKey k

/-! ## Reaching bytes -/

/-- What an access does to a byte range that lies in one line: a plain read, a write, an atomic, a discard. -/
inductive Touch where
  | read
  | write
  | atomic (op : PeerAtomic)
  | discard
  deriving DecidableEq, Repr

/-- Whether bytes can be reached now: ready; waiting, in a state that has asked for what is missing; or failed. -/
inductive Reach where
  | ready
  | wait (s : State)
  | failed (remote : Bool)

/-- The answer that a unit's own request for an address received. -/
def State.answerFor (s : State) (who : Nat × Nat × Nat) (k : Nat) : Option Answer :=
  s.fab.answers.find? fun a => a.who == who && a.addr == k

/-- The failure of a unit's own request on the line of a key, met by the unit. -/
def State.failFor (s : State) (who : Nat × Nat × Nat) (k : Nat) : Option ReqFailure :=
  s.fab.reqFails.find? fun a => a.who == who && !a.stored && a.addr / 128 == k / 128

/-- Whether two units are lanes of one group, or parts of one engine. -/
def sameGroup (a b : Nat × Nat × Nat) : Bool := a.1 == b.1 && a.2.1 == b.2.1

/-- Whether a store to a line has failed for a group: its error entry stands, and the instruction goes on without its bytes
(spec 12 R248). -/
def State.lostLine (s : State) (who : Nat × Nat × Nat) (line : Nat) : Bool :=
  s.fab.reqFails.any fun a => a.stored && sameGroup a.who who && a.addr / 128 == line

/-- Whether a write of a unit whose first byte is at a key, or a discard of a group of the line that starts there, has been
performed at its home. -/
def State.performedAt (s : State) (hit : Nat × Nat × Nat → Bool) (k : Nat) : Bool :=
  s.fab.answers.any fun a => hit a.who && a.addr == k && a.value == .done

/-- The first key of those from `k` up to `stop` whose byte a unit has no answer for; each answer gives at least one byte. -/
def State.firstLacking (s : State) (who : Nat × Nat × Nat) (stop : Nat) : Nat → Nat → Option Nat
  | 0, k => if k < stop then some k else none
  | n + 1, k =>
    if stop ≤ k then none
    else
      match s.fab.answers.find? fun a => a.who == who && a.addr == k && decide (0 < PeerAnswer.dataLen a.value) with
      | none => some k
      | some a => s.firstLacking who stop n (k + PeerAnswer.dataLen a.value)

/-- Reaching the `n` bytes at a key, in one line or on an uncached page, for a unit. A line of a peer is held in E or M before it is
stored to; a discard is performed at its home before it is passed; requests on one line follow one another; a line of another
group's store under way is waited for; bytes that the unit has been answered, or that are kept for it, are at hand (spec 12
R242-R247). (DEDUCED, log 167.) -/
def State.reach (s : State) (who : Nat × Nat × Nat) (grid : Option Nat) (k n : Nat) (uncached : Bool) (t : Touch) : Reach :=
  let line := k / 128
  let have_ := t == .read && s.firstLacking who (k + n) n k == none
  if s.lockedBut line (sameGroup who) then .wait s
  else if have_ then .ready
  else if keyPeer k == ownPeer then
    if s.dirBlocks line (t != .read) && !(s.fab.locks.any fun x => x.1 == line && sameGroup x.2 who) then
      .wait (s.recallLine line)
    else .ready
  else if !s.isPeerKey k then .ready
  else
    let ask (a : Nat) (kind : ReqKind) : Reach :=
      if s.lineBusy line || s.lineBusy ((k + n - 1) / 128) then .wait s else .wait (s.ask (requestFor a kind grid (some who)))
    match s.failFor who k with
    | some f => .failed f.remote
    | none =>
      match t with
      | .read =>
        if !uncached && (s.proxy line).isSome then .ready
        else if uncached then
          let a := (s.firstLacking who (k + n) n k).getD k
          ask a (.uncachedRead (k + n - a))
        else ask (line * 128) .readShared
      | .write =>
        if uncached then (if s.lineBusy line then .wait s else .ready)
        else if s.holdsLine line || s.lostLine who line then .ready
        else ask (line * 128) (if s.proxy line == some .s then .upgrade else .readExclusive)
      | .atomic op =>
        if (s.answerFor who k).isSome then .ready
        else if s.holdsLine line then .wait (s.writeBack line)
        else ask k (.atomic op)
      | .discard =>
        if s.performedAt (sameGroup who) (line * 128) || s.lostLine who line then .ready
        else if s.lineBusy line then .wait s
        else .wait ((s.dropCopy line).ask (requestFor (line * 128) .discard grid (some who)))

/-- The bytes of an answer. -/
def PeerAnswer.data (wide : Bool) : PeerAnswer → Option (List Byte)
  | .bytes d => some d
  | .old v => some (leBytes (if wide then 8 else 4) v.toNat)
  | .poisoned a => PeerAnswer.data wide a
  | _ => none

/-- Whether an answer's data is poisoned. -/
def PeerAnswer.sick : PeerAnswer → Bool
  | .poisoned _ => true
  | _ => false

/-- The answered bytes of a unit's own request stand at their keys (a value read or an old value, as the home gave it). -/
def State.useAnswer (s : State) (who : Nat × Nat × Nat) (wide : Bool) (k : Nat) : State :=
  match (s.answerFor who k).bind fun a => PeerAnswer.data wide a.value with
  | none => s
  | some d => { s with mem := memWriteN s.mem k d }

/-- Whether a unit's own answer for one of some bytes is poisoned. -/
def State.answerSick (s : State) (who : Nat × Nat × Nat) (ks : List (Nat × Bool)) : Bool :=
  ks.any fun k => match s.answerFor who k.1 with
    | some a => PeerAnswer.sick a.value
    | none => false

/-- The little-endian number of bytes as a unit has them: as they were answered, else as they stand. -/
def State.seenNat (s : State) (who : Nat × Nat × Nat) (ks : List (Nat × Bool)) : Nat :=
  let v := ks.foldl (fun s k => s.useAnswer who false k.1) s
  leNat (ks.map fun k => memRead v.mem k.1)

/-- Bytes read now, kept as an answer for a unit. -/
def State.keepBytes (s : State) (who : Nat × Nat × Nat) (k n : Nat) : State :=
  if (s.answerFor who k).isSome then s
  else { s with fab := { s.fab with answers := s.fab.answers ++ [⟨who, k, .bytes (s.rd k n)⟩] } }

/-- The answers and failures of a unit's own requests dropped, with what its lanes have been performed to and the lines its store
locked. -/
def State.clearAnswers (s : State) (hit : Nat × Nat × Nat → Bool) : State :=
  { s with fab := { s.fab with
      answers := s.fab.answers.filter fun a => !hit a.who
      reqFails := s.fab.reqFails.filter fun a => !hit a.who
      parts := s.fab.parts.filter fun a => !hit a.1
      locks := s.fab.locks.filter fun a => !hit a.2 } }

/-- What a lane has been performed to, while others of its instance have not. -/
def State.partOf (s : State) (who : Nat × Nat × Nat) : Option LaneOut := (s.fab.parts.find? fun p => p.1 == who).map (·.2)

/-- The lines of bytes locked for a unit's store that is one event, until it has been performed. -/
def State.lockLines (s : State) (who : Nat × Nat × Nat) (ks : List (Nat × Bool)) : State :=
  let new := ((ks.map fun k => (k.1 / 128, who)).eraseDups).filter fun x => !s.fab.locks.contains x
  { s with fab := { s.fab with locks := s.fab.locks ++ new } }

/-- Whether bytes of one event lie on uncached pages of several packages, or on one and elsewhere. -/
def straddles (ks : List (Nat × Bool)) : Bool :=
  let place (k : Nat × Bool) : Nat := if peerKey k.1 && k.2 then keyPeer k.1 else ownPeer
  match ks with
  | [] => false
  | k :: rest => rest.any fun j => place j != place k

/-- One store event on a list of cells (key, whether its page is uncached, value): bytes of this device, of host memory and of
scratchpads are written; bytes of a peer's line, held in E or M, are written and leave it in M; bytes of uncached pages of peers go
to their homes, with the bits that `mask` gives, as a write per line, or as one write when the event is `whole` (spec 12 R245,
R246, 11 R230). A write that has been performed at its home is not made again. -/
def State.storeMasked (s : State) (who : Nat × Nat × Nat) (grid : Option Nat) (whole : Bool) (mask : Nat → Byte)
    (cells : List (Nat × Bool × Byte)) : State :=
  let far (c : Nat × Bool × Byte) : Bool := s.isPeerKey c.1 && c.2.1
  let lost (c : Nat × Bool × Byte) : Bool := s.isPeerKey c.1 && s.lostLine who (c.1 / 128)
  let now := cells.filter fun c => !far c && !lost c
  let s1 := s.wrCells (now.map fun c => (c.1, c.2.2))
  let s1 := now.foldl (fun s c => if s.isPeerKey c.1 then s.setProxy (c.1 / 128) (some .m) grid else s) s1
  let away := cells.filter far
  let part (c : Nat × Bool × Byte) : Nat := if whole then keyPeer c.1 else c.1 / 128
  (away.map part).eraseDups.foldl (fun s p =>
    let mine := away.filter fun c => part c == p
    match mine with
    | [] => s
    | c :: _ =>
      if s.performedAt (· == who) c.1 then s
      else s.ask (requestFor c.1 (.uncachedWrite (mine.map fun c => ⟨c.1, c.2.2, mask c.1⟩)) grid (some who))) s1

/-- One store event of whole bytes. -/
def State.storeCells (s : State) (who : Nat × Nat × Nat) (grid : Option Nat) (cells : List (Nat × Bool × Byte)) : State :=
  s.storeMasked who grid false (fun _ => 255) cells

/-- What is left to send before a lane, or an instance that is one event, can be performed: `s2` is the state `s1` after its effects.
Uncached writes are sent first, one per line at a time, and nothing else is performed until they have been (spec 11 R222, R224,
12 R247). -/
def State.stillToSend (s1 s2 : State) : Option State :=
  let new := s2.fab.requests.filter fun r => decide (s1.fab.nextTag ≤ r.tag)
  let shares (a b : Request) : Bool := a.onLine (b.addr / 128) || b.onLine (a.addr / 128)
  let first := new.foldl (fun (acc : List Request) r => if acc.any (shares r) then acc else acc ++ [r]) []
  if s2.fab.nextTag == s1.fab.nextTag then none
  else some { s1 with fab := { s1.fab with requests := s1.fab.requests ++ first, nextTag := s2.fab.nextTag } }

/-- Whether a write of a unit is still on its way to its home. -/
def State.unitPending (s : State) (who : Nat × Nat × Nat) : Bool :=
  s.fab.requests.any fun r => r.who == some who && (match r.kind with
    | .uncachedWrite _ => true
    | _ => false)

/-- Whether a request of a unit has failed (spec 12 R248). -/
def State.unitFailed (s : State) (who : Nat × Nat × Nat) : Bool := s.fab.reqFails.any fun r => r.who == who

/-- A discard of the line of a key: a peer's line has been discarded at its home (spec 10 R217, 12 R246). -/
def State.discardKey (s : State) (k : Nat) : State := if s.isPeerKey k then s else s.discardLine (k / 128)

end Sys2Proof.Machine
end

