-- ==== Sys2Proof/Machine/Operands.lean ====
section
/-! DEFINITION. Operand forms: the selectors of Tables 5-2 and 5-3, literal widening, 128-bit and 256-bit operands, and the
results a lane receives. -/

namespace Sys2Proof.Machine

/-- An FP32 pattern widened to FP64 as a bit pattern: value kept, a NaN's fraction placed at the top (spec 05 R99). -/
def widenF64 (w : W32) : W64 :=
  match fmt32.value w.toNat with
  | .nan _ fr => BitVec.ofNat 64 (fmt64.signed (w.getLsbD 31) (fmt64.infCode + fr * 2 ^ 29))
  | .inf n => BitVec.ofNat 64 (fmt64.signed n fmt64.infCode)
  | .fin n m e => BitVec.ofNat 64 (fmt64.round .rne ⟨n, m, e, false⟩).1

/-- A literal widened to the operand type (spec 05 R99). -/
def widenLit (t : Ty) (w : W32) : W64 := match t with
  | .s64 => w.signExtend 64
  | .f64 => widenF64 w
  | _ => w.zeroExtend 64

/-- The literal word of a unit. -/
def litOf (m : Mods) : W32 := m.lit.getD 0

/-- A value taken at the width of a type from bit 0 upward. -/
def atWidth (t : Ty) (v : W64) : W64 := BitVec.ofNat 64 (v.toNat % 2 ^ tyBits t)

/-- Src for the types of at most 64 bits (spec 00 Table 0-3, 05 Table 5-2). -/
def src (G : Group) (m : Mods) (l : Nat) (sel : BitVec 6) (t : Ty) : W64 :=
  let L := G.lane l
  let n := sel.toNat
  let v : W64 :=
    if n < 16 then L.q.getD n 0
    else if n < 48 then
      (if tyBits t = 64 then L.reg (n - 16 + 1) ++ L.reg (n - 16) else (L.reg (n - 16)).zeroExtend 64)
    else if n < 62 then G.sreg (n - 48)
    else if n = 62 then widenLit t (litOf m)
    else 0
  atWidth t v

/-- Src as a 32-bit value. -/
def src32 (G : Group) (m : Mods) (l : Nat) (sel : BitVec 6) : W32 := (src G m l sel .b32).extractLsb' 0 32

/-- A 128-bit or 256-bit operand as 32-bit words, lowest first (spec 11 R219, 16 R330). -/
def srcWords (G : Group) (l : Nat) (sel : BitVec 6) (words : Nat) : List W32 :=
  let L := G.lane l
  let n := sel.toNat
  (List.range words).map fun i =>
    if n < 16 then
      (if i % 2 = 0 then (L.q.getD (n + i / 2) 0).extractLsb' 0 32 else (L.q.getD (n + i / 2) 0).extractLsb' 32 32)
    else if n < 48 then L.reg (n - 16 + i)
    else 0

/-- The number that words, lowest first, stand for. -/
def wordsNat : List W32 → Nat
  | [] => 0
  | w :: ws => w.toNat + 2 ^ 32 * wordsNat ws

/-- `n` words of a number, lowest first. -/
def natWords : Nat → Nat → List W32
  | 0, _ => []
  | n + 1, v => BitVec.ofNat 32 v :: natWords n (v / 2 ^ 32)

/-- SB of format S (spec 05 Table 5-3). -/
def srcS (G : Group) (m : Mods) (sb : BitVec 6) : W64 :=
  let n := sb.toNat
  if n < 32 then G.sreg n
  else if n < 48 then BitVec.ofNat 64 (n - 32)
  else if n = 62 then (litOf m).signExtend 64
  else 0

/-! ## Results -/

/-- WrNamed of words, lowest first, at the registers a destination field names (spec 00 Table 0-3). -/
def wrNamed (d : BitVec 6) (ws : List W32) : List (Nat × W32) :=
  let n := d.toNat
  if 16 ≤ n ∧ n < 48 then (indexed ws).map fun x => (n - 16 + x.1, x.2) else []

/-- A 32-bit result: pushed zero-extended and written to the destination. -/
def out32 (d : BitVec 6) (v : W32) (fl : FlagBits := 0) : LaneOut :=
  { pushes := [v.zeroExtend 64], named := wrNamed d [v], flags := fl }

/-- A 64-bit result. -/
def out64 (d : BitVec 6) (v : W64) (fl : FlagBits := 0) : LaneOut :=
  { pushes := [v], named := wrNamed d [v.extractLsb' 0 32, v.extractLsb' 32 32], flags := fl }

/-- A result of several words: pushed as slots, highest first, and written to consecutive registers (spec 11 R219). -/
def outWords (d : BitVec 6) (ws : List W32) (fl : FlagBits := 0) : LaneOut :=
  let slot (i : Nat) : W64 := (ws.getD (2 * i + 1) 0) ++ (ws.getD (2 * i) 0)
  { pushes := ((List.range (ws.length / 2)).map slot).reverse, named := wrNamed d ws, flags := fl }

/-- A predicate result: written to the predicate and pushed as 0 or 1. -/
def outPred (pd : Nat) (b : Bool) : LaneOut := { pushes := [if b then 1 else 0], pred := some (pd, b) }

/-- `n` pushes of zero. -/
def zeroPushes (n : Nat) : LaneOut := { pushes := List.replicate n 0 }

/-- A lane with what it receives. -/
def Lane.take (L : Lane) (o : LaneOut) : Lane :=
  let L := L.pushes o.pushes
  let L := o.named.foldl (fun L x => L.setReg x.1 x.2) L
  match o.pred with
  | none => L
  | some (n, b) => L.setPred n b

end Sys2Proof.Machine
end

