-- ==== Sys2Proof/Machine/Flags.lean ====
section
/-! DEFINITION. Flag computations: ORing flags into FLAGS, trap enables, and the retirement of value-producing instances
with the flag trap of R52. -/

namespace Sys2Proof.Machine

/-- The trap enables in force: FLAGS[12:8], none in handler mode (spec 02 R50, 20 R404). -/
def Group.enables (G : Group) : FlagBits := if G.inh then 0 else G.flags.extractLsb' 8 5

/-- Flags ORed into FLAGS[4:0] (spec 02 R50). -/
def Group.orFlags (G : Group) (f : FlagBits) : Group := { G with flags := G.flags ||| f.zeroExtend 32 }

/-- The OR of the flags that lanes other than helper lanes receive (spec 07 R143). -/
def raisedFlags (G : Group) (act : LaneMask) (res : Nat → LaneOut) : FlagBits :=
  (maskLanes act).foldl (fun f l => if (G.lane l).helper then f else f ||| (res l).flags) 0

/-- The lanes other than helper lanes that raise an enabled flag (spec 02 R52). -/
def flagTrapLanes (G : Group) (act : LaneMask) (res : Nat → LaneOut) : LaneMask :=
  laneMask fun l => act.getLsbD l && !(G.lane l).helper && (res l).flags &&& G.enables != 0

/-- The trap of R52: cause group 5 (spec 20 Table 20-3). -/
def flagTrap (G : Group) (act : LaneMask) (res : Nat → LaneOut) (l : Nat) : TrapInfo :=
  trapOf 5 l 0 ((res l).flags.toNat * 256 + (raisedFlags G act res).toNat) 0 0 (flagTrapLanes G act res)

/-- The lanes of the instance receive what the instruction gives them: the lanes of `act` what `res` says, the others at the
program counter `n` pushes of zero (spec 00 R9), but for those of `stay`, which retire nothing. -/
def State.commitLanes (s : State) (c : Inst) (act stay : LaneMask) (n : Nat) (res : Nat → LaneOut) : State :=
  s.modGroup c.team c.group fun G =>
    (G.mapLanes fun l L =>
      if c.mask.getLsbD l && !stay.getLsbD l then
        L.take (if act.getLsbD l then res l else zeroPushes n)
      else L).orFlags (raisedFlags G (act &&& ~~~stay) res)

/-- A value-producing instance of the pipes that trap on flags (spec 08 R145, 02 R52): every lane of Active() receives
`res l`, the other lanes at the word `n` pushes of zero, unless an enabled flag is raised. -/
def valueInst (c : Inst) (m : Mods) (g : BitVec 3) (n : Nat) (res : Group → Nat → LaneOut) (s : State) : Res :=
  let G := s.instGrp c
  let act := activeOf s c g.toNat (guardNeg m)
  match maskLanes (flagTrapLanes G act (res G)) with
  | l :: _ => trapRes s c m (flagTrap G act (res G) l)
  | [] => finishSeq c m 0 s (s.commitLanes c act 0 n (res G))

/-- A value-producing instruction of one push per lane. -/
def valueOp (m : Mods) (g : BitVec 3) (res : Group → Nat → LaneOut) (s : State) : Res :=
  withInst s fun c => valueInst c m g 1 res s

end Sys2Proof.Machine
end

