-- ==== Sys2Proof/Machine/Access.lean ====
section
/-! DEFINITION. Memory instructions as instances: the segments each lane touches, the checks of Table 11-1 in order, parking,
waiting at issue, and performing the lanes in ascending order (spec 10 R196-R203, R209-R211, 11 R221-R222, R237). -/

namespace Sys2Proof.Machine

/-! ## What lanes ask for -/

/-- What an instruction does to a segment. -/
inductive Acc where
  | read
  | write
  | discard
  | lastuse
  | scatter
  | fetch
  | atomic (op : PeerAtomic)
  deriving DecidableEq, Repr

def Acc.need : Acc → Need
  | .read => { rd := true }
  | .write => { w := true }
  | .discard => { w := true }
  | .scatter => { w := true }
  | .lastuse => { rd := true, w := true }
  | .fetch => { x := true }
  | .atomic _ => { rd := true, w := true }

/-- The kind code of TRAPDETAIL0 and of fault records (spec 10 Table 10-7, 20 Table 20-3). -/
def Acc.kind : Acc → Nat
  | .read => 0
  | .write => 1
  | .discard => 1
  | .scatter => 1
  | .lastuse => 3
  | .fetch => 2
  | .atomic _ => 3

def Acc.reads : Acc → Bool
  | .read => true
  | .lastuse => true
  | .fetch => true
  | .atomic _ => true
  | _ => false
def Acc.writes : Acc → Bool
  | .read => false
  | .fetch => false
  | _ => true

/-- The address spaces of Table 10-1. -/
inductive Space where
  | global
  | scratch
  | cluster
  deriving DecidableEq, Repr

/-- A contiguous byte range that a lane touches: its address is as formed, with the rank in bits [34:32] for cluster space.
`queue` marks the two accesses that a bank in FIFO mode serves (spec 10 R201). -/
structure Seg where
  space : Space
  addr  : W64
  len   : Nat
  acc   : Acc
  queue : Bool := false
  deriving DecidableEq, Repr

/-- A condition of Table 11-1 that a lane meets: its place in the order of the table, and what the trap reports. -/
structure Cond where
  ord    : Nat
  cause  : Nat
  reason : Nat
  aux    : Nat := 0
  addr   : W64 := 0
  deriving DecidableEq, Repr

/-- What one lane asks for: the bytes it reads first (of a shape record, a descriptor, a version word), its segments, the version
word it reads again after them (`more`: before it can tell its segments), the reported address and kind, and the conditions its own
operands meet. -/
structure LaneReq where
  pre  : List Seg := []
  segs : List Seg := []
  look : List Seg := []
  more : Bool := false
  rep  : W64 := 0
  kind : Nat := 0
  own  : List Cond := []
  deriving DecidableEq, Repr

/-! ## Checks of one lane -/

/-- What the checks find for one lane: conditions, missing pages with their fault kinds, absent lines (team, line), the FIFO
bank it queues at, the key of each byte with whether its page is uncached (`pre` those read first, `look` those of the version
word), the leaves used, whether it must wait for a team of its cluster team-set that is not dispatched yet, and the lines of
page tables that another package holds modified. -/
structure LaneAcc where
  conds  : List Cond := []
  pages  : List (Nat × Nat) := []
  lines  : List (Nat × Nat) := []
  fifo   : Option Nat := none
  pre    : List (Nat × Bool) := []
  keys   : List (Nat × Bool) := []
  look   : List (Nat × Bool) := []
  leaves : List Leaf := []
  absentMate : Bool := false
  busy   : List Nat := []
  deriving DecidableEq, Repr

def LaneAcc.append (x y : LaneAcc) : LaneAcc :=
  { conds := x.conds ++ y.conds, pages := x.pages ++ y.pages, lines := x.lines ++ y.lines,
    fifo := match x.fifo with
      | some b => some b
      | none => y.fifo
    pre := x.pre ++ y.pre, keys := x.keys ++ y.keys, look := x.look ++ y.look, leaves := x.leaves ++ y.leaves
    absentMate := x.absentMate || y.absentMate, busy := x.busy ++ y.busy }

/-- The kind code as it stands in AUX. -/
def kindAux (k : Nat) : Nat := k * 16

/-- The SCRATCH banks of a team, in order (spec 10 R198). -/
def Team.scratchBanks (T : Team) : List Bank := T.banks.filter fun b => !b.tape

/-- The poison that a read of `n` bytes at a key meets, if any (spec 21 R420): AUX and address of the report. (DEDUCED, log 45.) -/
def State.poisonAt (s : State) (core k n : Nat) : Option (Nat × W64) :=
  ((List.range n).find? fun i => s.poisoned (k + i) 1).map fun i =>
    let b := k + i
    if decide (2 ^ 57 ≤ k) then (core, 0)
    else if keyPeer b == ownPeer then ((Config.homeSlice (b / 128)).toNat, BitVec.ofNat 64 (keyLocal b))
    else ((Config.homeSlice (b / 128)).toNat, 0)

/-- The checks of the bytes of a scratchpad or cluster segment on team `u` (spec 10 R196-R203). (DEDUCED, log 46.) -/
def State.checkScratch (s : State) (u : Nat) (g : Seg) (rep : W64) : LaneAcc :=
  let T := s.team u
  let off := bitsOf g.addr.toNat 0 32
  let n := g.len
  let aux := kindAux g.acc.kind
  let banks := T.scratchBanks
  let first := off / 32768
  let last := (off + n - 1) / 32768
  let touched := (List.range (last - first + 1)).map fun i => banks.getD (first + i) ⟨0, .off, false, 0, 0⟩
  let own := g.space == .scratch
  -- an access that the team's own queue does not serve is a condition of row 3, before those of row 4
  if own && T.live && touched.any (fun b => b.mode == .fifo) then
    if g.queue && decide (n = 16) && decide (off % 32768 = 0) then { fifo := some first }
    else { conds := [⟨305, 8, 5, aux, rep⟩] }
  else if decide (32768 * banks.length < off + n) then { conds := [⟨401, 7, 2, aux, rep⟩] }
  else
    if !T.live || touched.any (fun b => b.mode != .scratch) then { conds := [⟨404, 7, 5, aux, rep⟩] }
    else
      let key := scratchKey u off
      let lines := ((List.range n).map fun i => (off + i) / 128).eraseDups
      { conds := if g.acc.reads then
          (match s.poisonAt T.core key n with
            | some (a, p) => [⟨901, 21, 6, a, p⟩]
            | none => [])
          else []
        lines := (lines.filter fun l => T.absent.contains l).map fun l => (u, l)
        keys := (List.range n).map fun i => (key + i, false) }

/-- The checks of a piece of a global segment that lies in one page (spec 10 R206-R211, 12 R242). (DEDUCED, log 44.) -/
def State.checkPage (s : State) (t : Nat) (L : Lane) (g : Seg) (rep : W64) (va n : Nat) : LaneAcc :=
  let ctx := s.ctxOf t
  let core := (s.team t).core
  let aux := kindAux g.acc.kind
  let w := s.lookup core ctx L.lastPage va
  let refused := L.bad.contains (pageOf va) || (match w with
    | .leaf f => L.bad.contains f.vbase
    | _ => false)
  if refused then { conds := [⟨602, 6, 2, aux + 7, rep⟩] }
  else match w with
    | .malformed l => { conds := [⟨601, 6, 1, aux + l, rep⟩] }
    | .missing => { pages := [(pageOf va, g.acc.kind)] }
    | .busy l => { busy := [l] }
    | .leaf f =>
      let k := s.normPa (f.pa va)
      let peer := keyPeer k
      let row4 : List Cond := match s.keyBad k with
        | 3 => [⟨406, 7, 7, aux, rep⟩]
        | 4 => [⟨409, 16, 1, peer, rep⟩]
        | 5 => [⟨410, 16, 2, peer, rep⟩]
        | _ => []
      let host : List Cond := match g.acc with
        | .atomic op => if peer == hostPeer && op.op != .add && op.op != .exch && op.op != .cas then [⟨407, 7, 8, aux, rep⟩] else []
        | .scatter => if f.mem || peer != ownPeer then [⟨408, 7, 9, aux, rep⟩] else []
        | _ => []
      let perm : List Cond := if f.allows g.acc.need then [] else [⟨701, 7, 10, aux, rep⟩]
      let poison : List Cond :=
        -- the poison of an uncached page of a peer comes with the home's answer
        if g.acc.reads && !(f.mem && s.isPeerKey k) then
          (match s.poisonAt core k n with
            | some (a, p) => [⟨901, 21, 6, a, p⟩]
            | none => [])
        else []
      let conds := row4 ++ host ++ perm ++ poison
      { conds := conds
        pages := if s.migrates f then [(f.vbase, 4)] else []
        keys := if conds.isEmpty then (List.range n).map fun i => (k + i, f.mem) else []
        leaves := [f] }

/-- The checks of one segment. (DEDUCED, log 187.) -/
def State.checkSeg (s : State) (t : Nat) (L : Lane) (rep : W64) (g : Seg) : LaneAcc :=
  let a := g.addr.toNat
  let aux := kindAux g.acc.kind
  match g.space with
  | .global =>
    if decide (2 ^ 57 ≤ a) then { conds := [⟨201, 7, 1, aux, rep⟩] }
    -- the address form of row 2 is of the operand; a range that leaves the space comes after row 3
    else if decide (2 ^ 57 < a + g.len) then { conds := [⟨399, 7, 1, aux, rep⟩] }
    else (piecesOf a g.len).foldl (fun acc p => acc.append (s.checkPage t L g rep p.1 p.2)) {}
  | .scratch =>
    if decide (2 ^ 32 ≤ a) then { conds := [⟨201, 7, 1, aux, rep⟩] } else s.checkScratch t g rep
  | .cluster =>
    let K := s.kernelOf t
    if decide (2 ^ 35 ≤ a) then { conds := [⟨201, 7, 1, aux, rep⟩] }
    else if decide (K.setSize ≤ a / 2 ^ 32) then { conds := [⟨402, 7, 3, aux, rep⟩] }
    else
      let store : List Cond := if g.acc.writes then [⟨403, 7, 4, aux, rep⟩] else []
      if decide (32768 * ceilDiv K.scratch 32768 < a % 2 ^ 32 + g.len) then { conds := ⟨401, 7, 2, aux, rep⟩ :: store }
      else
        let T := s.team t
        match (indexed s.teams).find? fun x => x.2.grid == T.grid && x.2.idx == T.idx / K.setSize * K.setSize + a / 2 ^ 32 with
        | none => { conds := store, absentMate := true }
        | some (u, _) => ({ conds := store } : LaneAcc).append (s.checkScratch u g rep)

/-- What the answers to a lane's own requests for its bytes report: a failed request (spec 12 R248), or poisoned data
(spec 21 R420). -/
def State.fabricConds (s : State) (who : Nat × Nat × Nat) (rep : W64) (keys : List (Nat × Bool)) : List Cond :=
  let away := keys.filter fun k => s.isPeerKey k.1
  (match away.findSome? fun k => (s.failFor who k.1).map fun f => (k.1, f.remote) with
    | some (k, remote) => [⟨951, 16, if remote then 4 else 3, keyPeer k, rep⟩]
    | none => []) ++
  (match away.find? fun k => s.answerSick who [k] with
    | some k => [⟨901, 21, 6, (Config.homeSlice (k.1 / 128)).toNat, 0⟩]
    | none => [])

/-- The unit under which a lane reads a version word again. -/
def lookUnit (who : Nat × Nat × Nat) : Nat × Nat × Nat := (who.1, who.2.1, who.2.2 + 64)

/-- Whether a unit's requests are made for the lanes of an instance. -/
def Inst.owns (c : Inst) (w : Nat × Nat × Nat) : Bool := w.1 == c.team && w.2.1 == c.group && c.mask.getLsbD (w.2.2 % 64)

/-- The checks of one lane. -/
def State.checkLane (s : State) (c : Inst) (l : Nat) (r : LaneReq) : LaneAcc :=
  let L := (s.instGrp c).lane l
  let who := (c.team, c.group, l)
  let p := r.pre.foldl (fun acc g => acc.append (s.checkSeg c.team L r.rep g)) ({ conds := r.own } : LaneAcc)
  let a := r.segs.foldl (fun acc g => acc.append (s.checkSeg c.team L r.rep g)) ({ p with pre := p.keys, keys := [] } : LaneAcc)
  let look := (r.look.foldl (fun acc g => acc.append (s.checkSeg c.team L r.rep g)) ({} : LaneAcc)).keys
  { a with
    look := look
    conds := a.conds ++ s.fabricConds who r.rep (a.pre ++ a.keys) ++ s.fabricConds (lookUnit who) r.rep look }

/-- The first condition of the table's order that a lane meets. -/
def LaneAcc.first (a : LaneAcc) : Option Cond :=
  a.conds.foldl (fun best x => match best with
    | none => some x
    | some b => if x.ord < b.ord then some x else some b) none

/-- Whether a failing helper lane reads zero: its address would fault, fail protection or fail alignment (spec 07 R143), which are
cause groups 6 and 7, and of group 8 the tile base, the address and the record address (spec 20 Table 20-4); or it reads poisoned
bytes (spec 21 R420). (DEDUCED, log 33; DEDUCED, log 34.) -/
def Cond.readsZero (c : Cond) : Bool :=
  c.cause == 6 || c.cause == 7 || (c.cause == 21 && c.reason == 6) ||
    (c.cause == 8 && (c.reason == 2 || c.reason == 4 || c.reason == 7))

/-! ## The instance -/

/-- What an instruction does in helper lanes: reads, is discarded, or is discarded and pushes zero (spec 11 R241). -/
inductive HelperRule where
  | reads
  | discarded
  deriving DecidableEq, Repr

/-- A memory instruction's instance: what each lane asks for, how many slots it pushes, what a lane that reads zero receives,
how a lane is performed on the bytes at its keys, and what follows when every lane has been performed. `late` gives the
conditions of row 8 over the lanes that no earlier row stops; `checked` marks a read under a version word; `whole` marks a store that is one event, or a read all of whose lanes are
tried together; `plain` marks an access that reads and writes no byte itself; `fresh` one whose lanes read what lower lanes have
written; `holds` says of a lane that it waits without retiring, `wait` how such lanes stand (spec 19 R392). -/
structure MemOp where
  req     : Nat → LaneReq
  pushes  : Nat
  zero    : Nat → LaneOut
  helper  : HelperRule
  perform : Nat → List (Nat × Bool) → State → State × LaneOut
  after   : List (Nat × List (Nat × Bool)) → State → State := fun _ s => s
  late    : List (Nat × LaneAcc) → List (Nat × Cond) := fun _ => []
  checked : Bool := false
  whole   : Bool := false
  release : Bool := false
  plain   : Bool := false
  fresh   : Bool := false
  holds   : List (Nat × Bool) → State → Bool := fun _ _ => false
  wait    : LaneMask → State → State := fun _ s => s

/-- The lane's touch of the bytes as the fabric sees it. -/
def Acc.touch : Acc → Touch
  | .read => .read
  | .lastuse => .read
  | .fetch => .read
  | .write => .write
  | .scatter => .write
  | .discard => .discard
  | .atomic op => .atomic op

/-- The pieces of a lane's keys that each lie in one line, with their lengths; on an uncached page of another package at most 16
bytes may cross a line, since an element that does is read at once (spec 18 R364). -/
def keyRuns : List (Nat × Bool) → List (Nat × Nat × Bool)
  | [] => []
  | (k, u) :: rest =>
    match keyRuns rest with
    | (k', n, u') :: more =>
      if k + 1 == k' && u == u' && (k / 128 == (k' + n - 1) / 128 || (u && peerKey k && decide (n < 16))) then (k, n + 1, u) :: more
      else (k, 1, u) :: (k', n, u') :: more
    | [] => [(k, 1, u)]

/-- Reaching every run of a lane's bytes: the state after what was asked for, and whether all are ready. -/
def State.reachAll (s : State) (who : Nat × Nat × Nat) (grid : Option Nat) (t : Touch) (rs : List (Nat × Nat × Bool)) : State × Bool :=
  rs.foldl (fun (acc : State × Bool) r =>
    match acc.1.reach who grid r.1 r.2.1 r.2.2 t with
    | .ready => acc
    | .wait s' => (s', false)
    | .failed _ => acc) (s, true)

/-- Whether a store of the lane waits for an engine of its team (spec 13 R270, 14 R287, 17 R357). -/
def State.segHeld (s : State) (t : Nat) (g : Seg) : Bool :=
  g.acc.writes && g.acc != .scatter && (match g.space with
    | .global =>
      (match g.acc with
        | .discard => s.heldBack t (s.ctxOf t) (g.addr.toNat / 128 * 128) 128
        | .lastuse => s.heldBack t (s.ctxOf t) (g.addr.toNat / 128 * 128) 128
        | _ => s.heldBack t (s.ctxOf t) g.addr.toNat g.len)
    | .scratch => s.heldBack t (256 + t) (bitsOf g.addr.toNat 0 32) g.len
    | .cluster => false)

/-- Whether a write or discard by a lane of the team is on its way to another package: its instruction has not retired. Every write
that has retired has been performed (spec 12 R247, 18 R383). -/
def State.teamPending (s : State) (t : Nat) : Bool :=
  s.fab.requests.any fun r => (match r.who with
    | some w => w.1 == t && decide (w.2.1 < 252)
    | none => false) && (match r.kind with
    | .uncachedWrite _ => true
    | .discard => true
    | _ => false)

/-- The grid that a team's fabric failures are reported to. -/
def State.gridOpt (s : State) (t : Nat) : Option Nat := some (s.team t).grid

/-- The FIFO lanes of the instance that find no entry or no free slot, in ascending lane order (spec 10 R201). -/
def State.fifoParks (s : State) (c : Inst) (lanes : List (Nat × LaneAcc)) (append : Bool) : List (Nat × Nat) :=
  let count (b : Nat) : Nat :=
    let B := (s.team c.team).scratchBanks.getD b ⟨0, .off, false, 0, 0⟩
    (B.tail + 4096 - B.head) % 4096
  (lanes.foldl (fun (acc : List (Nat × Nat) × List (Nat × Nat)) x =>
    match x.2.fifo with
    | none => acc
    | some b =>
      let n := assocGet acc.2 b (count b)
      if append then
        (if decide (2048 ≤ n) then ((x.1, b) :: acc.1, acc.2) else (acc.1, assocSet acc.2 b (n + 1)))
      else
        (if n = 0 then ((x.1, b) :: acc.1, acc.2) else (acc.1, assocSet acc.2 b (n - 1)))) ([], [])).1

/-- The poison that lanes meet in the entries of FIFO banks that they remove, in ascending lane order (spec 21 R420). -/
def State.fifoPoison (s : State) (c : Inst) (lanes : List (Nat × LaneAcc)) : List (Nat × Cond) :=
  let T := s.team c.team
  (lanes.foldl (fun (acc : List (Nat × Cond) × List (Nat × Nat)) x =>
    match x.2.fifo with
    | none => acc
    | some b =>
      let B := T.scratchBanks.getD b ⟨0, .off, false, 0, 0⟩
      let i := assocGet acc.2 b 0
      let found := if decide (i < (B.tail + 4096 - B.head) % 4096) then
          s.poisonAt T.core (scratchKey c.team (b * 32768 + (B.head + i) % 2048 * 16)) 16
        else none
      (match found with
        | some (a, p) => acc.1 ++ [(x.1, ⟨901, 21, 6, a, p⟩)]
        | none => acc.1, assocSet acc.2 b (i + 1))) ([], [])).1

/-- The position of the `b`-th SCRATCH bank in the team's list of banks. -/
def Team.bankIndex (T : Team) (b : Nat) : Nat :=
  (((indexed T.banks).filter fun x => !x.2.tape).map (·.1)).getD b 0

/-- One FIFO entry appended or removed at a bank: its key, and the state with the counter moved. -/
def State.fifoStep (s : State) (t b : Nat) (append : Bool) : Nat × State :=
  let T := s.team t
  let i := T.bankIndex b
  let B := T.banks.getD i ⟨0, .off, false, 0, 0⟩
  let ctr := if append then B.tail else B.head
  let key := scratchKey t (b * 32768 + ctr % 2048 * 16)
  (key, s.modTeam t fun T => { T with banks := modNth T.banks i fun B =>
    if append then { B with tail := (B.tail + 1) % 4096 } else { B with head := (B.head + 1) % 4096 } })

/-- The trap of a failing row: the condition met first in the table's order, its lanes, the lowest of them (spec 11 R221). -/
def rowTrap (bad : List (Nat × Cond)) : Option TrapInfo :=
  match bad.foldl (fun best x => match best with
    | none => some x.2.ord
    | some b => some (min b x.2.ord)) (none : Option Nat) with
  | none => none
  | some o =>
    let hit := bad.filter fun x => x.2.ord == o
    match hit with
    | [] => none
    | (l, x) :: _ =>
      let aux := if x.cause == 9 && x.reason == 2 then hit.foldl (fun a y => min a y.2.aux) x.aux else x.aux
      some (trapAddr x.cause l x.reason aux x.addr (laneMask fun i => hit.any fun y => y.1 == i))

/-- The park of lanes on what they miss. -/
def parkOf (accs : List LaneAcc) (fifo : List Nat) : Park :=
  { id := 0
    pages := (accs.flatMap fun a => a.pages.map (·.1)).eraseDups
    lines := (accs.flatMap fun a => a.lines).eraseDups
    fifo := fifo }

/-- A fault record for every missing page (spec 10 R211). -/
def State.recordFaults (s : State) (t : Nat) (pages : List (Nat × Nat)) : State :=
  let ctx := s.ctxOf t
  let core := (s.team t).core
  pages.foldl (fun s p => s.ensureFault ctx p.1 p.2 core) s

/-- The registers of the lanes after an access: last-page registers and core TLB filled (spec 10 R209). -/
def State.noteLeaves (s : State) (c : Inst) (xs : List (Nat × LaneAcc)) : State :=
  let core := (s.team c.team).core
  let ctx := s.ctxOf c.team
  let s := xs.foldl (fun s x => x.2.leaves.foldl (fun s f => s.tlbAdd core ctx f) s) s
  s.modGroup c.team c.group fun G => G.mapLanes fun l L =>
    match (xs.find? fun x => x.1 == l).bind fun x => x.2.leaves.getLast? with
    | some f => { L with lastPage := some f }
    | none => L

/-- The lanes of an instance park, on what they miss; `xs` are the lanes with what their checks found. -/
def State.parkLanes (s : State) (c : Inst) (xs : List (Nat × LaneAcc)) (fifo : List Nat) : State :=
  if xs.isEmpty then s
  else
    let s := s.recordFaults c.team (xs.flatMap fun x => x.2.pages)
    s.park c.team c.group (laneMask fun l => xs.any fun x => x.1 == l) (parkOf (xs.map (·.2)) fifo)

/-- Bytes that a lane saw as they were answered, or as they were kept for it, stand again as this device has them. -/
def State.unsee (s' view s : State) (ks : List (Nat × Bool)) : State :=
  (ks.filter fun k => (!s.isPeerKey k.1 || (s.proxy (k.1 / 128)).isSome) && memRead view.mem k.1 != memRead s.mem k.1).foldl
    (fun t k => { t with mem := memWriteN t.mem k.1 [memRead s.mem k.1] }) s'

/-- The fold that performs the lanes in ascending order (spec 11 R222). (DESIGN CHOICE, log 6.) -/
def performLanes (c : Inst) (op : MemOp) (append : Bool) (xs : List (Nat × LaneAcc)) (s : State) :
    State × List (Nat × LaneOut) :=
  xs.foldl (fun (acc : State × List (Nat × LaneOut)) x =>
    let s := acc.1
    let wide := (op.req x.1).segs.any fun g => match g.acc with
      | .atomic o => o.wide
      | _ => false
    let ks := x.2.pre ++ x.2.keys
    let view := ks.foldl (fun s k => if s.isPeerKey k.1 || op.checked then s.useAnswer (c.team, c.group, x.1) wide k.1 else s) s
    let (keys, s1) := match x.2.fifo with
      | none => (x.2.keys, view)
      | some b =>
        let (k, s) := view.fifoStep c.team b append
        ((List.range 16).map fun i => (k + i, false), s)
    let (s2, o) := op.perform x.1 keys s1
    (s2.unsee view s ks, acc.2 ++ [(x.1, o)])) (s, [])

/-- Lanes reached by `f` one after another, as far as each is ready: the state, the lanes that were, and whether all were. -/
def State.reachTurns (s : State) (f : State → Nat → LaneAcc → State × Bool) :
    List (Nat × LaneAcc) → State × List (Nat × LaneAcc) × Bool
  | [] => (s, [], true)
  | x :: xs =>
    let r := f s x.1 x.2
    if r.2 then
      let t := r.1.reachTurns f xs
      (t.1, x :: t.2.1, t.2.2)
    else (r.1, [], false)

/-- What lanes have read is kept for them while lanes above them wait (spec 11 R222, R231): `ks` are the bytes of a lane, `who` the
unit that has read them. -/
def State.keepLanes (s : State) (who : Nat → Nat × Nat × Nat) (ks : LaneAcc → List (Nat × Bool)) (xs : List (Nat × LaneAcc)) :
    State :=
  xs.foldl (fun s x => (keyRuns (ks x.2)).foldl (fun s r => s.keepBytes (who x.1) r.1 r.2.1) s) s

/-- Reaching what a lane reads first; and the version word again, where that decides what else it reads (spec 01 R35). -/
def State.reachPre (s : State) (c : Inst) (l : Nat) (more : Bool) (a : LaneAcc) : State × Bool :=
  let who := (c.team, c.group, l)
  let p := s.reachAll who (s.gridOpt c.team) .read (keyRuns a.pre)
  let far (ks : List (Nat × Bool)) : Bool := ks.any fun k => k.2 && s.isPeerKey k.1
  if p.2 then (if more then p.1.reachAll (lookUnit who) (s.gridOpt c.team) .read (keyRuns a.look) else p)
  -- the first reading of a version word that is here is kept while the record at another package is awaited
  else if more && !far a.look then ((keyRuns a.look).foldl (fun s k => s.keepBytes who k.1 k.2.1) p.1, false)
  else p

/-- Reaching everything a lane needs: the bytes it reads first, then its own. -/
def State.reachLane (s : State) (c : Inst) (op : MemOp) (l : Nat) (a : LaneAcc) : State × Bool :=
  let who := (c.team, c.group, l)
  let p := s.reachPre c l (op.req l).more a
  if op.plain || !p.2 then p
  else
    match (op.req l).segs.head? with
    | none => p
    | some g => p.1.reachAll who (s.gridOpt c.team) g.acc.touch (keyRuns a.keys)

/-- The reads of an instance under version words whose first readings are at hand: every lane's run, in the order of the lanes, then
every lane's second reading; what has been read is kept while the rest is awaited (spec 11 R231). -/
def State.readTurns (s : State) (c : Inst) (xs : List (Nat × LaneAcc)) : State × Bool :=
  let who (l : Nat) : Nat × Nat × Nat := (c.team, c.group, l)
  let a := s.reachTurns (fun s l x => s.reachAll (who l) (s.gridOpt c.team) .read (keyRuns x.keys)) xs
  if !a.2.2 then ((a.1.keepLanes who (·.pre) xs).keepLanes who (·.keys) a.2.1, false)
  else
    let b := a.1.reachTurns (fun s l x => s.reachAll (lookUnit (who l)) (s.gridOpt c.team) .read (keyRuns x.look)) xs
    if b.2.2 then (b.1, true)
    else (((b.1.keepLanes who (·.pre) xs).keepLanes who (·.keys) xs).keepLanes (fun l => lookUnit (who l)) (·.look) b.2.1, false)

/-- The discards that follow the reads of an instance, each line's when every lane has read: what the lanes have read from peers
is kept for them (spec 11 R227). -/
def State.reachDiscard (s : State) (c : Inst) (l : Nat) (a : LaneAcc) : State × Bool :=
  let who := (c.team, c.group, l)
  let rs := keyRuns a.keys
  let s := rs.foldl (fun s r => if s.isPeerKey r.1 then s.keepBytes who r.1 r.2.1 else s) s
  s.reachAll who (s.gridOpt c.team) .discard rs

/-- Whether the two readings of a lane's version word forbid its read: they differ, or are odd. -/
def State.versionOdd (s : State) (c : Inst) (l : Nat) (a : LaneAcc) : Bool :=
  let who := (c.team, c.group, l)
  let v := s.seenNat who a.look
  v % 2 == 1 || s.seenNat (lookUnit who) a.look != v

/-- The attempts a version-checked read may make (spec 01 R35, 11 R231). -/
def maxTries : Nat := 4096

/-- The unsuccessful attempts of an instance so far. -/
def triesOf (G : Group) (m : LaneMask) : Nat := (maskLanes m).foldl (fun n l => max n (G.lane l).tries) 0

/-- An unsuccessful attempt: the instance is executed again, and reads everything again. (DEDUCED, log 35.) -/
def State.tryAgain (s : State) (c : Inst) : State :=
  let n := triesOf (s.instGrp c) c.mask + 1
  (s.clearAnswers c.owns).modGroup c.team c.group fun G => G.mapLanes fun l L => if c.mask.getLsbD l then { L with tries := n } else L

/-- A trap of a memory instance: answers to its lanes' requests are dropped. -/
def memTrap (s : State) (c : Inst) (m : Mods) (x : TrapInfo) : Res :=
  trapRes (s.clearAnswers c.owns) c m x

/-- The place of "record version" in the order of Table 11-1. -/
def ordVersion : Nat := 199

/-- The keys of a lane's bytes with their addresses. -/
def LaneReq.vas (r : LaneReq) (keys : List (Nat × Bool)) : List (Nat × Nat) :=
  (keys.map (·.1)).zip (r.segs.flatMap fun g => (List.range g.len).map fun i => g.addr.toNat + i)

/-- Lanes reached one after the other by `f`, and what was asked for is named by the lanes' addresses. -/
def State.reachLanes (s : State) (op : MemOp) (f : State → Nat → LaneAcc → State × Bool) (xs : List (Nat × LaneAcc)) :
    State × Bool :=
  let r := s.reachTurns f xs
  (r.1.nameRequests s.fab.nextTag (xs.flatMap fun x => (op.req x.1).vas x.2.keys), r.2.2)

/-! ## Lanes performed in turn -/

/-- A line's discard by a unit has been performed. -/
def State.markDone (s : State) (who : Nat × Nat × Nat) (line : Nat) : State :=
  { s with fab := { s.fab with answers := s.fab.answers ++ [⟨who, line * 128, .done⟩] } }

/-- What lanes have been performed to, recorded while lanes above them wait. -/
def State.keepParts (s : State) (c : Inst) (outs : List (Nat × LaneOut)) : State :=
  let new := (outs.map fun o => ((c.team, c.group, o.1), o.2)).filter fun p => (s.partOf p.1).isNone
  { s with fab := { s.fab with parts := s.fab.parts ++ new } }

/-- Whether an access to memory by a lane of the instance has begun that other agents may have seen. -/
def State.begun (s : State) (c : Inst) : Bool :=
  (s.fab.parts.any fun p => c.owns p.1) || (s.fab.answers.any fun a => c.owns a.who && a.value == .done) ||
  s.fab.requests.any fun r => match r.who, r.kind with
    | some w, .uncachedWrite _ => c.owns w
    | _, _ => false

/-- What the lanes above `l` have read is dropped: they read what lane `l` writes (spec 11 R222). -/
def State.dropReads (s : State) (c : Inst) (l : Nat) : State :=
  { s with fab := { s.fab with answers := s.fab.answers.filter fun a => !c.owns a.who || a.who.2.2 == l || a.value == .done } }

/-- One lane in its turn: what it receives when it has been performed, in the state after it; none while it waits, in a state that has
asked for what it misses or has sent what it writes. A line that the instance has discarded is not discarded again. -/
def laneTurn (c : Inst) (op : MemOp) (append : Bool) (s : State) (l : Nat) (a : LaneAcc) : State × Option LaneOut :=
  let who := (c.team, c.group, l)
  match s.partOf who with
  | some o => (s, some o)
  | none =>
    let r := s.reachLane c op l a
    let name (t : State) : State := t.nameRequests s.fab.nextTag ((op.req l).vas a.keys)
    let line : Option Nat := if (op.req l).segs.any (fun g => g.acc == .discard) then a.keys.head?.map (·.1 / 128) else none
    if !r.2 then (name r.1, none)
    else if (line.map fun n => s.performedAt (sameGroup who) (n * 128)) == some true then (r.1, some {})
    else
      let p := performLanes c op append [(l, a)] r.1
      match r.1.stillToSend p.1 with
      | some t =>
        let t := if op.fresh then t.dropReads c l else t
        (name (if straddles a.keys then t.lockLines who a.keys else t), none)
      | none =>
        (match line with
          | some n => p.1.markDone who n
          | none => p.1, some ((p.2.map (·.2)).headD {}))

/-- The lanes of an instance in turn, from the first that has not been performed on, as far as they can be: the state, what the
performed ones receive, and whether all have been (spec 11 R222, 18 R371). (DEDUCED, log 197.) -/
def takeTurns (c : Inst) (op : MemOp) (append : Bool) (s : State) : List (Nat × LaneAcc) → State × List (Nat × LaneOut) × Bool
  | [] => (s, [], true)
  | x :: xs =>
    match laneTurn c op append s x.1 x.2 with
    | (s', none) => (s', [], false)
    | (s', some o) =>
      let t := takeTurns c op append s' xs
      (t.1, (x.1, o) :: t.2.1, t.2.2)

/-- The discards of LASTUSE in turn, when every lane has read; each line once (spec 11 R227). -/
def discardTurns (c : Inst) (s : State) : List (Nat × LaneAcc) → State × Bool
  | [] => (s, true)
  | x :: xs =>
    let who := (c.team, c.group, x.1)
    match x.2.keys.head? with
    | none => discardTurns c s xs
    | some k =>
      if s.performedAt (sameGroup who) (k.1 / 128 * 128) then discardTurns c s xs
      else
        match s.reach who (s.gridOpt c.team) k.1 1 k.2 .discard with
        | .wait t => (t, false)
        | .failed _ => discardTurns c s xs
        | .ready => discardTurns c ((s.discardKey k.1).markDone who (k.1 / 128)) xs

/-- What a lane of an instance receives: what it was performed to; a helper lane that does not take part reads zero or receives
zeros (spec 07 R143). -/
def MemOp.out (op : MemOp) (bad : List (Nat × LaneAcc)) (outs : List (Nat × LaneOut)) (l : Nat) : LaneOut :=
  match outs.find? fun y => y.1 == l with
  | some y => y.2
  | none =>
    match bad.find? fun y => y.1 == l with
    | some y =>
      (match y.2.first with
        | none => if y.2.pages.isEmpty then zeroPushes op.pushes else op.zero l
        | some k => if k.readsZero then op.zero l else zeroPushes op.pushes)
    | none => zeroPushes op.pushes

/-- Whether a lane that would retire goes on outside the code: its instruction traps, and nothing of it is performed (spec 01 R19). -/
def State.leavesCode (s : State) (c : Inst) (m : Mods) (stay : LaneMask) : Bool :=
  decide ((s.instKernel c).codeSize ≤ (afterUnit c.pc m).toNat) &&
    (maskLanes (c.mask &&& ~~~stay)).any fun l => !((s.instGrp c).lane l).helper

/-- The lanes of an instance performed in turn: those that have been stand recorded while another waits, and the instance is executed
again; when all have been, it retires. `bad` are helper lanes that do not take part, `rest` the lanes performed, `stay` those that do
not go on, which `park` parks. -/
def memTurns (c : Inst) (m : Mods) (act : LaneMask) (op : MemOp) (append : Bool) (bad rest : List (Nat × LaneAcc))
    (stay : LaneMask) (park : State → State) (s : State) : Res :=
  if s.leavesCode c m stay then finishSeq c m stay (s.clearAnswers c.owns) s
  else
    let t := takeTurns c op append s rest
    let wait (u : State) : Res := .next ((if op.whole then u else u.keepParts c t.2.1).stall c)
    let retire (u : State) : Res :=
      let u := (park u).noteLeaves c rest
      let u := if rest.any fun x => x.2.fifo.isSome then u.wakeParks else u
      finishSeq c m stay s ((u.commitLanes c act stay op.pushes (op.out bad t.2.1)).clearAnswers c.owns)
    let last := rest.filter fun x => !((s.instGrp c).lane x.1).helper && (op.req x.1).segs.any fun g => g.acc == .lastuse
    if !t.2.2 then wait t.1
    else if !last.isEmpty then
      let d := discardTurns c t.1 last
      if d.2 then retire d.1 else wait d.1
    else
      let u := op.after (rest.map fun x => (x.1, x.2.keys)) t.1
      match t.1.stillToSend u with
      | some v =>
        let ks := rest.flatMap fun x => x.2.keys
        wait (if straddles ks then v.lockLines (c.team, c.group, (rest.map (·.1)).headD 0) ks else v)
      | none => retire u

/-- The end of a memory instance all of whose lanes have their bytes at hand: `s1` is the state with the lanes of `park` parked. When
something must be sent first, its lanes are performed in turn. -/
def memPerform (c : Inst) (m : Mods) (act : LaneMask) (op : MemOp) (append : Bool) (bad rest : List (Nat × LaneAcc))
    (stay : LaneMask) (park : State → State) (s s1 : State) : Res :=
  let done := performLanes c op append rest (s1.noteLeaves c rest)
  let s2 := op.after (rest.map fun x => (x.1, x.2.keys)) done.1
  let s2 := if rest.any fun x => x.2.fifo.isSome then s2.wakeParks else s2
  if s2.fab.nextTag == s1.fab.nextTag then
    finishSeq c m stay s ((s2.commitLanes c act stay op.pushes (op.out bad done.2)).clearAnswers c.owns)
  else memTurns c m act op append bad rest stay park s

/-- A memory instance that no row of Table 11-1 traps: parked, waiting, tried again, or performed. -/
def memProceed (c : Inst) (m : Mods) (act : LaneMask) (op : MemOp) (bad go : List (Nat × LaneAcc)) (s : State) : Res :=
  let G := s.instGrp c
  let append := go.any fun x => (op.req x.1).segs.any fun g => g.acc.writes
  let missing := go.filter fun x => !x.2.pages.isEmpty || !x.2.lines.isEmpty
  let fifo := s.fifoParks c go append
  let parked := go.filter fun x => (missing.any fun y => y.1 == x.1) || (fifo.any fun y => y.1 == x.1)
  let without (ls : LaneMask) : Inst := { c with mask := c.mask &&& ~~~ls }
  let banks := (fifo.map fun y => 2 * (s.team c.team).bankIndex y.2 + (if append then 1 else 0)).eraseDups
  let stay := laneMask fun l => parked.any fun y => y.1 == l
  let park (s : State) : State := s.parkLanes c parked banks
  let rest := go.filter fun x => !(parked.any fun y => y.1 == x.1)
  let held := rest.any fun x => x.2.absentMate || (!op.plain && (op.req x.1).segs.any fun g => s.segHeld c.team g)
  let first := if op.checked then s.readTurns c rest else s.reachLanes op (fun s l a => s.reachLane c op l a) rest
  let last := rest.filter fun x => !(G.lane x.1).helper && (op.req x.1).segs.any fun g => g.acc == .lastuse
  let reached := if first.2 && !last.isEmpty then first.1.reachLanes op (fun s l a => s.reachDiscard c l a) last else first
  if op.whole && !parked.isEmpty && (!op.checked || first.2) then
    -- every lane of Active() parks, no lane retires; lanes outside Active() issue again
    let all := (maskLanes act).map fun l => (l, ((go.find? fun x => x.1 == l).map (·.2)).getD {})
    .next (((s.clearAnswers c.owns).parkLanes c all []).stall (without act))
  else if held || (op.release && s.teamPending c.team) then .next (s.stall c)
  else if op.checked && !first.2 then .next (first.1.stall c)
  else if !reached.2 || rest.any fun x => (s.partOf (c.team, c.group, x.1)).isSome then
    memTurns c m act op append bad rest stay park s
  else
    let sp := park reached.1
    let odd := rest.filter fun x => op.checked && s.versionOdd c x.1 x.2
    if odd.isEmpty then
      let waits := laneMask fun l => rest.any fun x => x.1 == l && op.holds x.2.keys s
      memPerform c m act op append bad (rest.filter fun x => !waits.getLsbD x.1) (stay ||| waits) park s (op.wait waits sp)
    else if triesOf G c.mask + 1 < maxTries then .next (sp.tryAgain c)
    else
      match rowTrap ((odd.filter fun x => !(G.lane x.1).helper).map fun x => (x.1, ⟨ordVersion, 11, 2, 0, (op.req x.1).rep⟩)) with
      | some x => memTrap s c m x
      | none =>
        memPerform c m act op append (bad ++ odd) (rest.filter fun x => !odd.any fun y => y.1 == x.1) stay park s sp

/-- A memory instance under Table 11-1: trap, park and wait, or performed in the lanes that remain. `act` is Active().
(DEDUCED, log 195.) -/
def memInst (c : Inst) (m : Mods) (act : LaneMask) (op : MemOp) (s : State) : Res :=
  let G := s.instGrp c
  let isHelper (l : Nat) : Bool := (G.lane l).helper
  -- the lanes that take part in the checks: discarded helper lanes do not
  let lanes := (maskLanes act).filter fun l => !(isHelper l && op.helper == .discarded)
  -- a lane that has been performed while others wait is checked no more
  let found := lanes.map fun l => (l, if (s.partOf (c.team, c.group, l)).isSome then
      ({ keys := (s.checkLane c l (op.req l)).keys } : LaneAcc) else s.checkLane c l (op.req l))
  let poison := if found.any fun x => (op.req x.1).segs.any fun g => g.acc.writes then [] else s.fifoPoison c found
  let all := found.map fun x => (x.1, { x.2 with conds := x.2.conds ++ (poison.filter fun y => y.1 == x.1).map (·.2) })
  let full := all.filter fun x => !isHelper x.1
  let own := full.filterMap fun x => x.2.first.map fun k => (x.1, k)
  let rows := own ++ op.late (full.filter fun x => match x.2.first with
    | some k => decide (801 < k.ord)
    | none => true)
  -- what a lane reads first decides its checks: every lane's must be at hand
  let pre := if op.fresh && s.begun c then (s, [], true)
    else s.reachTurns (fun s l a => s.reachPre c l (op.req l).more a) all
  let tables := all.flatMap fun x => x.2.busy
  -- a shape record whose version is odd is read again, unless an earlier condition of row 1 decides
  let again := (all.any fun x => match x.2.first with
    | some k => k.ord == ordVersion
    | none => false) && rows.all (fun x => decide (ordVersion ≤ x.2.ord)) && decide (triesOf G c.mask + 1 < maxTries)
  if !tables.isEmpty then .next ((s.recallLines tables).stall c)
  else if !pre.2.2 then
    .next ((if op.checked then pre.1.keepLanes (fun l => (c.team, c.group, l)) (·.pre) pre.2.1 else pre.1).stall c)
  else if again then .next (s.tryAgain c)
  else
    match rowTrap rows with
    | some x => memTrap s c m x
    | none =>
      -- a failing helper lane reads zero or receives zeros; an absent line or an empty FIFO is no failure
      let failed (x : Nat × LaneAcc) : Bool := isHelper x.1 && (!x.2.conds.isEmpty || !x.2.pages.isEmpty)
      memProceed c m act op (all.filter failed) (all.filter fun x => !failed x) s

/-! ## Values of bytes at keys -/

/-- The little-endian number at a list of keys. -/
def State.keysNat (s : State) (ks : List (Nat × Bool)) : Nat := leNat (ks.map fun k => memRead s.mem k.1)

/-- The cells of a number written at a list of keys. -/
def cellsOf (ks : List (Nat × Bool)) (v : Nat) : List (Nat × Bool × Byte) :=
  (ks.zip (leBytes ks.length v)).map fun x => (x.1.1, x.1.2, x.2)

end Sys2Proof.Machine
end

