-- ==== Sys2Proof/Machine/EngineMem.lean ====
section
/-! DEFINITION. How engines reach memory: translation, banks, absent lines, poison and the fabric, for matrix engines, the update
unit, copy engines and collectives (spec 10 R200-R211, 12 R242-R248, 13 R270, R275, 17 R354). -/

namespace Sys2Proof.Machine

/-- Why an engine's access fails. -/
inductive EngFail where
  | translation
  | protection
  | fabric
  | poison
  | scratchRange
  | bankMode
  deriving DecidableEq, Repr

/-- The reason of Table 13-1. -/
def EngFail.reason : EngFail → Nat
  | .translation => 1
  | .protection => 2
  | .fabric => 3
  | .poison => 4
  | .scratchRange => 5
  | .bankMode => 6

/-- The item status of Table 17-8; a scratchpad range is checked when a card is accepted. -/
def EngFail.status : EngFail → Nat
  | .translation => 2
  | .protection => 3
  | .fabric => 4
  | .poison => 5
  | .scratchRange => 6
  | .bankMode => 6

/-- An engine's unit: its identity on the fabric, the grid it works for, and the context of its global addresses. -/
structure Unit where
  who  : Nat × Nat × Nat
  grid : Nat
  ctx  : Nat
  deriving DecidableEq, Repr

/-- What an engine's access does. -/
inductive EngTouch where
  | read
  | write
  /-- A write that keeps bits of the bytes it writes. -/
  | merge
  deriving DecidableEq, Repr

/-- How an engine's access to a range ends: pieces (key, length, uncached) in a state that holds their bytes; missing pages; a
wait, in a state that has asked for what is missing; or a failure. -/
inductive EngAcc where
  | ok (s : State) (ps : List (Nat × Nat × Bool))
  | pages (ps : List Nat)
  | wait (s : State)
  | bad (f : EngFail)

/-- The pieces of ranges cut at lines. -/
def linePieces (ps : List (Nat × Nat × Bool)) : List (Nat × Nat × Bool) :=
  ps.flatMap fun p =>
    let first := p.1 / 128
    (List.range ((p.1 + p.2.1 + 127) / 128 - first)).map fun i =>
      let lo := max p.1 ((first + i) * 128)
      (lo, min (p.1 + p.2.1) ((first + i + 1) * 128) - lo, p.2.2)

/-- Whether lines of a team's scratchpad range are absent. -/
def Team.anyAbsent (T : Team) (off n : Nat) : Bool := T.absent.any fun l => sameByte (l * 128) 128 off n

/-- Whether a team's scratchpad banks stand: until it ends, and after a halt for the items still under way (spec 20 R406
step 5). (DEDUCED, log 51.) -/
def Team.hasBanks (T : Team) : Bool := T.live || T.status == .discarded

/-- A scratchpad range of a team as an engine finds it. -/
def State.engScratch (s : State) (u off n : Nat) (own : Bool) : EngAcc :=
  let T := s.team u
  let banks := T.scratchBanks
  if n = 0 then .ok s []
  else if decide (32768 * banks.length < off + n) then .bad .scratchRange
  else
    let touched := (List.range ((off + n - 1) / 32768 - off / 32768 + 1)).map fun i => banks[off / 32768 + i]?
    if !T.hasBanks || touched.any (fun b => match b with
      | some b => b.mode != .scratch
      | none => true) then .bad .bankMode
    else if !own && T.anyAbsent off n then .wait s
    else .ok s [(scratchKey u off, n, false)]

/-- The answered bytes of an uncached page of a peer stand at their keys, poisoned as the home sent them; where a copy of their line is
held here meanwhile, the copy's bytes are taken. -/
def State.takeBytes (s : State) (who : Nat × Nat × Nat) (k : Nat) : State :=
  match if (s.proxy (k / 128)).isSome then none else s.answerFor who k with
  | none => s
  | some a =>
    let s := s.useAnswer who false k
    if PeerAnswer.sick a.value then s.addPoison (k / 128) else s.curePoison fun l => l == k / 128

/-- A global range as an engine finds it. -/
def State.engGlobal (s : State) (w : Unit) (a n : Nat) (t : EngTouch) : EngAcc :=
  if n = 0 then .ok s []
  else
    match s.unitRange w.ctx a n (if t == .read then { rd := true } else { w := true }) 5 with
    | .bad 1 => .bad .translation
    | .bad 4 => .bad .fabric
    | .bad 5 => .bad .fabric
    | .bad _ => .bad .protection
    | .missing ps => .pages (ps.map (·.1)).eraseDups
    | .busy l => .wait (s.recallLine l)
    | .ok ps =>
      let ls := linePieces ps
      if ls.any fun p => (s.isPeerKey p.1 && (s.failFor w.who p.1).isSome) || (isHostKey p.1 && s.hub.hostDown) then .bad .fabric
      else
        let r0 := if t == .write then (s, true) else s.reachAll w.who (some w.grid) .read ls
        let r := if t == .read then r0 else
          let r1 := r0.1.reachAll w.who (some w.grid) .write ls
          (r1.1, r0.2 && r1.2)
        if r.2 then .ok (ls.foldl (fun s p => if s.isPeerKey p.1 then s.takeBytes w.who p.1 else s) r.1) ls
        else .wait r.1

/-- An engine's access to a range of a domain, whatever poison it meets: a context, or 256 plus a team's serial number. `own` marks
the card whose own region the lines are, which does not wait for them. -/
def State.engPlain (s : State) (w : Unit) (dom a n : Nat) (t : EngTouch) (own : Bool) : EngAcc :=
  if decide (256 ≤ dom) then s.engScratch (dom - 256) a n own else s.engGlobal w a n t

/-- An engine's access to a range of a domain. Reading poisoned bytes fails. -/
def State.engRange (s : State) (w : Unit) (dom a n : Nat) (t : EngTouch) (own : Bool) : EngAcc :=
  match s.engPlain w dom a n t own with
  | .ok s' ps => if t == .read && s'.piecesPoisoned ps then .bad .poison else .ok s' ps
  | x => x

/-- Ranges of domains reached one after the other by `f`: all their pieces in order, or the first failure; a range that is still to be
decided is waited for before missing pages are, which are gathered over all of the ranges. -/
def reachRanges (f : State → Nat × Nat × Nat → EngAcc) (s : State) : List (Nat × Nat × Nat) → EngAcc
  | [] => .ok s []
  | r :: rest =>
    match f s r with
    | .bad x => .bad x
    | .pages ps =>
      (match reachRanges f s rest with
        | .pages qs => .pages (ps ++ qs).eraseDups
        | .ok _ _ => .pages ps
        | x => x)
    | .wait s' =>
      (match reachRanges f s' rest with
        | .bad x => .bad x
        | .pages _ => .wait s'
        | .wait s'' => .wait s''
        | .ok s'' _ => .wait s'')
    | .ok s' ps =>
      (match reachRanges f s' rest with
        | .ok s'' qs => .ok s'' (ps ++ qs)
        | x => x)

/-- An engine's accesses to ranges of domains. -/
def State.engRanges (s : State) (w : Unit) (t : EngTouch) (own : Bool) (rs : List (Nat × Nat × Nat)) : EngAcc :=
  reachRanges (fun s r => s.engRange w r.1 r.2.1 r.2.2 t own) s rs

/-- The keys of pieces, byte by byte. -/
def pieceKeys (ps : List (Nat × Nat × Bool)) : List (Nat × Bool) :=
  ps.flatMap fun p => (List.range p.2.1).map fun i => (p.1 + i, p.2.2)

/-- One store of an engine over pieces. -/
def State.engStore (s : State) (w : Unit) (ps : List (Nat × Nat × Bool)) (bs : List Byte) : State :=
  s.storeCells w.who (some w.grid) (((pieceKeys ps).zip bs).map fun x => (x.1.1, x.1.2, x.2))

/-- Poison that an engine sends to a line of host memory, which was not poisoned before: an error entry of its grid (spec 21 R418, R420). -/
def State.toHost (s : State) (w : Unit) (k : Nat) : State :=
  if isHostKey k && !s.poison.contains (k / 128) then s.errorEntry w.grid 6 (BitVec.ofNat 64 (k / 128 * 128)) else s

/-- A byte that an engine leaves in error: here, or at the home of an uncached page of a peer, to which a write that changes no bit
carries the poison (spec 13 R281, 21 R420). -/
def State.spoil (s : State) (w : Unit) (k : Nat × Bool) : State :=
  if !s.isPeerKey k.1 then (s.toHost w k.1).poisonByte k.1
  else if k.2 then s.ask { requestFor k.1 (.uncachedWrite [⟨k.1, 0, 0⟩]) (some w.grid) (some w.who) with bad := true }
  else (s.poisonByte k.1).setProxy (k.1 / 128) (some .m) (some w.grid)

/-- The lines of pieces poisoned by an engine. -/
def State.spoilLines (s : State) (w : Unit) (ps : List (Nat × Nat × Bool)) : State :=
  ps.foldl (fun s p => if s.isPeerKey p.1 && p.2.2 then s.spoil w (p.1, true)
    else
      let s := (s.toHost w p.1).addPoison (p.1 / 128)
      if s.isPeerKey p.1 then s.setProxy (p.1 / 128) (some .m) (some w.grid) else s) s

/-- Fault records for the pages an engine item waits on (spec 10 R211). -/
def State.engFaults (s : State) (ctx : Nat) (pages : List Nat) : State :=
  pages.foldl (fun s p => s.ensureFault ctx p (s.faultKind ctx p 5) 0xFF) s

/-- The answers and failures of an engine's requests dropped. -/
def State.engDone (s : State) (w : Unit) : State := s.clearAnswers fun x => x == w.who

/-! ## Bytes by line -/

/-- The 128-byte lines, as (domain, line number), that hold ranges. -/
def rangeLines (rs : List (Nat × Nat × Nat)) : List (Nat × Nat) :=
  (rs.flatMap fun r => (List.range ((r.2.1 + r.2.2 + 127) / 128 - r.2.1 / 128)).map fun i => (r.1, r.2.1 / 128 + i)).eraseDups

/-- Lines as whole ranges. -/
def lineRanges (ls : List (Nat × Nat)) : List (Nat × Nat × Nat) := ls.map fun l => (l.1, l.2 * 128, 128)

/-- A table from lines to the keys of their first bytes, and whether they are uncached. -/
abbrev LineTab := List ((Nat × Nat) × (Nat × Bool))

/-- The table of lines whose pieces have been reached: each line is one piece. -/
def lineTab (ls : List (Nat × Nat)) (ps : List (Nat × Nat × Bool)) : LineTab :=
  ls.zip (ps.map fun p => (p.1, p.2.2))

/-- The key of a byte of a domain by its line. -/
def LineTab.key (t : LineTab) (dom a : Nat) : Nat × Bool :=
  match t.find? fun x => x.1 == (dom, a / 128) with
  | some x => (x.2.1 + a % 128, x.2.2)
  | none => (0, false)

/-- The little-endian number of `n` bytes of a domain. -/
def State.tabNat (s : State) (t : LineTab) (dom a n : Nat) : Nat :=
  leNat ((List.range n).map fun i => memRead s.mem (t.key dom (a + i)).1)

/-- `b` bits from bit `bit` of the bytes from `a` on. -/
def State.tabBits (s : State) (t : LineTab) (dom a bit b : Nat) : Nat :=
  bitsOf (s.tabNat t dom (a + bit / 8) ((bit % 8 + b + 7) / 8)) (bit % 8) b

end Sys2Proof.Machine
end

