-- ==== Sys2Proof/Machine/Records.lean ====
section
/-! DEFINITION. Shape records as instructions fetch them through a core's cache (spec 01 R35, R36, 11 R232), and runs of tile
elements as bits at byte offsets (spec 11 R228-R230). -/

namespace Sys2Proof.Machine

/-! ## Shape records -/

/-- What the fetch of a record gives a lane: the bytes it reads first, the version word it reads again after them, the condition it
meets, and the record with its version and bytes when it has been read whole. -/
structure RecFetch where
  pre : List Seg := []
  look : List Seg := []
  own : List Cond := []
  got : Option (Shape × W32 × List Byte) := none

/-- The bytes of a global segment that a lane can read now, as its own unit or as the one that reads a version word again; none while
it misses a page or an answer, or fails. -/
def State.laneBytes (s : State) (c : Inst) (l : Nat) (again : Bool) (rep : W64) (g : Seg) : Option (List Byte) :=
  let a := s.checkLane c l { pre := [g], rep := rep }
  let who := if again then lookUnit (c.team, c.group, l) else (c.team, c.group, l)
  if !a.conds.isEmpty || !a.pages.isEmpty || !a.busy.isEmpty then none
  else if !(s.reachAll who none .read (keyRuns a.pre)).2 then none
  else
    let s := a.pre.foldl (fun s k => s.useAnswer who false k.1) s
    some (a.pre.map fun k => memRead s.mem k.1)

/-- The entry of a core's shape-record cache for an address. -/
def State.shapeEntry (s : State) (core ctx addr : Nat) : Option ShapeEntry :=
  s.mm.shapes.find? fun e => e.core == core && e.ctx == ctx && e.addr == addr

/-- The version-checked fetch that fills the cache (spec 01 R35): after the first reading of the version, the header, the table,
and the version again. -/
def State.refill (s : State) (c : Inst) (l : Nat) (ra : W64) (version : Nat) : RecFetch :=
  let ver : Seg := ⟨.global, ra + 8, 4, .read, false⟩
  let hd : Seg := ⟨.global, ra, 64, .read, false⟩
  let odd (pre : List Seg) : RecFetch := { pre := pre, own := [⟨ordVersion, 11, 1, 0, ra⟩] }
  if version % 2 == 1 then odd [ver]
  else
    match s.laneBytes c l false ra hd with
    | none => { pre := [ver, hd], look := [ver] }
    | some h =>
      let n := (parseShape h).nseq
      let tb : List Seg := if n == 0 || decide (512 < n) then [] else [⟨.global, ra + 64, 4 * n, .read, false⟩]
      let all := ver :: hd :: tb
      match tb.mapM (s.laneBytes c l false ra), s.laneBytes c l true ra ver with
      | some ts, some again =>
        let bs := h ++ ts.flatten
        let r := parseShape bs
        if leNat again != version then odd all
        else if r.malformed then { pre := all, own := [⟨102, 9, 1, 0, ra⟩] }
        else { pre := all, got := some (r, r.version, bs) }
      | _, _ => { pre := all, look := [ver] }

/-- The record at an address as an instruction of a lane finds it (spec 01 R36); `kind` is the instruction's access kind. -/
def State.recordFor (s : State) (c : Inst) (l : Nat) (ra : W64) (kind : Nat) : RecFetch :=
  if ra.toNat % 64 != 0 then { own := [⟨101, 8, 7, kindAux kind, ra⟩] }
  else
    let ver : Seg := ⟨.global, ra + 8, 4, .read, false⟩
    match s.laneBytes c l false ra ver with
    | none => { pre := [ver] }
    | some v =>
      match s.shapeEntry (s.team c.team).core (s.ctxOf c.team) ra.toNat with
      | none => s.refill c l ra (leNat v)
      | some e =>
        if e.version.toNat == leNat v then { pre := [ver], got := some (parseShape e.bytes, e.version, e.bytes) }
        else s.refill c l ra (leNat v)

/-- Cache entries whose record now shows another version are dropped (spec 01 R36). -/
def State.dropStale (s : State) (c : Inst) (named : List (Nat × W64)) : State :=
  let core := (s.team c.team).core
  let ctx := s.ctxOf c.team
  let stale (x : Nat × W64) : Bool :=
    match s.shapeEntry core ctx x.2.toNat, s.laneBytes c x.1 false x.2 ⟨.global, x.2 + 8, 4, .read, false⟩ with
    | some e, some v => e.version.toNat != leNat v
    | _, _ => false
  let gone := (named.filter stale).map fun x => x.2.toNat
  if gone.isEmpty then s
  else { s with mm := { s.mm with shapes := s.mm.shapes.filter fun e => !(e.core == core && e.ctx == ctx && gone.contains e.addr) } }

/-- A record used: first of its core's 16 entries. -/
def State.useShape (s : State) (core ctx addr : Nat) (version : W32) (bytes : List Byte) : State :=
  let others := s.mm.shapes.filter fun e => e.core != core
  let mine := s.mm.shapes.filter fun e => e.core == core && !(e.ctx == ctx && e.addr == addr)
  { s with mm := { s.mm with shapes := ⟨core, ctx, addr, version, bytes⟩ :: mine.take 15 ++ others } }

/-- The records that an instruction has read in its lanes, entered in the cache. -/
def State.useRecords (s : State) (c : Inst) (xs : List (W64 × RecFetch)) : State :=
  xs.foldl (fun s x => match x.2.got with
    | some (_, v, bs) => s.useShape (s.team c.team).core (s.ctxOf c.team) x.1.toNat v bs
    | none => s) s

/-! ## Runs of elements -/

/-- Where element `e` of a run stands in the lane's value (spec 11 R229). -/
def elemPos (b e : Nat) : Nat := if b == 6 then 32 * (e / 4) + 6 * (e % 4) else b * e

/-- The byte offsets that hold the elements of a run, ascending: `es` are elements with their bit offsets. -/
def runBytes (b : Nat) (es : List (Nat × Nat)) : List Nat :=
  sortBy (fun x y => decide (x < y))
    (es.flatMap fun e => (List.range ((e.2 + b - 1) / 8 - e.2 / 8 + 1)).map fun i => e.2 / 8 + i).eraseDups

/-- Ascending offsets as (start, length) ranges. -/
def offsetRuns : List Nat → List (Nat × Nat)
  | [] => []
  | a :: rest =>
    match offsetRuns rest with
    | (b, n) :: more => if a + 1 == b then (a, n + 1) :: more else (a, 1) :: (b, n) :: more
    | [] => [(a, 1)]

/-- The value of a run whose bytes have the values `vals` at the offsets `offs`. -/
def gatherRun (b : Nat) (es : List (Nat × Nat)) (offs : List Nat) (vals : List Byte) : Nat :=
  let tab := offs.zip vals
  es.foldl (fun v e =>
    let raw := leNat ((List.range ((e.2 + b - 1) / 8 - e.2 / 8 + 1)).map fun i => assocGet tab (e.2 / 8 + i) 0)
    v + bitsOf raw (e.2 % 8) b * 2 ^ elemPos b e.1) 0

/-- The bytes of a run after a value has been stored over it: bits of other elements are kept. -/
def spreadRun (b : Nat) (es : List (Nat × Nat)) (offs : List Nat) (vals : List Byte) (v : Nat) : List Byte :=
  (offs.zip vals).map fun x =>
    BitVec.ofNat 8 ((List.range 8).foldl (fun n i =>
      let p := 8 * x.1 + i
      match es.find? fun e => decide (e.2 ≤ p) && decide (p < e.2 + b) with
      | some e => setBits n i 1 (bitsOf v (elemPos b e.1 + (p - e.2)) 1)
      | none => n) x.2.toNat)

/-- The segments of a run from a base address. -/
def runSegs (sp : Space) (base : W64) (acc : Acc) (offs : List Nat) : List Seg :=
  (offsetRuns offs).map fun r => ⟨sp, base + BitVec.ofNat 64 r.1, r.2, acc, false⟩

end Sys2Proof.Machine
end

