-- ==== Sys2Proof/Machine/Cards.lean ====
section
/-! DEFINITION. Job cards: the checks of KICK, acceptance, the completion record, barrier-object decrements, and the work of the
copy engines (spec 17 R349-R363). -/

namespace Sys2Proof.Machine

def State.card (s : State) (n : Nat) : Card := s.eng.cards.getD n { bytes := [], core := 0, team := 0, grid := 0, ctx := 0, nitem := 0 }
def State.modCard (s : State) (n : Nat) (f : Card → Card) : State :=
  { s with eng := { s.eng with cards := modNth s.eng.cards n f } }

/-! ## The check of a card (spec 17 R353) -/

/-- A 64-bit field as a source field. -/
def Card.source (C : Card) (off : Nat) : Source := parseSource (BitVec.ofNat 64 (C.f off 8))

/-- Whether a source field is not one of the permitted spaces, or bad for the team. -/
def State.cardSourceBad (s : State) (t : Nat) (C : Card) (off : Nat) (spaces : List Nat) : Bool :=
  let x := C.source off
  x.bad || !spaces.contains x.space || (x.space == 2 && decide ((s.kernelOf t).setSize ≤ x.rank))

/-- Whether a number lies outside limits. -/
def outside (x lo hi : Nat) : Bool := decide (x < lo) || decide (hi < x)

/-- Whether the body of a card breaks a limit of Tables 17-4 to 17-6. -/
def State.cardBodyBad (s : State) (t : Nat) (C : Card) : Bool :=
  let k := C.kind
  let size : Bool := outside (C.f 0x38 2) 1 16384 || outside (C.f 0x3A 2) 1 16384
  if k == kCopy then
    s.cardSourceBad t C 0x18 [0, 1, 2] || s.cardSourceBad t C 0x20 [0, 1] || decide (1 < C.f 0x2C 4) ||
      bitsOf (C.f 0x30 8) 57 7 != 0 || C.f 0x3C 4 != 0
  else if k == kCopy2d then
    s.cardSourceBad t C 0x18 [0, 1, 2] || s.cardSourceBad t C 0x20 [0, 1] || outside (C.f 0x28 4) 1 65536 ||
      outside (C.f 0x2C 4) 1 65536 || decide (C.f 0x34 4 < C.f 0x28 4) || C.f 0x38 8 != 0
  else if k == kGather then
    s.cardSourceBad t C 0x18 [0, 1, 2] || s.cardSourceBad t C 0x20 [0, 1] || s.cardSourceBad t C 0x30 [0, 1] ||
      outside (C.f 0x28 4) 1 4096 || outside (C.f 0x2C 4) 1 65536 || C.f 0x38 4 == 0 || C.f 0x3C 4 != 0
  else if k == kFill then s.cardSourceBad t C 0x18 [0, 1] || !((C.bytes.drop 0x2C).all fun b => b == 0)
  else if k == kRast then size || C.nprim == 0 || C.f 0x10 8 != 0
  else if k == kRastAdj then size || C.nprim == 0
  else if k == kEdge then
    size || outside (C.f 0x30 4) 1 65535 || outside (bitsOf (C.f 0x34 4) 0 7) 1 64 || C.f 0x34 4 / 128 != 0
  else
    outside C.nelem 1 (2 ^ 28) || !([2, 3, 4, 0x12].contains (bitsOf C.cctl 24 8)) || decide (2 < bitsOf C.cctl 20 4) ||
      (k == kAllGath && bitsOf C.cctl 20 4 != 0) || outside C.nrank 2 2257 || C.cctl % 256 != 0 || C.f 0x3C 4 != 0 ||
      bitsOf (C.f 0x28 8) 57 7 != 0

/-- Bytes of a copy kind's source. -/
def Card.srcLen (C : Card) : Nat :=
  if C.kind == kCopy then C.f 0x28 4
  else if C.kind == kCopy2d then C.f 0x30 4 * (C.f 0x2C 4 - 1) + C.f 0x28 4
  else C.f 0x38 4 * C.f 0x28 4

/-- Whether the source in a mate's scratchpad lies outside its SCRATCH banks: every team of the set has as many as the issuing one,
dispatched or not. -/
def Card.mateSourceBad (C : Card) (room : Nat) : Bool :=
  [kCopy, kCopy2d, kGather].contains C.kind && (C.source 0x18).space == 2 && decide (0 < C.srcLen) &&
    decide (room < (C.source 0x18).addr + C.srcLen)

/-- Whether KICK finds a card bad. -/
def State.cardBad (s : State) (t : Nat) (C : Card) : Bool :=
  let room := 32768 * (s.team t).scratchBanks.length
  let h := C.f 0 4
  let rs := s.cardRegions t C
  outside C.kind 1 10 || bitsOf h 16 8 != 1 || bitsOf h 0 11 != 0 || decide (5 < bitsOf h 11 3) ||
    C.booff % 8 != 0 || decide (room < C.booff + 8) || C.crec == 0 || C.crec % 64 != 0 || decide (2 ^ 57 ≤ C.crec) ||
    (C.rel && !C.isBytes) || s.cardBodyBad t C || decide (65536 < C.items) || C.mateSourceBad room ||
    (rs.any fun r => decide (256 ≤ r.dom) && decide (0 < r.len) && decide (room < r.start + r.len)) ||
    (rs.any fun r => rs.any fun x => r.write && !x.write && r.overlaps x)

/-! ## Ranges of items (spec 17 Table 17-3, R350) -/

/-- Bytes of item `i`'s share of the total; 1 for the kinds counted in items. -/
def Card.share (C : Card) (i : Nat) : Nat :=
  if !C.isBytes then 1
  else if C.kind == kCopy2d || C.kind == kGather then C.f 0x28 4
  else min 65536 (C.total - 65536 * i)

/-- The destination field's offset in the card. -/
def Card.dstOff (C : Card) : Nat := if C.kind == kFill then 0x18 else 0x20

/-- Whether a card's destination lies in the scratchpad. -/
def Card.toScratch (C : Card) : Bool := [kCopy, kCopy2d, kGather, kFill].contains C.kind && (C.source C.dstOff).space == 1

/-- The offset of item `i`'s destination from the destination's start. -/
def Card.dstAt (C : Card) (i : Nat) : Nat :=
  if C.kind == kCopy2d then C.f 0x34 4 * i else if C.kind == kGather then C.f 0x28 4 * i else 65536 * i

/-- Bytes of item `i` that are written: a ragged copy writes no more than its range. -/
def Card.written (C : Card) (i : Nat) : Nat :=
  match C.range with
  | some (_, n) => min (C.share i) (n - 65536 * i)
  | none => C.share i

/-- The scratchpad lines that item `i` covers. -/
def Card.itemLines (C : Card) (i : Nat) : List Nat :=
  if C.toScratch && decide (0 < C.share i) then
    let a := (C.source C.dstOff).addr + C.dstAt i
    (List.range ((a + C.share i + 127) / 128 - a / 128)).map fun k => a / 128 + k
  else []

/-- Whether item `i` covers a scratchpad line. -/
def Card.coversLine (C : Card) (i line : Nat) : Bool :=
  C.toScratch &&
    sameByte ((C.source C.dstOff).addr + C.dstAt i) (C.share i) (line * 128) 128

/-- Whether the card's regions lie wholly in global memory (spec 17 R362, R363). -/
def State.cardGlobal (s : State) (C : Card) : Bool := (s.cardRegions C.team C).all fun r => decide (r.dom < 256)

/-! ## The completion record (spec 17 R354, R360) -/

/-- The engine that works for a card. -/
def State.cardUnit (s : State) (n : Nat) : Unit :=
  let C := s.card n
  { who := (n, 255, 0), grid := C.grid, ctx := C.ctx }
/-- The request engine as it writes a card's record. -/
def State.recUnit (s : State) (n : Nat) : Unit := { s.cardUnit n with who := (n, 252, 0) }

/-- One indivisible subtraction from a card's barrier object. -/
def State.boSub (s : State) (n k : Nat) : State :=
  let C := s.card n
  if k = 0 then s
  else match s.engScratch C.team C.booff 8 true with
  | .ok _ _ =>
    let key := scratchKey C.team C.booff
    s.wr key (leBytes 8 ((s.rdNat key 8 + 2 ^ 64 - k % 2 ^ 64) % 2 ^ 64))
  | _ => s

/-- The decrements that wait for writes of a card's record made all the same: its record cannot be written, or waits for a page. -/
def State.decAll (s : State) (n : Nat) : State :=
  let ds := (s.card n).owed.map (·.dec)
  ds.foldl (fun s k => s.boSub n k) (s.modCard n fun C => { C with owed := C.owed.map fun x => { x with dec := 0 } })

/-- A card's record cannot be written: an error entry of its grid. -/
def State.recLost (s : State) (n : Nat) : State :=
  let C := s.card n
  if C.recFail then s
  else (((s.decAll n).modCard n fun C => { C with recFail := true, owed := [], recPages := [], recSent := false }).clearAnswers
    fun w => w == (n, 252, 0)).errorEntry C.grid 4 (BitVec.ofNat 64 C.crec)

/-- The first owed write of a record has been made: what waited for it is subtracted (R359). -/
def State.recMade (s : State) (n k : Nat) : State :=
  ((s.modCard n fun C => { C with owed := C.owed.drop 1, recSent := false }).clearAnswers fun w => w == (n, 252, 0)).boSub n k

/-- The first owed write of a record made, as far as it can be; whether it is over. Only a missing page lets the decrements of items go
on without their status bytes (spec 17 R354). -/
def State.payRec (s : State) (n : Nat) (x : OwedWrite) : State × Bool :=
  let C := s.card n
  let w := s.recUnit n
  if C.recSent then
    (if s.unitFailed w.who then (s.recLost n, true)
     else if s.unitPending w.who then (s, false)
     else (s.recMade n x.dec, true))
  else match s.engGlobal w (C.crec + x.off) x.data.length .write with
    | .bad _ => (s.recLost n, true)
    | .pages ps =>
      if ps.any C.recBad.contains then (s.recLost n, true)
      else (((s.engFaults C.ctx ps).modCard n fun C => { C with recPages := ps }).decAll n, false)
    | .wait s' => (s', false)
    | .ok s' ps =>
      let s'' := s'.engStore w ps x.data
      if s''.unitPending w.who then (s''.modCard n fun C => { C with recSent := true }, false) else (s''.recMade n x.dec, true)

/-- Owed writes made in order as far as they can be. -/
def State.payAll (s : State) (n : Nat) : State :=
  ((List.range (s.card n).owed.length).foldl (fun (acc : State × Bool) _ =>
    match acc.2, (acc.1.card n).owed with
    | true, x :: _ => acc.1.payRec n x
    | _, _ => acc) (s, true)).1

/-- A write of a card's record owed, with what is subtracted once it has been made; a record that cannot be written is not waited for. -/
def State.oweRec (s : State) (n : Nat) (x : OwedWrite) : State :=
  if (s.card n).recFail then s.boSub n x.dec else s.modCard n fun C => { C with owed := C.owed ++ [x] }

/-- The header as acceptance writes it, and every status byte 0. -/
def recHeader (nitem : Nat) : List Byte :=
  leBytes 4 0x43520100 ++ leBytes 4 0 ++ leBytes 4 nitem ++ List.replicate 12 0 ++ leBytes 8 (2 ^ 64 - 1) ++
    List.replicate (32 + nitem) 0

/-- Bytes 0x04 to 0x27 as the end of the card writes them. -/
def Card.finalBytes (C : Card) (now : W64) : List Byte :=
  let bad := C.done.filter fun x => x.2 != 1
  let first := bad.foldl (fun m x => min m x.1) (2 ^ 64 - 1)
  leBytes 4 1 ++ leBytes 4 C.nitem ++ leBytes 4 bad.length ++ leBytes 4 C.flags.toNat ++ leBytes 4 C.count ++
    leBytes 8 first ++ leBytes 8 now.toNat

/-! ## Decrements and ends (spec 17 R359, R360, R362) -/

/-- Whether bytes of a scratchpad line that item `i` writes have still to arrive. -/
def Card.awaitsLine (C : Card) (i line : Nat) : Bool :=
  !(C.done.any fun x => x.1 == i) &&
    (if C.cur == some i then
      C.toScratch &&
        sameByte ((C.source C.dstOff).addr + C.dstAt i + C.pos) (C.written i - C.pos) (line * 128) 128
    else C.coversLine i line)

/-- Scratchpad lines for which no byte that the card writes has still to arrive are present (spec 10 R202). -/
def State.showLines (s : State) (n : Nat) (lines : List Nat) : State :=
  let C := s.card n
  let still (l : Nat) : Bool := (List.range C.nitem).any fun i => C.awaitsLine i l
  let gone := lines.filter fun l => !still l
  if gone.isEmpty then s
  else (s.modTeam C.team fun T => { T with absent := T.absent.filter fun l => !gone.contains l }).wakeParks

/-- The card has ended: its flags reach its grid, its collective inputs are dropped. -/
def State.finishCard (s : State) (n : Nat) : State :=
  let C := s.card n
  let s := s.modCard n fun C => { C with ended := true, lastDue := none }
  let s := if C.detach then s else s.gridFlags C.grid C.flags
  let s := if C.kind == kAllRed || C.kind == kAllGath || C.kind == kRedScat then
      { s with eng := { s.eng with collIn := s.eng.collIn.filter fun x => x.ctag.toNat != C.f 0x38 4 } }
    else s
  s.clearAnswers fun w => w.1 == n && (w.2.1 == 255 || w.2.1 == 252)

/-- The last decrement of a card, once its record has been written; whether it has been made. -/
def State.tryLast (s : State) (n : Nat) : State :=
  let s := s.payAll n
  let C := s.card n
  match C.lastDue with
  | some k => if C.owed.isEmpty then (s.boSub n k).finishCard n else s
  | none => s

/-- Item `i` of a card ends with a status: its status byte, the rest of its share, and the end of the card (R359, R360). -/
def State.endItem (s : State) (n i status : Nat) : State :=
  let C := s.card n
  let rest := C.share i - (if C.cur == some i then C.subDone else 0)
  let s := s.modCard n fun C => { C with
    done := C.done ++ [(i, status)]
    cur := if C.cur == some i then none else C.cur
    pos := if C.cur == some i then 0 else C.pos
    subDone := if C.cur == some i then 0 else C.subDone
    mark := if C.cur == some i then 0 else C.mark
    sent := if C.cur == some i then false else C.sent
    sick := if C.cur == some i then false else C.sick
    fail := if C.cur == some i then none else C.fail
    pages := if C.cur == some i then [] else C.pages
    bad := if C.cur == some i then [] else C.bad }
  let last := C.done.length + 1 == C.nitem
  let s := s.oweRec n { off := 0x40 + i, data := [BitVec.ofNat 8 status], dec := if last then 0 else rest }
  let s := s.showLines n (C.itemLines i)
  let s := if C.cur == some i then s.clearAnswers fun w => w == (n, 255, 0) else s
  if last then
    let (now, s) := s.lookTime
    let s := s.oweRec n { off := 4, data := (s.card n).finalBytes now }
    (s.modCard n fun C => { C with lastDue := some rest }).tryLast n
  else s.payAll n

/-- Every item of a card that has not ended ends with a status; with `hold`, the last of them stays. -/
def State.endAllItems (s : State) (n status : Nat) (hold : Bool) : State :=
  let C := s.card n
  let left := (List.range C.nitem).filter fun i => !(C.done.any fun x => x.1 == i)
  (if hold then left.dropLast else left).foldl (fun s i => s.endItem n i status) s

/-! ## Acceptance (spec 17 R353, R354, 10 R202) -/

/-- Cards of a core that have not ended. (DEDUCED, log 102.) -/
def State.coreCards (s : State) (core : Nat) : Nat := (s.eng.cards.filter fun C => C.core == core && !C.ended).length

/-- A card accepted. -/
def State.acceptCard (s : State) (C : Card) : State :=
  let n := s.eng.cards.length
  let (now, s) := s.lookTime
  let C := { C with relDue := !C.rel || decide (C.reltime ≤ now.toNat) }
  let s := { s with eng := { s.eng with cards := s.eng.cards ++ [C] } }
  let s := (s.oweRec n { off := 0, data := recHeader C.nitem }).payAll n
  let lines := ((List.range C.nitem).flatMap C.itemLines).eraseDups
  let s := if lines.isEmpty then s
    else s.modTeam C.team fun T => { T with absent := (T.absent ++ lines).eraseDups }
  if C.nitem == 0 then
    let (now, s) := s.lookTime
    let s := s.oweRec n { off := 4, data := (s.card n).finalBytes now }
    (s.modCard n fun C => { C with lastDue := some 0 }).tryLast n
  else s

/-! ## Which item may begin (spec 17 R356, R361, R363) -/

/-- Whether an earlier card of the core that has not ended stands in a card's way. -/
def State.cardBlocked (s : State) (n : Nat) : Bool :=
  let C := s.card n
  let rs := s.cardRegions C.team C
  (indexed s.eng.cards).any fun y =>
    decide (y.1 < n) && y.2.core == C.core && !y.2.ended &&
      (s.cardRegions y.2.team y.2).any fun r => rs.any fun x => (r.write || x.write) && r.overlaps x

/-- Whether a card's engine may work: its team is present, or its regions are all global. -/
def State.cardRuns (s : State) (n : Nat) : Bool :=
  let C := s.card n
  !C.ended && (match (s.team C.team).status with
    | .vacated => s.cardGlobal C
    | .switchedOut => s.cardGlobal C
    | _ => true)

/-- Whether the next item of a byte-kind, edge or raster card can begin. (DESIGN CHOICE, log 98.) -/
def State.itemReady (s : State) (n : Nat) : Bool :=
  let C := s.card n
  C.cur.isNone && decide (C.nextItem < C.nitem) &&
    (C.cancel.isSome || (s.cardRuns n && C.relDue && C.pages.isEmpty && !s.cardBlocked n))

/-- The next item begins; one that is cancelled, or whose card has failed as a whole, fails at once. (DEDUCED, log 97.) -/
def State.beginItem (s : State) (n : Nat) : State :=
  s.modCard n fun C => { C with
    cur := some C.nextItem, nextItem := C.nextItem + 1
    fail := match C.cancel with
      | some x => some x
      | none => C.kfail }

/-! ## Ragged copies (spec 17 R350, 01 R35) -/

/-- How the fetch of what a card needs before its first item ends. -/
inductive CardFetch where
  | got (s : State) (f : Card → Card)
  | wait (s : State)
  | pages (ps : List Nat)

/-- The status of an engine's failure to read a record. -/
def recordFail (s : State) (f : EngFail) : CardFetch := .got s fun C => { C with kfail := some f.status }

/-- Bytes that a card's engine reads, all at once. -/
def State.cardRead (s : State) (n dom a len : Nat) : EngAcc := s.engRange (s.cardUnit n) dom a len .read false

/-- What a record says of a ragged copy: the range moved, or the status of every item. -/
def raggedRange (r : Shape) (y : Layout) (seq src len : Nat) : Nat ⊕ (Nat × Nat) :=
  if decide (2 < r.rank) then .inl 14
  else if decide (max r.nseq 1 ≤ seq) then .inl 10
  else
    let row := ceilDiv (r.ext.getD 1 1) y.C * y.stride
    let a := r.start seq
    let b := r.stop seq
    if decide (b ≤ a) then .inr (r.base, 0)
    else
      let lo := r.base + a / y.R * row
      let hi := r.base + ((b - 1) / y.R + 1) * row
      if decide (lo < src) || decide (src + len < hi) then .inl 10 else .inr (lo, hi - lo)

/-- An attempt at a ragged copy's record under one version has failed: it is tried again, up to 4,096 times. -/
def State.raggedAgain (s : State) (n : Nat) : CardFetch :=
  if decide ((s.card n).tries + 1 < 4096) then .got s fun C => { C with tries := C.tries + 1 }
  else .got s fun C => { C with kfail := some 9 }

/-- The version word of a ragged copy's record, read by the unit `who`, which keeps what it read. -/
def State.raggedVersion (s : State) (n : Nat) (who : Nat × Nat × Nat) : EngAcc :=
  let w := { s.cardUnit n with who := who }
  match s.engRange w w.ctx ((s.card n).f 0x30 8 + 8) 4 .read false with
  | .ok s' ps => .ok (ps.foldl (fun s p => s.keepBytes who p.1 p.2.1) s') ps
  | x => x

/-- The shape record of a ragged copy, fetched under its version: the version, the header and the table, and the version again
(spec 01 R35). (DEDUCED, log 147; DEDUCED, log 148.) -/
def State.fetchRagged (s : State) (n : Nat) : CardFetch :=
  let C := s.card n
  let a := C.f 0x30 8
  let stop (f : EngFail) : CardFetch := .got s fun C => { C with kfail := some f.status }
  if a % 64 != 0 then .got s fun C => { C with kfail := some 8 }
  else
    match s.raggedVersion n (n, 255, 2) with
    | .bad f => stop f
    | .pages ps => .pages ps
    | .wait s1 => .wait s1
    | .ok s1 vs =>
      let v := s1.seenNat (n, 255, 2) (pieceKeys vs)
      if v % 2 == 1 then s1.raggedAgain n
      else
        match s1.cardRead n C.ctx a 64 with
        | .bad f => stop f
        | .pages ps => .pages ps
        | .wait s2 => .wait s2
        | .ok s2 ps =>
          let h := s2.rdPieces ps
          let m := (parseShape h).nseq
          match s2.cardRead n C.ctx (a + 64) (if decide (512 < m) then 0 else 4 * m) with
          | .bad f => stop f
          | .pages ps => .pages ps
          | .wait s3 => .wait s3
          | .ok s3 qs =>
            match s3.raggedVersion n (n, 255, 1) with
            | .bad f => stop f
            | .pages ps => .pages ps
            | .wait s4 => .wait s4
            | .ok s4 us =>
              let r := parseShape (h ++ s3.rdPieces qs)
              if s4.seenNat (n, 255, 1) (pieceKeys us) != v || r.version.toNat != v then s4.raggedAgain n
              else
                match r.malformed, parseLayout r.layout with
                | false, some y =>
                  (match raggedRange r y (C.f 0x38 4) (C.source 0x18).addr (C.f 0x28 4) with
                    | .inl st => .got s4 fun C => { C with kfail := some st }
                    | .inr x => .got s4 fun C => { C with range := some x })
                | _, _ => .got s4 fun C => { C with kfail := some 8 }

/-- What a card needs before its first item: the record of a ragged copy. -/
def State.cardNeeds (s : State) (n : Nat) : Option CardFetch :=
  let C := s.card n
  if C.kind == kCopy && C.f 0x30 8 != 0 && C.range.isNone && C.kfail.isNone && C.cancel.isNone then some (s.fetchRagged n) else none

/-! ## Lines of a card's sources (spec 17 R357) -/

/-- The numbers of the lines that hold `len` bytes from `a` on. -/
def linesOf (a len : Nat) : List Nat := (List.range ((a + len + 127) / 128 - a / 128)).map fun k => a / 128 + k

/-- The bytes of a line that a card has read and still has. -/
def Card.aheadLine (C : Card) (l : Nat × Nat) : Option (List Byte) :=
  (C.ahead.find? fun x => x.1 == l.1 && x.2.1 == l.2).map (·.2.2)

/-- The part of a line's piece that holds bytes of a range. -/
def pieceIn (a len line : Nat) (p : Nat × Nat × Bool) : Nat × Nat × Bool :=
  let lo := max a (line * 128)
  (p.1 + (lo - line * 128), min (a + len) ((line + 1) * 128) - lo, p.2.2)

/-- What a card reads from ranges: the bytes of each, the keys of the lines in which a byte of a range is poisoned, and the lines
that the card keeps. -/
structure LinesRead where
  bytes : List (List Byte)
  sick  : List Nat
  ahead : List (Nat × Nat × List Byte)

/-- How the reading of lines ends. -/
inductive SourceRead where
  | got (s : State) (x : LinesRead)
  | wait (s : State)
  | pages (ps : List Nat)
  | bad (f : EngFail)

/-- Ranges of domains read by a card by whole lines, each once: a line that another agent writes meanwhile is wholly old or wholly new
(spec 17 R357). Of the lines read before, those for which `also` holds are kept too; a poisoned line is not kept. (DEDUCED, log 202.) -/
def State.readLines (s : State) (n : Nat) (also : Nat × Nat → Bool) (rs : List (Nat × Nat × Nat)) : SourceRead :=
  let C := s.card n
  let used := (rs.flatMap fun r => (linesOf r.2.1 r.2.2).map fun l => (r.1, l)).eraseDups
  let fresh := used.filter fun l => (C.aheadLine l).isNone
  match reachRanges (fun s r => s.engPlain (s.cardUnit n) r.1 r.2.1 128 .read false) s (fresh.map fun l => (l.1, l.2 * 128, 128)) with
  | .bad f => .bad f
  | .pages ps => .pages ps
  | .wait s' => .wait s'
  | .ok s' ps =>
    let tab := fresh.zip ps
    let lineBytes (l : Nat × Nat) : List Byte := match tab.find? fun x => x.1 == l with
      | some x => s'.rd x.2.1 128
      | none => (C.aheadLine l).getD []
    let rangeBytes (r : Nat × Nat × Nat) : List Byte :=
      (((linesOf r.2.1 r.2.2).flatMap fun l => lineBytes (r.1, l)).drop (r.2.1 % 128)).take r.2.2
    let sick := (tab.filter fun x => rs.any fun r => r.1 == x.1.1 && (linesOf r.2.1 r.2.2).contains x.1.2 &&
      s'.piecesPoisoned [pieceIn r.2.1 r.2.2 x.1.2 x.2]).map fun x => x.2.1 / 128 * 128
    let clean (l : Nat × Nat) : Bool := !(tab.any fun x => x.1 == l && s'.piecesPoisoned [x.2])
    let kept := (used.filter clean).map fun l => (l.1, l.2, lineBytes l)
    .got s' ⟨rs.map rangeBytes, sick, kept ++ C.ahead.filter fun x => also (x.1, x.2.1) && !used.contains (x.1, x.2.1)⟩

/-- The lines that a card keeps. -/
def State.keepLines (s : State) (n : Nat) (x : LinesRead) : State := s.modCard n fun C => { C with ahead := x.ahead }

/-! ## Lines of a copy (spec 17 R350, R358, 21 R420) -/

/-- A card's item fails with a status. -/
def State.failItem (s : State) (n status : Nat) : State := s.modCard n fun C => { C with fail := some status }

/-- A card's item waits for pages; it fails when one of them is unresolvable (spec 10 R211). -/
def State.waitItem (s : State) (n : Nat) (ps : List Nat) : State :=
  let C := s.card n
  if ps.any C.bad.contains then s.failItem n 2
  else (s.engFaults C.ctx ps).modCard n fun C => { C with pages := (C.pages ++ ps).eraseDups }

/-- The lines of the index of item `i` of a GATHER card, none for another kind. -/
def State.indexLines (s : State) (n i : Nat) : List (Nat × Nat) :=
  let C := s.card n
  if C.kind != kGather then []
  else match s.place C.team (C.source 0x30) with
    | some (d, a) => (linesOf (a + 4 * i) 4).map fun l => (d, l)
    | none => []

/-- Where the source bytes of item `i` from `pos` on lie: a range, in a state that keeps the index read for it; the bytes themselves; or a
status. -/
inductive ItemSource where
  | range (s : State) (dom a : Nat)
  | bytes (bs : List Byte)
  | status (st : Nat)
  | wait (s : State)
  | pages (ps : List Nat)

/-- The source of `len` bytes of an item of a copy kind. (DEDUCED, log 99.) -/
def State.itemSource (s : State) (n i pos len : Nat) : ItemSource :=
  let C := s.card n
  let at_ (off : Nat) : ItemSource :=
    match s.place C.team (C.source 0x18) with
    | some (d, a) => .range s d (a + off)
    | none => .wait s
  if C.kind == kFill then
    .bytes ((List.range len).map fun x => BitVec.ofNat 8 (bitsOf (C.f 0x20 8) (8 * ((65536 * i + pos + x) % 8)) 8))
  else if C.kind == kCopy2d then at_ (C.f 0x30 4 * i + pos)
  else if C.kind == kGather then
    match s.place C.team (C.source 0x30) with
    | none => .wait s
    | some (d, a) =>
      match s.readLines n (fun _ => true) [(d, a + 4 * i, 4)] with
      | .bad f => .status f.status
      | .pages ps => .pages ps
      | .wait s' => .wait s'
      | .got s' y =>
        let x := leNat y.bytes.flatten
        if !y.sick.isEmpty then .status 5
        else if decide (C.f 0x38 4 ≤ x) then .status 10
        else match s.place C.team (C.source 0x18) with
          | some (e, b) => .range (s'.keepLines n y) e (b + x * C.f 0x28 4 + pos)
          | none => .wait (s'.keepLines n y)
  else
    match C.range with
    | some (lo, _) =>
      (match s.place C.team (C.source 0x18) with
        | some (d, _) => .range s d (lo + 65536 * i + pos)
        | none => .wait s)
    | none => at_ (65536 * i + pos)

/-- The destination of an item from `pos` on, and the bytes up to the end of its line. -/
def State.itemDest (s : State) (n i : Nat) : Option (Nat × Nat × Nat) :=
  let C := s.card n
  (s.place C.team (C.source C.dstOff)).map fun p =>
    let a := p.2 + C.dstAt i + C.pos
    (p.1, a, min (C.written i - C.pos) (128 - a % 128))

/-- A line of an item has been written, or passed over: its bytes are subtracted from the barrier object once, those of the item's
last line when the item ends; a scratchpad line whose bytes have all arrived is present (R359, R363, 10 R202). -/
def State.passLine (s : State) (n len : Nat) (sub : Bool) : State :=
  let C := s.card n
  let stop := C.pos + len
  let last := match C.cur with
    | some i => decide (C.written i ≤ stop)
    | none => true
  let k := if sub && !last && decide (C.mark ≤ C.pos) then len else 0
  let line := if C.toScratch && !last then (C.cur.bind fun i => s.itemDest n i).map fun x => x.2.1 / 128 else none
  let s := s.modCard n fun C => { C with pos := stop, mark := max C.mark stop, sent := false, subDone := C.subDone + k }
  let s := s.clearAnswers fun w => w == (n, 255, 0)
  let s := match line with
    | some l => s.showLines n [l]
    | none => s
  s.boSub n k

/-- The state after `len` bytes have been written over the destination line of an item; none when it is poisoned instead. -/
def State.putLine (s : State) (n len : Nat) (ps : List (Nat × Nat × Bool)) (bs : Option (List Byte)) : State :=
  let w := s.cardUnit n
  match bs with
  | none => ((s.spoilLines w ps).modCard n fun C => { C with sick := true }).passLine n len false
  | some bs =>
    let s := s.engStore w ps bs
    if s.unitPending w.who then s.modCard n fun C => { C with sent := true } else s.passLine n len true

/-- The place of the destination line at `a` in a copy that names its destination's bundle (spec 12 R253, Table 17-4). -/
def Card.bundleNo (C : Card) (a : Nat) : Option Nat :=
  if C.kind == kCopy && bitsOf (C.f 0x2C 4) 0 1 == 1 then some (a / 128 - (C.source C.dstOff).addr / 128) else none

/-- Bytes stored over the destination line at `a` of an item, or the line poisoned. -/
def State.storeLine (s : State) (n dom a len : Nat) (bs : Option (List Byte)) : State :=
  let w := s.cardUnit n
  let tag := s.fab.nextTag
  let route (s : State) (ps : List (Nat × Nat × Bool)) : State := match (s.card n).bundleNo a with
    | some k => s.bundleLine tag k (ps.map (·.1))
    | none => s
  match s.engRange w dom a len .write true with
  | .bad f => s.failItem n f.status
  | .pages ps => s.waitItem n ps
  | .wait s' => route s' []
  | .ok s' ps => route (s'.putLine n len ps bs) ps

/-- The next destination line of item `i` of a copy card. -/
def State.copyLine (s : State) (n i : Nat) : State :=
  match s.itemDest n i with
  | none => s
  | some (dom, a, len) =>
    match s.itemSource n i (s.card n).pos len with
    | .status st => s.failItem n st
    | .pages ps => s.waitItem n ps
    | .wait s' => s'
    | .bytes bs => s.storeLine n dom a len (some bs)
    | .range s1 d b =>
      match s1.readLines n (s1.indexLines n i).contains [(d, b, len)] with
      | .bad f => s.failItem n f.status
      | .pages ps => s.waitItem n ps
      | .wait s' => s'
      | .got s' x => (s'.keepLines n x).storeLine n dom a len (if x.sick.isEmpty then some x.bytes.flatten else none)

end Sys2Proof.Machine
end

