-- ==== Sys2Proof/Machine/MatrixSums.lean ====
section
/-! DEFINITION. The arithmetic of the matrix engines and the update unit: K-group sums (spec 02 R61, R62), drain conversions (13
R276), the max-magnitude registers (R278) and the optimiser step (R280). -/

namespace Sys2Proof.Machine

/-- The float format of an element code of Table 1-5. -/
def elemFmt : Nat → Fmt
  | 1 => fmt64
  | 2 => fmt32
  | 3 => fmt16
  | 4 => fmtBf
  | 5 => fmtE4m3
  | 6 => fmtE5m2
  | 8 => fmtE4m3
  | 9 => fmtE5m2
  | 0x30 => fmtE2m3
  | 0x31 => fmtE3m2
  | _ => fmtE2m1

/-- Whether an element code is an integer format. -/
def isIntFmt (c : Nat) : Bool := decide (0x10 ≤ c) && decide (c ≤ 0x17)

/-- The legal format pairs of Table 2-10: whether the word names one, and whether its form is ACC40I. -/
def formatPair (fw : W32) : Option Bool :=
  let a := bitsOf fw.toNat 0 8
  let b := bitsOf fw.toNat 8 8
  let both (xs : List Nat) : Bool := xs.contains a && xs.contains b
  if bitsOf fw.toNat 16 16 != 0 then none
  else if both [2] || both [3] || both [4] || both [5, 6] || both [8, 9] || both [10] then some false
  else if both [0x10, 0x14] then some true
  else none

/-- An operand element as a value; a NaN carries its fraction in ACC40F (spec 02 R42, R43, R55). -/
def matVal (fmt peer code scale : Nat) : FVal :=
  let g := elemFmt fmt
  if isMx fmt then mxValue g fmtAcc peer code scale
  else match g.value code with
    | .nan sg fr => .nan sg (convFrac g fmtAcc fr peer)
    | v => v

/-- An integer operand element. -/
def matInt (fmt code : Nat) : Int :=
  if fmt == 0x10 && decide (128 ≤ code) then (code : Int) - 256 else code

/-- What a fold over products gathers: NaN fractions, whether IV is raised, the infinities met, the finite products. -/
structure ProdSum where
  fracs : List Nat := []
  iv    : Bool := false
  pinf  : Bool := false
  ninf  : Bool := false
  terms : List FVal := []

/-- One product taken into a sum (spec 02 R61). -/
def ProdSum.take (peer : Nat) (a : ProdSum) (p : FVal × FVal) : ProdSum :=
  let x := p.1
  let y := p.2
  let iv := a.iv || x.isSig || y.isSig
  if x.isNan || y.isNan then { a with fracs := nanFracs [x, y] ++ a.fracs, iv := iv }
  else if (x.isInf && y.isZero) || (x.isZero && y.isInf) then
    { a with fracs := genFrac fmtAcc 4 peer :: a.fracs, iv := true }
  else if x.isInf || y.isInf then
    (if x.neg != y.neg then { a with ninf := true } else { a with pinf := true })
  else match x, y with
    | .fin n1 m1 e1, .fin n2 m2 e2 => { a with terms := .fin (n1 != n2) (m1 * m2) (e1 + e2) :: a.terms }
    | _, _ => a

/-- acc + S rounded once to ACC40F, for the present products of a K-group; no product leaves acc as it stands. -/
def accSum (peer acc : Nat) (ps : List (FVal × FVal)) : Nat × FlagBits :=
  if ps.isEmpty then (acc, 0)
  else
    let r := ps.foldl (ProdSum.take peer) {}
    let x := fmtAcc.value acc
    -- the accumulator counts as a term (spec 15 R327)
    let pinf := r.pinf || x == .inf false
    let ninf := r.ninf || x == .inf true
    let both := pinf && ninf
    let fracs := (if both then genFrac fmtAcc 3 peer :: r.fracs else r.fracs)
    let fl : FlagBits := if r.iv || both || x.isSig then flIV else 0
    if !fracs.isEmpty || x.isNan then (pickNan fmtAcc (fracs ++ nanFracs [x]), fl)
    else if pinf || ninf then (fmtAcc.signed ninf fmtAcc.infCode, fl)
    else
      let y := roundSum fmtAcc .rne peer (x :: r.terms) []
      (y.1, fl ||| y.2)

/-- acc + S wrapped into ACC40I (spec 02 R62). -/
def accInt (acc : Nat) (ps : List (Int × Int)) : Nat × FlagBits :=
  let x : Int := (BitVec.ofNat 40 acc).toInt + ps.foldl (fun t p => t + p.1 * p.2) 0
  ((BitVec.ofInt 40 x).toNat, if decide (-(2 ^ 39) ≤ x) && decide (x < 2 ^ 39) then 0 else flOF)

/-! ## Drain (spec 13 Table 13-6) -/

/-- One element drained to a float target. -/
def drainFloat (f : Fmt) (mode : RMode) (peer acc : Nat) : Nat × FlagBits := fpConvert fmtAcc f mode peer acc

/-- One element of an ACC40I tile saturated to INT32 or INT8. -/
def drainInt (fmt acc : Nat) : Nat × FlagBits :=
  let w := if fmt == 0x12 then 32 else 8
  let x := (BitVec.ofNat 40 acc).toInt
  let y := clampInt (-(2 ^ (w - 1))) (2 ^ (w - 1) - 1) x
  ((BitVec.ofInt w y).toNat, if y = x then 0 else flOF)

/-- A block written in a block-scaled format: scale code, elements, flags (spec 02 R44). `mode` gives each element's rounding. -/
def mxBlock (ef : Fmt) (mode : Nat → RMode) (vs : List FVal) : Nat × List Nat × FlagBits :=
  let sc := mxScale ef vs
  let es := (List.range vs.length).map fun i => mxElement ef (mode i) sc.1 sc.2.1 (vs.getD i (.fin false 0 0))
  (sc.1, es.map (·.1), es.foldl (fun f e => f ||| e.2) sc.2.2)

/-- AMAX after a drain block of accumulator values (spec 13 R278). -/
def amaxBlock (int : Bool) (peer old : Nat) (accs : List Nat) : Nat :=
  let ofVal (v : FVal) : Nat := match v with
    | .fin _ m e => (fmt32.round .ru ⟨false, m, e, false⟩).1
    | .inf _ => fmt32.infCode
    | .nan _ fr => fmt32.nanCode (convFrac fmtAcc fmt32 fr peer)
  let vals : List FVal := accs.map fun a =>
    if int then .fin false ((BitVec.ofNat 40 a).toInt.natAbs) 0 else fmtAcc.value a
  let codes := vals.map ofVal
  let nans := nanFracs ((old :: codes).map fmt32.value)
  if !nans.isEmpty then pickNan fmt32 nans
  else codes.foldl (fun m c => if fpLess fmt32 m c then c else m) old

/-! ## The update unit (spec 13 R280) -/

/-- FP32 operations with the flags gathered. -/
structure Flt where
  v  : Nat
  fl : FlagBits := 0

def Flt.add (peer : Nat) (a b : Flt) : Flt :=
  let r := fpAdd fmt32 .rne peer a.v b.v
  ⟨r.1, a.fl ||| b.fl ||| r.2⟩
def Flt.sub (peer : Nat) (a b : Flt) : Flt :=
  let r := fpSub fmt32 .rne peer a.v b.v
  ⟨r.1, a.fl ||| b.fl ||| r.2⟩
def Flt.mul (peer : Nat) (a b : Flt) : Flt :=
  let r := fpMul fmt32 .rne peer a.v b.v
  ⟨r.1, a.fl ||| b.fl ||| r.2⟩
def Flt.div (peer : Nat) (a b : Flt) : Flt :=
  let r := fpDiv fmt32 .rne peer a.v b.v
  ⟨r.1, a.fl ||| b.fl ||| r.2⟩
def Flt.sqrt (peer : Nat) (a : Flt) : Flt :=
  let r := fpSqrt fmt32 .rne peer a.v
  ⟨r.1, a.fl ||| r.2⟩

/-- The constants of an update block, as FP32 codes. -/
structure UpdConst where
  lr : Nat
  b1 : Nat
  omb1 : Nat
  b2 : Nat
  omb2 : Nat
  eps : Nat
  wd : Nat
  c1 : Nat
  c2 : Nat
  gscale : Nat

/-- fl(B × m) for an FP32 code and the exact value of a moment, which may lie beyond FP32 (spec 02 R42, R43). -/
def Flt.mulVal (peer b : Nat) (m : FVal) : Flt :=
  let r := fpMulVal fmt32 .rne peer (fmt32.value b) m
  ⟨r.1, r.2⟩

/-- The step of one element: the new weight, first moment and second moment as FP32 codes, and the flags. -/
def updStep (k : UpdConst) (peer acc w : Nat) (m v : FVal) : Nat × Nat × Nat × FlagBits :=
  let c (x : Nat) : Flt := ⟨x, 0⟩
  let a := fpConvert fmtAcc fmt32 .rne peer acc
  let g := Flt.mul peer ⟨a.1, a.2⟩ (c k.gscale)
  let m1 := (Flt.mulVal peer k.b1 m).add peer (Flt.mul peer (c k.omb1) g)
  let v1 := (Flt.mulVal peer k.b2 v).add peer (Flt.mul peer (c k.omb2) (g.mul peer g))
  let u := (m1.mul peer (c k.c1)).div peer (((v1.mul peer (c k.c2)).sqrt peer).add peer (c k.eps))
  let w1 := (c w).sub peer (Flt.mul peer (c k.lr) (u.add peer (Flt.mul peer (c k.wd) (c w))))
  (w1.v, m1.v, v1.v, w1.fl ||| m1.fl ||| v1.fl)

end Sys2Proof.Machine
end

