-- ==== Sys2Proof/Machine/Collective.lean ====
section
/-! DEFINITION. Collective cards: ALLRED, ALLGATH and REDSCAT over the inputs of every rank (spec 12 R263, 17 R352). -/

namespace Sys2Proof.Machine

/-- The reduction of R263 over the inputs in rank order; `peer0` is the peer of rank 0. -/
def collReduce (fmt op peer0 : Nat) (xs : List Nat) : Nat × FlagBits :=
  if fmt == 0x12 then
    let vs := xs.map fun x => (BitVec.ofNat 32 x).toInt
    let step (a b : Int) : Int := if op == 0 then a + b else if op == 1 then min a b else max a b
    ((BitVec.ofInt 32 (vs.tail.foldl step (vs.headD 0))).toNat, 0)
  else
    let f := elemFmt fmt
    let vs := xs.map f.value
    let both := op == 0 && (vs.any fun v => v.isInf && !v.neg) && (vs.any fun v => v.isInf && v.neg)
    if both || vs.any (·.isNan) then
      nanResult f vs (if both then [genFrac f 3 peer0] else []) (if both then flIV else 0)
    else
      (xs.tail).foldl (fun acc x =>
        let r := if op == 0 then fpAdd f .rne peer0 acc.1 x else fpMinMax f (op == 2) acc.1 x
        (r.1, acc.2 ||| r.2)) (xs.headD 0, 0)

/-- Whether an input that a peer has sent belongs to a card and agrees with it. -/
def Card.agrees (C : Card) (x : CollInput) : Bool :=
  x.kind.toNat == C.kind && x.nelem.toNat == C.nelem && x.cctl.toNat == C.cctl && x.ranks.map (·.toNat) == C.ranks

/-- The inputs for a card's tag. -/
def State.collFor (s : State) (C : Card) : List CollInput := s.eng.collIn.filter fun x => x.ctag.toNat == C.f 0x38 4

/-- Element `e` of the input of rank `r`, if it has arrived, and whether it came poisoned. -/
def State.collElement (s : State) (C : Card) (r e : Nat) : Option (Nat × Bool) :=
  let z := C.collEsize
  ((s.collFor C).find? fun x => x.rank == r && decide (x.elem ≤ e) && decide ((e - x.elem + 1) * z ≤ x.data.length)).map
    fun x => (fieldAt x.data ((e - x.elem) * z) z, x.sick)

/-- The own rank of a card. -/
def State.ownRank (s : State) (C : Card) : Nat := (C.ranks.findIdx? (· == s.peerNo)).getD 0

/-- A part of a card's own input, elements from `e` on, as a message to the other ranks; no elements make the header that tells them
what the card is. -/
def Card.message (C : Card) (rank e : Nat) (data : List Byte) : PeerReq :=
  .collective (BitVec.ofNat 32 (C.f 0x38 4)) rank (BitVec.ofNat 8 C.kind) (BitVec.ofNat 32 C.nelem) (BitVec.ofNat 32 C.cctl)
    (C.ranks.map (BitVec.ofNat 12)) e data

/-- A message sent to every other rank of a card. -/
def State.tellRanks (s : State) (C : Card) (m : PeerReq) : State :=
  (C.ranks.filter (· != s.peerNo)).foldl (fun s p => s.post p (.input m)) s

/-- Ranks of a card waited for: each answers within FABTO, by what it sends (spec 12 R248). (DEDUCED, log 181.) -/
def State.awaitRanks (s : State) (n : Nat) (ranks : List Nat) : State :=
  let C := s.card n
  let tag := C.f 0x38 4
  ranks.foldl (fun s r =>
    let p := C.ranks.getD r 0
    if s.fab.requests.any fun x => x.who == some (n, 255, 3) && x.peer == p then s
    else s.ask { requestFor (p * 2 ^ 45) (.awaitInput tag) (some C.grid) (some (n, 255, 3)) with sent := true }) s

/-- The rank table of a collective, read before its first item; the other ranks are told what the card is. (DEDUCED, log 180.) -/
def State.fetchRanks (s : State) (n : Nat) : CardFetch :=
  let C := s.card n
  if !s.regs.fabId.getLsbD 31 then .got s fun C => { C with kfail := some 4 }
  else
    match s.cardRead n C.ctx (C.f 0x28 8) (2 * C.nrank) with
    | .bad f => recordFail s f
    | .pages ps => .pages ps
    | .wait s' => .wait s'
    | .ok s' ps =>
      let bs := s'.rdPieces ps
      let ranks := (List.range C.nrank).map fun r => fieldAt bs (2 * r) 2
      if !ranks.contains s.peerNo || ranks.any (fun p => decide (peerCount ≤ p)) then
        .got s' fun C => { C with kfail := some 13 }
      else
        let D := { C with ranks := ranks }
        .got (s'.tellRanks D (D.message (s.ownRank D) 0 [])) fun C => { C with ranks := ranks }

/-- The other ranks of a card that have sent nothing for it. -/
def State.silentRanks (s : State) (C : Card) : List Nat :=
  (List.range C.ranks.length).filter fun r => C.ranks.getD r 0 != s.peerNo && !((s.collFor C).any fun x => x.rank == r)

/-- Every rank of a collective joins before its first item begins: one that does not agree fails every item with "bad card", one that
is not heard of in time with "fabric" (spec 17 R352). -/
def State.meetRanks (s : State) (n : Nat) : Option CardFetch :=
  let C := s.card n
  if s.unitFailed (n, 255, 3) then some (.got s fun C => { C with kfail := some 4 })
  else if !((s.collFor C).all C.agrees) then some (.got s fun C => { C with kfail := some 13 })
  else if (s.silentRanks C).isEmpty then none
  else some (.wait (s.awaitRanks n (s.silentRanks C)))

/-- What a collective needs before its first item. -/
def State.collNeeds (s : State) (n : Nat) : Option CardFetch :=
  if (s.card n).ranks.isEmpty then some (s.fetchRanks n) else s.meetRanks n

/-- The input elements that output element `e` depends on: (rank, element) in rank order, one list for the value; and the lists
whose flags the element brings with it (a REDSCAT reports the flags of every package). (DEDUCED, log 100.) -/
def State.collInputs (s : State) (C : Card) (e : Nat) : List (Nat × Nat) × List (List (Nat × Nat)) :=
  let ranks := List.range C.nrank
  if C.kind == kAllGath then ([(e / C.nelem, e % C.nelem)], [])
  else if C.kind == kAllRed then
    let xs := ranks.map fun r => (r, e)
    (xs, [xs])
  else
    let chunk (k : Nat) : List (Nat × Nat) := ranks.map fun r => (r, k * C.nelem + e)
    (chunk (s.ownRank C), ranks.map chunk)

/-- Elements in rank order as runs (first element, number). -/
def elementRuns (es : List Nat) : List (Nat × Nat) := offsetRuns (sortBy (fun x y => decide (x < y)) es.eraseDups)

/-- The own input elements of a line told to the other ranks, once; poisoned where the input is, with an entry for each
poisoned line (spec 12 R263, 21 R418, R420). -/
def State.giveInput (s : State) (n upTo : Nat) (es : List Nat) (data : Nat → List Byte) (bad : List Nat) : State :=
  let C := s.card n
  if decide (upTo ≤ C.gave) then s
  else
    let own := s.ownRank C
    let tell (s : State) (r : Nat × Nat) : State :=
      let m := C.message own r.1 ((List.range r.2).flatMap fun k => data (r.1 + k))
      s.tellRanks C (if bad.isEmpty then m else .poisoned m)
    let s := (elementRuns es).foldl tell s
    let s := bad.foldl (fun s k => s.errorEntry C.grid 6 (BitVec.ofNat 64 k)) s
    s.modCard n fun C => { C with gave := upTo }

/-- The destination line of an item that cannot be formed: it is poisoned, and passed over (spec 21 R420). -/
def State.spoilDest (s : State) (n a len : Nat) : State :=
  let w := s.cardUnit n
  match s.engRange w w.ctx a len .write true with
  | .bad f => s.failItem n f.status
  | .pages ps => s.waitItem n ps
  | .wait s' => s'
  | .ok s' ps => s'.putLine n len ps none

/-- The next destination line of item `i` of a collective card. -/
def State.collLine (s : State) (n i : Nat) : State :=
  let w := s.cardUnit n
  let C := s.card n
  let z := C.collEsize
  let own := s.ownRank C
  let o := 65536 * i + C.pos
  let a := C.f 0x20 8 % 2 ^ 57 + o
  let len := min (C.share i - C.pos) (128 - a % 128)
  if !((s.collFor C).all C.agrees) then s.modCard n fun C => { C with kfail := some 13, fail := some 13 }
  else
    let elems := (List.range ((o + len - 1) / z - o / z + 1)).map fun k => o / z + k
    let deps := elems.map fun e => (e, s.collInputs C e)
    let all := (deps.flatMap fun d => d.2.1 ++ d.2.2.flatten).eraseDups
    let mine := (all.filter fun x => x.1 == own).map (·.2)
    match s.readLines n (fun _ => false) (mine.map fun e => (C.ctx, C.f 0x18 8 % 2 ^ 57 + e * z, z)) with
    | .bad f => s.failItem n f.status
    | .pages ps => s.waitItem n ps
    | .wait s' => s'
    | .got s0 x =>
      let ownTab := mine.zip x.bytes
      let mineOf (e : Nat) : List Byte := assocGet ownTab e []
      let sick := !x.sick.isEmpty
      let s' := (s0.keepLines n x).giveInput n (o + len) mine mineOf x.sick
      let others := (all.filter fun x => x.1 != own).map fun x => (x, s'.collElement C x.1 x.2)
      let late := (others.filter fun x => x.2.isNone).map fun x => x.1.1
      if !late.isEmpty then s'.awaitRanks n late.eraseDups
      else if sick || others.any (fun x => match x.2 with
          | some v => v.2
          | none => false) then s'.spoilDest n a len
      else
        let val (x : Nat × Nat) : Nat :=
          if x.1 == own then leNat (mineOf x.2)
          else match (others.find? fun y => y.1 == x).bind (·.2) with
            | some v => v.1
            | none => 0
        let fmt := bitsOf C.cctl 24 8
        let op := bitsOf C.cctl 20 4
        let peer0 := C.ranks.headD 0
        let red (xs : List (Nat × Nat)) : Nat × FlagBits := collReduce fmt op peer0 (xs.map val)
        let res := deps.map fun d =>
          (d.1, if C.kind == kAllGath then (d.2.1.map val).headD 0 else (red d.2.1).1,
            d.2.2.foldl (fun f xs => f ||| (red xs).2) (0 : FlagBits))
        let outByte (k : Nat) : Byte :=
          let v := ((res.find? fun r => r.1 == (o + k) / z).map (·.2.1)).getD 0
          BitVec.ofNat 8 (bitsOf v (8 * ((o + k) % z)) 8)
        match s'.engRange w C.ctx a len .write true with
        | .bad f => s'.failItem n f.status
        | .pages ps => s'.waitItem n ps
        | .wait s'' => s''
        | .ok s'' ps =>
          let s'' := s''.modCard n fun C => { C with flags := res.foldl (fun f r => f ||| r.2.2) C.flags }
          s''.putLine n len ps (some ((List.range len).map outByte))

end Sys2Proof.Machine
end

