-- ==== Sys2Proof/Machine/Issue.lean ====
section
/-! DEFINITION. Issue: which lanes are ready, the PC-sets of a group, their selection, the order of groups (spec 07 R127-R130),
and the fetch of a packet (spec 05 R90, R94, 10 R210). -/

namespace Sys2Proof.Machine

/-! ## Ready lanes and PC-sets (spec 07 R127) -/

/-- Whether a BOWAIT lane has an end of its wait to observe: its object's count at or below zero, or its bank in another
mode (spec 19 R392). -/
def State.boEnds (s : State) (t off : Nat) : Bool :=
  match (s.team t).scratchBanks[off / 32768]? with
  | none => true
  | some b => b.mode != .scratch || decide ((BitVec.ofNat 64 (s.rdNat (scratchKey t off) 8)).toInt ≤ 0)

/-- Whether a lane can issue: it runs, or its barrier object lets it go; it does not wait at issue; in handler mode it is of
HMASK (spec 20 R404). No packet outside the code is fetched (spec 01 R19). -/
def State.laneReady (s : State) (t : Nat) (G : Group) (l : Nat) : Bool :=
  let L := G.lane l
  decide (L.pc.toNat < (s.kernelOf t).codeSize) &&
  (match L.status with
    | .run => true
    | .boWait off _ => s.boEnds t off
    | _ => false) &&
  (match L.stall with
    | none => true
    | some n => decide (n < s.sched.events)) &&
  (!G.inh || G.hmask.getLsbD l)

/-- The lanes of a group an access of which is being performed at a home, or that have been performed, while their instruction has
not retired: no other PC-set of the group issues meanwhile, so that no trap comes between. (DESIGN CHOICE, log 168.) -/
def State.effecting (s : State) (t g : Nat) : List Nat :=
  let mine (w : Nat × Nat × Nat) : Bool := w.1 == t && w.2.1 == g
  let asked := s.fab.requests.filterMap fun r => match r.who, r.kind with
    | some w, .atomic _ => if mine w then some w.2.2 else none
    | some w, .uncachedWrite _ => if mine w then some w.2.2 else none
    | some w, .discard => if mine w then some w.2.2 else none
    | _, _ => none
  let done := s.fab.answers.filterMap fun a => match a.value with
    | .done => if mine a.who then some a.who.2.2 else none
    | .old _ => if mine a.who then some a.who.2.2 else none
    | _ => none
  asked ++ done ++ (s.fab.parts.filter fun p => mine p.1).map (·.1.2.2)

/-- The ready PC-sets of a group, by address: (program counter, lanes). -/
def State.pcSets (s : State) (t g : Nat) (G : Group) : List (W32 × LaneMask) :=
  if !G.resident || G.ended then []
  else
    let busy := (s.effecting t g).map fun l => (G.lane l).pc
    let ready := (List.range 32).filter fun l => s.laneReady t G l && (busy.isEmpty || busy.contains (G.lane l).pc)
    let pcs := ((ready.map fun l => (G.lane l).pc.toNat).eraseDups)
    (sortBy (fun a b => decide (a < b)) pcs).map fun p =>
      (BitVec.ofNat 32 p, laneMask fun l => ready.contains l && (G.lane l).pc.toNat == p)

/-- The counter of a PC-set: the largest of its lanes' (spec 07 R129: a merged set keeps the larger count). -/
def Group.setAge (G : Group) (m : LaneMask) : Nat := (maskLanes m).foldl (fun n l => max n (G.lane l).age) 0

/-- The order in which R129 selects. -/
def Group.setBefore (G : Group) (a b : W32 × LaneMask) : Bool :=
  let x := G.setAge a.2
  let y := G.setAge b.2
  if decide (64 ≤ x) || decide (64 ≤ y) then
    (if decide (64 ≤ x) && decide (64 ≤ y) then decide (y < x) || (x == y && decide (a.1.toNat < b.1.toNat)) else decide (64 ≤ x))
  else
    let m := popCount a.2
    let n := popCount b.2
    decide (n < m) || (m == n && decide (a.1.toNat < b.1.toNat))

/-- The start of a served cycle of a group: at most two sets selected, the counters of R129 advanced. -/
def Group.serve (G : Group) (sets : List (W32 × LaneMask)) : Group :=
  let chosen := (sortBy G.setBefore sets).take 2
  let isChosen (l : Nat) : Bool := chosen.any fun x => x.2.getLsbD l
  { G.mapLanes fun l L =>
      match sets.find? fun x => x.2.getLsbD l with
      | some x => { L with age := if isChosen l then 0 else G.setAge x.2 + 1 }
      | none => L with
    sel := chosen.map (·.1) }

/-- The next set of the served cycle that is still ready, and the sets after it. -/
def nextSel (sets : List (W32 × LaneMask)) : List W32 → Option ((W32 × LaneMask) × List W32)
  | [] => none
  | p :: ps =>
    match sets.find? fun x => x.1 == p with
    | some x => some (x, ps)
    | none => nextSel sets ps

/-- The instance that a group issues next, with the group as selection leaves it. -/
def State.groupIssue (s : State) (t g : Nat) : Option ((W32 × LaneMask) × Group) :=
  let G := s.grp t g
  let sets := s.pcSets t g G
  match sets with
  | [] => none
  | _ =>
    match nextSel sets G.sel with
    | some (x, ps) => some (x, { G with sel := ps })
    | none =>
      let G' := G.serve sets
      (nextSel sets G'.sel).map fun y => (y.1, { G' with sel := y.2 })

/-! ## Groups in turn (spec 07 R128) -/

/-- Every group of a running team, in dispatch order. -/
def State.issuing (s : State) : List (Nat × Nat) :=
  (indexed s.teams).flatMap fun x =>
    if x.2.status == .running then (List.range x.2.groups.length).map fun g => (x.1, g) else []

/-- A group's place in the order of dispatch, from 1 on. -/
def groupPlace (x : Nat × Nat) : Nat := x.1 * 64 + x.2 + 1

/-- Entries from the one after a pointer on, and then the others. -/
def afterPointer (p : Nat) (place : Nat × Nat → Nat) (xs : List (Nat × Nat)) : List (Nat × Nat) :=
  (xs.filter fun x => decide (p < place x)) ++ (xs.filter fun x => decide (place x ≤ p))

/-- The groups in the order in which they are looked at: the cores in turn, and the groups of a core in the order in which its own
round-robin pointer meets them. -/
def State.turnOrder (s : State) : List (Nat × Nat) :=
  let gs := s.issuing
  let coreOf (x : Nat × Nat) : Nat := (s.team x.1).core
  let cores := afterPointer s.sched.core (·.1) ((sortBy (fun a b => decide (a < b)) (gs.map coreOf).eraseDups).map fun k => (k, 0))
  cores.flatMap fun k => afterPointer (assocGet s.sched.rr k.1 0) groupPlace (gs.filter fun x => coreOf x == k.1)

/-- The next group that has a ready set. No context runs while the last-level cache changes its mode (spec 10 R205). (DEDUCED, log 196.) -/
def State.nextGroup (s : State) : Option (Nat × Nat) :=
  if s.regs.llcctl.getLsbD 31 then none
  else s.turnOrder.find? fun x => !(s.pcSets x.1 x.2 (s.grp x.1 x.2)).isEmpty

/-- The next instance: the state with the selection made, the pointer advanced and the instance at issue. -/
def State.selectInst (s : State) (t g : Nat) : Option (Inst × State) :=
  (s.groupIssue t g).map fun y =>
    let c : Inst := ⟨t, g, y.1.2, y.1.1⟩
    let s := s.modGroup t g fun _ => y.2
    let core := (s.team t).core
    (c, { s with sched := { s.sched with cur := some c, core := core, rr := assocSet s.sched.rr core (groupPlace (t, g)) } })

/-! ## Groups switched out (spec 10 R212, 19 R387, 20 R407) -/

/-- Whether a lane stands still until something else happens. -/
def Lane.stands (L : Lane) : Bool := L.isParked || L.isExited || L.isWaiting || L.status == .eret

/-- Whether a group has nothing to issue until a lane is woken: in handler mode the lanes of HMASK count. -/
def Group.idle (G : Group) : Bool :=
  (List.range 32).all fun l => (G.inh && !G.hmask.getLsbD l) || (G.lane l).stands

/-- Whether a group has a lane that can issue. -/
def State.groupReady (s : State) (t : Nat) (G : Group) : Bool := (List.range 32).any fun l => s.laneReady t G l

/-- Every group whose lanes all stand still gives up its slot. -/
def State.switchOut (s : State) : State :=
  { s with teams := mapIdx (fun t T =>
      if T.status == .running then
        { T with groups := T.groups.map fun G =>
            if G.resident && !G.ended && G.idle && !s.groupReady t G then { G with resident := false } else G }
      else T) s.teams }

/-! ## Fetch -/

/-- What a fetch ends in: the packet's bytes, or a state in which the instance does not go on. -/
inductive FetchOut where
  | packet (bytes : List Byte) (s : State)
  | stop (s : State)

/-- The offset of the packet that holds an offset (spec 05 R90). -/
def packetOf (pc : W32) : Nat := pc.toNat / 12 * 12
/-- The slot of an offset. -/
def slotOf (pc : W32) : Nat := pc.toNat % 12 / 4

/-- The fetch of the packet of an instance (spec 10 R210): every lane of the instance traps or parks with it. (DEDUCED, log 18.) -/
def State.fetch (s : State) (c : Inst) : FetchOut :=
  let G := s.instGrp c
  let K := s.instKernel c
  let va : W64 := BitVec.ofNat 64 (K.codeBase + packetOf c.pc)
  let L : Lane := { bad := (maskLanes c.mask).flatMap fun l => (G.lane l).bad }
  let acc := s.checkSeg c.team L va ⟨.global, va, 12, .fetch, false⟩
  -- the fetch is a unit of its own
  let who := (c.team, c.group, 32)
  let acc := { acc with conds := acc.conds ++ s.fabricConds who va acc.keys }
  match rowTrap ((maskLanes c.mask).filterMap fun l => acc.first.map fun k => (l, k)) with
  | some x => .stop (((s.clearAnswers fun w => w == who).dropGathered c).takeTrap c.team c.group x false c.pc (c.pc + 4))
  | none =>
    if !acc.busy.isEmpty then .stop ((s.recallLines acc.busy).stall c)
    else if !acc.pages.isEmpty then .stop (s.parkLanes c ((maskLanes c.mask).map fun l => (l, acc)) [])
    else
      let r := s.reachAll who (s.gridOpt c.team) .read (keyRuns acc.keys)
      if !r.2 then .stop (r.1.stall c)
      else
        let s := acc.keys.foldl (fun s k => if s.isPeerKey k.1 then s.useAnswer who false k.1 else s) r.1
        let bytes := acc.keys.map fun k => memRead s.mem k.1
        let ctx := s.ctxOf c.team
        let core := (s.team c.team).core
        .packet bytes ((acc.leaves.foldl (fun s f => s.tlbAdd core ctx f) s).clearAnswers fun w => w == who)

/-- The trap of a packet that fails R94 (cause group 2). (DEDUCED, log 16; DEDUCED, log 17.) -/
def State.illegalPacket (s : State) (c : Inst) (reason slot : Nat) (word : W32) : State :=
  let p : W32 := BitVec.ofNat 32 (packetOf c.pc)
  s.takeTrap c.team c.group (trapOf 2 0x3F reason slot word 0 c.mask) false p (p + 12)

/-- The trap of a word that fails a check of Table 5-10 (cause group 1). -/
def State.badWord (s : State) (c : Inst) (m : Mods) (reason : Nat) (word : W32) : State :=
  s.instTrap c m (trapOf 1 0x3F reason (slotOf c.pc) word 0 c.mask)

/-- The trap of a register named beyond the allotment (spec 05 R97, cause group 3). -/
def State.badRegister (s : State) (c : Inst) (m : Mods) (index : Nat) : State :=
  s.instTrap c m (trapOf 3 0x3F 0 ((s.instKernel c).regs * 256 + slotOf c.pc) (BitVec.ofNat 32 index) 0 c.mask)

/-- The trap of a lane resumed at a literal or extension word (spec 20 R405). (DEDUCED, log 19.) -/
def State.badResume (s : State) (c : Inst) : State :=
  s.takeTrap c.team c.group (trapOf 8 ((maskLanes c.mask).headD 0) 6 0x20 c.pc 0 c.mask) false c.pc (c.pc + 4)

/-- A packet fetched and checked for legality before any of its words executes (spec 05 R94). -/
def execFetchPacket (s : State) : Res :=
  withInst s fun c =>
    match s.fetch c with
    | .stop s' => .next s'
    | .packet bs s' =>
      match packetUnits (packetWords bs) 3 0 false 0 [] with
      | .error r => .next (s'.illegalPacket c r.1 r.2 ((packetWords bs).getD r.2 0))
      | .ok _ => .next s'

/-! ## A program placed from outside (the launch that `withFetchWord` stands for) -/

/-- A kernel of one group whose code is one line of three at virtual address 0. -/
def probeKernel : Kernel := { codeSize := 384, regs := 32, groups := 1, scratch := 32768 }

/-- The leaf of the page that holds the probe's code. -/
def probeLeaf : Leaf :=
  { vbase := 0, log2 := 12, pbase := localKey 0, rd := true, w := true, x := true, mem := false, migr := false, hold := false }

/-- A grid of one team of one group, dispatched on core 0, whose code page stands in the core's TLB. -/
def State.placeProbe (s : State) : State :=
  let n := s.grids.length
  let t := s.teams.length
  { s with
    grids := s.grids ++ [{ par := { kernels := [probeKernel] }, status := .dispatching, place := { allowed := [0], next := 1 } }]
    teams := s.teams ++ [{ grid := n, idx := 0, core := 0, groups := [{ flags := 0 }], banks := [⟨0, .scratch, false, 0, 0⟩] }]
    mm := { s.mm with tlb := ⟨0, 0, probeLeaf⟩ :: s.mm.tlb }
    sched := { s.sched with core := 255, rr := assocSet s.sched.rr 0 (groupPlace (t, 0) - 1) } }

/-- The instance that issues next, as `step` will choose it. -/
def State.nextInst (s : State) : Option Inst := s.nextGroup.bind fun x => (s.selectInst x.1 x.2).map (·.1)

/-- The keys of the packet of an instance, none unless its code can be fetched at once. -/
def State.packetKeys (s : State) (c : Inst) : Option (List (Nat × Bool)) :=
  let va : W64 := BitVec.ofNat 64 ((s.instKernel c).codeBase + packetOf c.pc)
  let acc := s.checkSeg c.team {} va ⟨.global, va, 12, .fetch, false⟩
  if acc.conds.isEmpty && acc.pages.isEmpty && acc.busy.isEmpty && acc.keys.all (fun k => keyPeer k.1 == ownPeer) then some acc.keys else none

/-- The bytes of a packet stored where the next instance fetches, whose lanes stand at the packet's first slot. -/
def State.storePacket (s : State) (bs : List Byte) : State :=
  let put (s : State) (c : Inst) (ks : List (Nat × Bool)) : State :=
    let s := s.wrCells ((ks.map (·.1)).zip bs)
    s.modGroup c.team c.group fun G =>
      { G.mapLanes fun l L => if c.mask.getLsbD l then { L with pc := BitVec.ofNat 32 (packetOf c.pc) } else L with
        pend20 := none, pend22 := none }
  let fresh (s : State) : State :=
    let s := s.placeProbe
    match s.nextInst with
    | none => s
    | some c => match s.packetKeys c with
      | none => s
      | some ks => put s c ks
  let s := { s with sched := { s.sched with agenda := [], inbox := [], turn := false } }
  match s.nextInst with
  | none => fresh s
  | some c => match s.packetKeys c with
    | none => fresh s
    | some ks => put s c ks

end Sys2Proof.Machine
end

