-- ==== Sys2Proof/Machine/MatrixEngine.lean ====
section
/-! DEFINITION. What the matrix engines and the update unit do with accepted operations: start, K-groups, image rows, drain blocks,
update blocks, stops and failures (spec 13 R266-R281, 14 R291-R294). -/

namespace Sys2Proof.Machine

/-! ## Tiles and operations -/

/-- A field of an operation's block. -/
def TileOp.f (o : TileOp) (off len : Nat) : Nat := fieldAt o.block off len

def State.tile (s : State) (t i : Nat) : Tile := (s.team t).tiles.getD i {}
def State.modTile (s : State) (t i : Nat) (f : Tile → Tile) : State :=
  s.modTeam t fun T => { T with tiles := modNth T.tiles i f }
/-- The operation at the head of a tile's queue changed. -/
def State.modHead (s : State) (t i : Nat) (f : TileOp → TileOp) : State :=
  s.modTile t i fun T => { T with ops := modNth T.ops 0 f }

/-- The bits of element (i, j). -/
def Tile.get (T : Tile) (i j : Nat) : Nat := (assocGet T.elems (64 * i + j) (0 : W40)).toNat
/-- The elements of a tile as a list that lists no +0. -/
def tileElemsOf (f : Nat → Nat → Nat) : List (Nat × W40) :=
  (List.range 4096).filterMap fun k =>
    let v : W40 := BitVec.ofNat 40 (f (k / 64) (k % 64))
    if v == 0 then none else some (k, v)

/-- The identity of the engine that works on a tile. -/
def State.tileUnit (s : State) (t i : Nat) : Unit :=
  { who := (t, 254, i), grid := (s.team t).grid, ctx := s.ctxOf t }

/-- Bytes of a block in the team's scratchpad that an engine writes; nothing when its bank has left SCRATCH mode (spec 10 R200). -/
def State.blockWrite (s : State) (t off : Nat) (bs : List Byte) : State :=
  match s.engScratch t off bs.length true with
  | .ok _ _ => s.wr (scratchKey t off) bs
  | _ => s

/-- PROGRESS and PSTAT of a parameter block (spec 13 Table 13-1). -/
def State.writeProgress (s : State) (t : Nat) (o : TileOp) (next reason state : Nat) : State :=
  if o.kind == .mma then s.blockWrite t (o.off + 0x4C) (leBytes 4 (next % 2 ^ 24) ++ leBytes 4 (reason * 2 ^ 16 + state)) else s

/-- The head operation of a tile leaves its queue; MWAITs count it (spec 14 R295). -/
def State.endOp (s : State) (t i : Nat) (fail : Option TileFail) : State :=
  let s := s.modTile t i fun T =>
    { T with
      ops := T.ops.drop 1
      ended := T.ended + 1
      fails := T.fails ++ fail.toList
      lastFail := fail.map fun f => (f.cause, f.reason) }
  (s.engDone (s.tileUnit t i)).wakeParks

/-- The failure of the elements of an update that R281 has failed so far. -/
def TileOp.elemFail (o : TileOp) : Option TileFail := o.firstBad.map fun b => ⟨21, 5, BitVec.ofNat 32 b, BitVec.ofNat 32 o.off⟩

/-- The head operation fails at its place (spec 13 R275, 14 R285), after the failure of elements that failed before (R281). -/
def State.failOp (s : State) (t i : Nat) (o : TileOp) (f : EngFail) : State :=
  let s := s.writeProgress t o o.next f.reason 3
  let s := s.modTile t i fun T => { T with fails := T.fails ++ o.elemFail.toList }
  s.endOp t i (some ⟨if f == .poison then 21 else 13, f.reason, BitVec.ofNat 32 o.next, BitVec.ofNat 32 o.off⟩)

/-- The head operation stops at its place until pages are resolved (spec 13 R274). -/
def State.stopOp (s : State) (t i : Nat) (o : TileOp) (pages : List Nat) : State :=
  let s := s.engFaults (s.ctxOf t) pages
  let s := s.writeProgress t o o.next 0 2
  s.modHead t i fun o => { o with pages := pages, stopped := true }

/-- How a piece of an operation's work ends. -/
inductive OpOut where
  | done (s : State)
  | wait (s : State)
  | pages (ps : List Nat)
  | fail (f : EngFail)

/-! ## Starting (spec 13 R266, R268, R274, 14 R291-R294) -/

/-- The number of K-groups of a parameter block. -/
def TileOp.groups (o : TileOp) : Nat := ceilDiv (o.f 12 4) 32
def TileOp.zero (o : TileOp) : Bool := bitsOf (o.f 4 4) 7 1 == 1

/-- The head operation of a tile starts. (DEDUCED, log 63.) -/
def State.startOp (s : State) (t i : Nat) (o : TileOp) : State :=
  let started := s.modHead t i fun o => { o with started := true }
  match o.kind with
  | .mzero => (s.modTile t i fun T => { T with elems := [], int := o.form }).endOp t i none
  | .mload => started.modTile t i fun T => { T with int := o.form }
  | .mma =>
    if o.next == o.groups then (s.writeProgress t o o.next 0 1).endOp t i none
    else if o.zero && o.next == 0 then started.modTile t i fun T => { T with elems := [], int := o.form }
    else started
  | .mdrain =>
    (match (s.tile t i).lastFail with
      | some (c, r) => s.endOp t i (some ⟨c, r, 0, BitVec.ofNat 32 o.off⟩)
      | none => started)
  | .mupd => started

/-- Whether a team's operations run. -/
def State.tileRuns (s : State) (t : Nat) : Bool := (s.team t).status == .running

/-- MATRIX_OP_START: an accepted operation starts after the previous one on its tile has ended. -/
def execMatrixOpStart (t i : Nat) (s : State) : Res :=
  match (s.tile t i).ops with
  | o :: _ =>
    if !s.tileRuns t || o.started then notDue s
    -- an element in error fails the operation (spec 21 R421)
    else if (s.tile t i).sick then .next ((s.modTile t i fun T => { T with sick := false }).failOp t i o .poison)
    else .next (s.startOp t i o)
  | [] => notDue s

/-! ## Operands (spec 13 R269) -/

/-- Where an operand, or a drain's destination, lies. -/
structure Operand where
  dom   : Nat
  addr  : Nat
  sdom  : Nat
  saddr : Nat
  lay   : Layout
  e1    : Nat

/-- The operand that fields of a block describe, of extents (e0, e1); none while its team is not dispatched. -/
def State.operand (s : State) (t : Nat) (o : TileOp) (srcOff layOff scOff e0 e1 : Nat) : Option Operand :=
  let src := parseSource (BitVec.ofNat 64 (o.f srcOff 8))
  match s.place t src, s.place t { src with addr := o.f scOff 8 % 2 ^ 57 }, parseLayout (BitVec.ofNat 32 (o.f layOff 4)) with
  | some p, some q, some y => some ⟨p.1, p.2, q.1, q.2, y, if y.t then e0 else e1⟩
  | _, _, _ => none

/-- The stored position of operand element (r, c). -/
def Operand.stored (x : Operand) (r c : Nat) : Nat × Nat := if x.lay.t then (c, r) else (r, c)
/-- The address of operand element (r, c) and its bit within that byte. -/
def Operand.elem (x : Operand) (r c : Nat) : Nat × Nat :=
  let p := x.stored r c
  let a := x.lay.tensorAt x.e1 p.1 p.2
  (x.addr + a.1 + a.2 / 8, a.2 % 8)
/-- The address of the scale of operand element (r, c). -/
def Operand.scale (x : Operand) (r c : Nat) : Nat :=
  let p := x.stored r c
  x.saddr + x.lay.scaleAt x.e1 p.1 p.2
/-- The ranges an element needs: its bytes, and its scale. -/
def Operand.ranges (x : Operand) (r c : Nat) : List (Nat × Nat × Nat) :=
  let e := x.elem r c
  (x.dom, e.1, (e.2 + x.lay.bits + 7) / 8) :: (if isMx x.lay.fmt then [(x.sdom, x.scale r c, 1)] else [])
/-- The value of an element. -/
def State.operandVal (s : State) (tab : LineTab) (x : Operand) (r c : Nat) : FVal :=
  let e := x.elem r c
  matVal x.lay.fmt s.peerNo (s.tabBits tab x.dom e.1 e.2 x.lay.bits) (if isMx x.lay.fmt then s.tabNat tab x.sdom (x.scale r c) 1 else 0)
/-- The value of an integer element. -/
def State.operandInt (s : State) (tab : LineTab) (x : Operand) (r c : Nat) : Int :=
  let e := x.elem r c
  matInt x.lay.fmt (s.tabBits tab x.dom e.1 e.2 x.lay.bits)

/-! ## K-groups (spec 02 R61, R62, 13 R272-R274) -/

/-- The metadata field of dense group `g`: the index `t` of its four (spec 13 R273). -/
def TileOp.metaIndex (o : TileOp) (g t : Nat) : Nat :=
  bitsOf (o.metas.getD (g / 2) 0).toNat (12 * (g % 2) + 3 * t) 3

/-- The columns of row i that K-group g takes: (stored column of A, dense k). -/
def TileOp.columns (o : TileOp) (g i : Nat) : List (Nat × Nat) :=
  let K := o.f 12 4
  if bitsOf (o.f 4 4) 1 1 == 1 then
    (List.range (min 4 (K / 8 - 4 * g))).flatMap fun h =>
      (List.range 4).map fun t => (4 * (4 * g + h) + t, 8 * (4 * g + h) + o.metaIndex (i * (K / 8) + 4 * g + h) t)
  else (List.range (min 32 (K - 32 * g))).map fun n => (32 * g + n, 32 * g + n)

/-- The sequences of a block's rows and columns in ragged mode: whether product (i, k, j) is present (spec 13 R272). -/
structure Ragged where
  mode : Nat
  rows : List (Option Nat)
  cols : List (Option Nat)

/-- The sequences of rows and of the columns that K-group g compares. -/
def TileOp.ragged (o : TileOp) (g : Nat) : Ragged :=
  let mode := bitsOf (o.f 4 4) 2 2
  if mode == 0 then ⟨0, [], []⟩
  else
    let r := parseShape o.shape
    ⟨mode, (List.range (dimM (o.f 8 4))).map fun i => r.seqOf (o.f 0x40 4 + i),
      if mode == 1 then (List.range 32).map fun n => r.seqOf (o.f 0x44 4 + 32 * g + n)
      else (List.range (dimN (o.f 8 4))).map fun j => r.seqOf (o.f 0x44 4 + j)⟩

/-- Whether two rows belong to one sequence. -/
def sameSeq (a b : Option Nat) : Bool := match a, b with
  | some x, some y => x == y
  | _, _ => false

/-- Whether A(i, k) takes part in K-group g; k is its dense column. -/
def Ragged.takesA (x : Ragged) (g i k : Nat) : Bool :=
  if x.mode == 0 then true
  else if x.mode == 1 then sameSeq (x.rows.getD i none) (x.cols.getD (k - 32 * g) none)
  else x.cols.any fun c => sameSeq (x.rows.getD i none) c

/-- Whether element (i, j) takes products. -/
def Ragged.takes (x : Ragged) (i j : Nat) : Bool :=
  if x.mode == 2 then sameSeq (x.rows.getD i none) (x.cols.getD j none) else true

/-- The tile after a K-group: elements and flags. -/
def State.kgroupTile (s : State) (T : Tile) (o : TileOp) (tab : LineTab) (a b : Operand) : List (Nat × W40) × FlagBits :=
  let g := o.next
  let M := dimM (o.f 8 4)
  let N := dimN (o.f 8 4)
  let rg := o.ragged g
  let cols (i : Nat) : List (Nat × Nat) := (o.columns g i).filter fun c => rg.takesA g i c.2
  -- the rows of A with the dense columns of their elements, and the rows of B in this K-group
  let rowsA := (List.range M).map fun i => (cols i).map fun c => (c.2, s.operandVal tab a i c.1, s.operandInt tab a i c.1)
  let rowsB := (List.range (min 32 (o.f 12 4 - 32 * g))).map fun n =>
    (List.range N).map fun j => (s.operandVal tab b (32 * g + n) j, s.operandInt tab b (32 * g + n) j)
  let zero : FVal × Int := (.fin false 0 0, 0)
  let cell (i j : Nat) : Nat × FlagBits :=
    if decide (i < M) && decide (j < N) && rg.takes i j then
      let ps := (rowsA.getD i []).map fun x => (x.2, (rowsB.getD (x.1 - 32 * g) []).getD j zero)
      if o.form then accInt (T.get i j) (ps.map fun p => (p.1.2, p.2.2))
      else accSum s.peerNo (T.get i j) (ps.map fun p => (p.1.1, p.2.1))
    else (T.get i j, 0)
  let all := (List.range 4096).map fun k => cell (k / 64) (k % 64)
  ((indexed all).filterMap fun x => if x.2.1 == 0 then none else some (x.1, BitVec.ofNat 40 x.2.1),
    all.foldl (fun f x => f ||| x.2) 0)

/-- Score form: elements whose row and column lie in different sequences become minus infinity after the last K-group. -/
def TileOp.scored (o : TileOp) (T : Tile) : List (Nat × W40) :=
  let rg := o.ragged 0
  if rg.mode == 2 then
    tileElemsOf fun i j =>
      if decide (i < dimM (o.f 8 4)) && decide (j < dimN (o.f 8 4)) && !rg.takes i j then fmtAcc.signed true fmtAcc.infCode
      else T.get i j
  else T.elems

/-- Flags of a step of an operation on a tile: ORed into the tile's flag word (spec 14 R295) and into the flags of the grid that
issued the operation (spec 02 R53). (DEDUCED, log 54.) -/
def State.tileFlags (s : State) (t i : Nat) (f : FlagBits) : State :=
  (s.modTile t i fun T => { T with flags := T.flags ||| f }).gridFlags (s.team t).grid f

/-- The next K-group of an MMA. -/
def State.doKgroup (s : State) (t i : Nat) (o : TileOp) : OpOut :=
  let g := o.next
  let M := dimM (o.f 8 4)
  let N := dimN (o.f 8 4)
  let K := o.f 12 4
  let rg := o.ragged g
  match s.operand t o 0x10 0x20 0x28 M (if bitsOf (o.f 4 4) 1 1 == 1 then K / 2 else K), s.operand t o 0x18 0x24 0x30 K N with
  | some a, some b =>
    let cols (i : Nat) : List (Nat × Nat) := (o.columns g i).filter fun c => rg.takesA g i c.2
    let ks := ((List.range M).flatMap fun i => (cols i).map (·.2)).eraseDups
    let js := (List.range N).filter fun j => (List.range M).any fun i => rg.takes i j
    let lines := rangeLines (((List.range M).flatMap fun i => (cols i).flatMap fun c => a.ranges i c.1) ++
      ks.flatMap fun k => js.flatMap fun j => b.ranges k j)
    match s.engRanges (s.tileUnit t i) .read false (lineRanges lines) with
    | .bad f => .fail f
    | .pages ps => .pages ps
    | .wait s' => .wait s'
    | .ok s' ps =>
      let r := s'.kgroupTile (s'.tile t i) o (lineTab lines ps) a b
      let s' := (s'.modTile t i fun T => { T with elems := r.1 }).tileFlags t i r.2
      if g + 1 == o.groups then
        let s' := s'.modTile t i fun T => { T with elems := o.scored T }
        .done ((s'.writeProgress t o o.groups 0 1).endOp t i none)
      else .done ((s'.modHead t i fun o => { o with next := g + 1 }).engDone (s'.tileUnit t i))
  | _, _ => .wait s

/-! ## Image rows (spec 14 R292) -/

/-- The next row of an MLOAD. -/
def State.doRow (s : State) (t i : Nat) (o : TileOp) : OpOut :=
  let r := o.next
  match s.place t (parseSource (BitVec.ofNat 64 (o.f 0 8))) with
  | none => .wait s
  | some (d, a) =>
    match s.engRange (s.tileUnit t i) d (a + 512 * r) 512 .read false with
    | .bad f => .fail f
    | .pages ps => .pages ps
    | .wait s' => .wait s'
    | .ok s' ps =>
      let bs := s'.rdPieces ps
      let s' := s'.modTile t i fun T =>
        { T with elems := tileElemsOf fun x j => if x == r then fieldAt bs (8 * j) 5 else T.get x j }
      .done (if r + 1 == 64 then s'.endOp t i none
        else (s'.modHead t i fun o => { o with next := r + 1 }).engDone (s'.tileUnit t i))

/-! ## Drain blocks (spec 13 R276-R278) -/

/-- An element written: domain, address, bit, width, value. -/
structure ElemWrite where
  dom  : Nat
  addr : Nat
  bit  : Nat
  bits : Nat
  val  : Nat

/-- The bytes of elements written over bytes that `under` gives by key. -/
def mergeWrites (under : Nat → Byte) (tab : LineTab) (ws : List ElemWrite) : List ((Nat × Bool) × Nat) :=
  ws.foldl (fun acc w =>
    let n := (w.bit + w.bits + 7) / 8
    let key (k : Nat) : Nat × Bool := tab.key w.dom (w.addr + k)
    let old (k : Nat) : Nat := match acc.find? fun x => x.1 == key k with
      | some x => x.2
      | none => (under (key k).1).toNat
    let whole := setBits ((List.range n).foldr (fun k v => old k + 256 * v) 0) w.bit w.bits w.val
    (List.range n).foldl (fun acc k => (key k, bitsOf whole (8 * k) 8) :: acc.filter fun x => x.1 != key k) acc) []

/-- Elements written as one event, once every line they touch is to be had; `k` follows in the state that holds them. -/
def State.writeElems (s : State) (w : Unit) (ws : List ElemWrite) (k : State → State) : OpOut :=
  let lines := rangeLines (ws.map fun x => (x.dom, x.addr, (x.bit + x.bits + 7) / 8))
  match s.engRanges w .write false (lineRanges lines) with
  | .bad f => .fail f
  | .pages ps => .pages ps
  | .wait s' => .wait s'
  | .ok s' ps =>
    let tab := lineTab lines ps
    let cells := (mergeWrites (memRead s'.mem) tab ws).map fun x => (x.1.1, x.1.2, BitVec.ofNat 8 x.2)
    -- the bits of the written elements, for a byte that another element shares
    let bits := mergeWrites (fun _ => 0) tab (ws.map fun x => { x with val := 2 ^ x.bits - 1 })
    let mask (key : Nat) : Byte := BitVec.ofNat 8 (((bits.find? fun x => x.1.1 == key).map (·.2)).getD 0)
    .done (k (s'.storeMasked w.who (some w.grid) false mask cells))

/-- Drain blocks of a row. -/
def blocksOf (n : Nat) : Nat := ceilDiv n 32

/-- AMAX register `n` of a core. -/
def State.amax (s : State) (core n : Nat) : Nat := ((assocGet s.eng.amax core []).getD n (0 : W32)).toNat
/-- AMAX register `n` of a core set. -/
def State.setAmax (s : State) (core n v : Nat) : State :=
  let old := assocGet s.eng.amax core []
  let regs := (List.range 16).map fun i => if i == n then BitVec.ofNat 32 v else old.getD i (0 : W32)
  { s with eng := { s.eng with amax := assocSet s.eng.amax core regs } }

/-- A block has been written: the operation goes on, or ends by `fin` after its last block, once its writes are performed.
(DEDUCED, log 62.) -/
def State.nextBlock (s : State) (t i : Nat) (o : TileOp) (total : Nat) (fin : State → State) : State :=
  let w := s.tileUnit t i
  if s.unitPending w.who then s.modHead t i fun o => { o with sent := true }
  else if o.next + 1 == total then fin s
  else (s.modHead t i fun o => { o with next := o.next + 1, sent := false }).engDone w

/-- The next block of an MDRAIN. (DEDUCED, log 60.) -/
def State.doDrain (s : State) (t i : Nat) (o : TileOp) : OpOut :=
  let M := dimM (o.f 8 4)
  let N := dimN (o.f 8 4)
  let nb := blocksOf N
  let row := o.next / nb
  let cols := (List.range (min 32 (N - 32 * (o.next % nb)))).map fun x => 32 * (o.next % nb) + x
  let T := s.tile t i
  let dctl := o.f 4 4
  let fmt := bitsOf dctl 0 8
  match s.operand t o 0x10 0x18 0x20 M N with
  | none => .wait s
  | some d =>
    let W := ceilDiv d.e1 d.lay.C * d.lay.C
    let draw (j : Nat) : RMode :=
      let p := d.stored row j
      rmodeOf (bitsOf dctl 12 3) (drawWord (s.grid (s.team t).grid).par.seed (BitVec.ofNat 16 (bitsOf dctl 16 16)) (p.1 * W + p.2))
    let accs := cols.map fun j => T.get row j
    let put (j v : Nat) : ElemWrite :=
      let e := d.elem row j
      ⟨d.dom, e.1, e.2, d.lay.bits, v⟩
    let out : List ElemWrite × FlagBits :=
      if isMx fmt then
        let r := mxBlock (elemFmt fmt) (fun x => draw (cols.getD x 0)) (accs.map fmtAcc.value)
        (⟨d.sdom, d.scale row (cols.headD 0), 0, 8, r.1⟩ :: (cols.zip r.2.1).map fun x => put x.1 x.2, r.2.2)
      else
        let rs := (cols.zip accs).map fun x =>
          (x.1, if T.int then drainInt fmt x.2 else drainFloat (elemFmt fmt) (draw x.1) s.peerNo x.2)
        (rs.map fun x => put x.1 x.2.1, rs.foldl (fun f x => f ||| x.2.2) 0)
    if o.sent then .done (s.nextBlock t i o (M * nb) fun s =>
      (if bitsOf dctl 15 1 == 1 then s.modTile t i fun T => { T with elems := [] } else s).endOp t i none)
    else s.writeElems (s.tileUnit t i) out.1 fun s =>
      let s := s.tileFlags t i out.2
      let core := (s.team t).core
      let sel := o.f 12 4
      let s := if bitsOf sel 4 1 == 1 then
          s.setAmax core (sel % 16) (amaxBlock T.int s.peerNo (s.amax core (sel % 16)) accs)
        else s
      s.nextBlock t i o (M * nb) fun s =>
        (if bitsOf dctl 15 1 == 1 then s.modTile t i fun T => { T with elems := [] } else s).endOp t i none

/-! ## Update blocks (spec 13 R279-R281) -/

/-- The constants of an update block. -/
def TileOp.consts (o : TileOp) : UpdConst :=
  let k (i : Nat) : Nat := o.f (0x40 + 4 * i) 4
  ⟨k 0, k 1, k 2, k 3, k 4, k 5, k 6, k 7, k 8, k 9⟩

/-- Global ranges reached for update although they may be poisoned. -/
def State.engRangesAny (s : State) (w : Unit) (rs : List (Nat × Nat × Nat)) : EngAcc :=
  reachRanges (fun s r => s.engGlobal w r.2.1 r.2.2 .merge) s rs

/-- Whether a unit may read every byte of ranges. -/
def State.engReadable (s : State) (ctx : Nat) (rs : List (Nat × Nat × Nat)) : Bool :=
  rs.all fun r => match s.unitRange ctx r.2.1 r.2.2 { rd := true } 5 with
    | .bad 2 => false
    | _ => true

/-- The word UPSTAT after `k` more failed elements. -/
def upstat (old k : Nat) (done : Bool) : Nat :=
  let n := min 65535 (bitsOf old 0 16 + k)
  n + (if n == 0 then 0 else 2 ^ 30) + (if done then 2 ^ 31 else 0)

/-- A block of an update whose bytes are all to be had: W, m, its scale, v, its scale and the BF16 copy, in this order. -/
def State.updBlock (s : State) (t i : Nat) (o : TileOp) (row col : Nat) (ps : List (Nat × Nat × Bool)) : State :=
  let keys := pieceKeys ps
  let byteAt (k : Nat) : Nat × Bool := keys.getD k (0, false)
  let nat (k n : Nat) : Nat := leNat ((List.range n).map fun x => memRead s.mem (byteAt (k + x)).1)
  let sick (k n : Nat) : Bool := (List.range n).any fun x => s.byteBad (byteAt (k + x)).1
  let x0 := row * o.f 12 4 + col
  let peer := s.peerNo
  let T := s.tile t i
  let scaleBad := sick 160 1 || sick 193 1
  let failed (e : Nat) : Bool := scaleBad || sick (4 * e) 4 || sick (128 + e) 1 || sick (161 + e) 1
  let res (e : Nat) : Nat × Nat × Nat × FlagBits :=
    updStep o.consts peer (T.get row (col + e)) (nat (4 * e) 4)
      (mxValue fmtE4m3 fmt32 peer (nat (128 + e) 1) (nat 160 1)) (mxValue fmtE5m2 fmt32 peer (nat (161 + e) 1) (nat 193 1))
  let good := (List.range 32).filter fun e => !failed e
  let bad := (List.range 32).filter failed
  let rs := good.map fun e => (e, res e)
  let bm := mxBlock fmtE4m3 (fun _ => .rne) (rs.map fun r => fmt32.value r.2.2.1)
  let bv := mxBlock fmtE5m2 (fun _ => .rne) (rs.map fun r => fmt32.value r.2.2.2.1)
  let bf := rs.map fun r => (r.1, fpConvert fmt32 fmtBf .rne peer r.2.1)
  let cellsAt (k n v : Nat) : List (Nat × Bool × Byte) :=
    (List.range n).map fun x => ((byteAt (k + x)).1, (byteAt (k + x)).2, BitVec.ofNat 8 (bitsOf v (8 * x) 8))
  let cells := (rs.flatMap fun r => cellsAt (4 * r.1) 4 r.2.1) ++
    ((good.zip bm.2.1).flatMap fun x => cellsAt (128 + x.1) 1 x.2) ++ cellsAt 160 1 bm.1 ++
    ((good.zip bv.2.1).flatMap fun x => cellsAt (161 + x.1) 1 x.2) ++ cellsAt 193 1 bv.1 ++
    (bf.flatMap fun x => cellsAt (194 + 2 * x.1) 2 x.2.1)
  let fl := rs.foldl (fun f r => f ||| r.2.2.2.2) (bf.foldl (fun f x => f ||| x.2.2) (bm.2.2 ||| bv.2.2))
  let w := s.tileUnit t i
  let s := s.storeCells w.who (some w.grid) cells
  let s := s.tileFlags t i fl
  -- failed elements: their moment bytes are poisoned, and each is an error entry
  let s := bad.foldl (fun s e =>
    let s := (s.spoil w (byteAt (128 + e))).spoil w (byteAt (161 + e))
    s.errorEntry (s.team t).grid 2 (BitVec.ofNat 64 (o.f 0x10 8 + 4 * (x0 + e)))) s
  if bad.isEmpty then s
  else
    let old := s.rdNat (scratchKey t (o.off + 0x68)) 4
    let s := s.blockWrite t (o.off + 0x68) (leBytes 4 (upstat old bad.length false))
    s.modHead t i fun o => { o with firstBad := some (o.firstBad.getD o.next) }

/-- An update ends: UPSTAT.DONE, and the failure of R281 when an element failed. (DEDUCED, log 61.) -/
def State.endUpdate (s : State) (t i : Nat) (o : TileOp) : State :=
  let old := s.rdNat (scratchKey t (o.off + 0x68)) 4
  let s := s.blockWrite t (o.off + 0x68) (leBytes 4 (upstat old 0 true))
  s.endOp t i ((s.tile t i).ops.head?.bind TileOp.elemFail)

/-- The next block of an MUPD. -/
def State.doUpdate (s : State) (t i : Nat) (o : TileOp) : OpOut :=
  let M := dimM (o.f 8 4)
  let nb := blocksOf (dimN (o.f 8 4))
  let row := o.next / nb
  let col := 32 * (o.next % nb)
  let x := row * o.f 12 4 + col
  let w := s.tileUnit t i
  let reads : List (Nat × Nat × Nat) :=
    [(w.ctx, o.f 0x10 8 + 4 * x, 128), (w.ctx, o.f 0x18 8 + x, 32), (w.ctx, o.f 0x20 8 + x / 32, 1),
      (w.ctx, o.f 0x28 8 + x, 32), (w.ctx, o.f 0x30 8 + x / 32, 1)]
  if o.sent then .done (s.nextBlock t i o (M * nb) fun s => s.endUpdate t i o)
  else if !s.engReadable w.ctx reads then .fail .protection
  else
    match s.engRangesAny w (reads ++ [(w.ctx, o.f 0x38 8 + 2 * x, 64)]) with
    | .bad f => .fail f
    | .pages ps => .pages ps
    | .wait s' => .wait s'
    | .ok s' ps =>
      .done ((s'.updBlock t i o row col ps).nextBlock t i o (M * nb) fun s => s.endUpdate t i o)

/-! ## The events -/

/-- What the next piece of the head operation's work comes to. -/
def State.opWork (s : State) (t i : Nat) (o : TileOp) : OpOut :=
  if o.bad then .fail .translation
  else match o.kind with
    | .mma => s.doKgroup t i o
    | .mload => s.doRow t i o
    | .mdrain => s.doDrain t i o
    | .mupd => s.doUpdate t i o
    | .mzero => .wait s

/-- A piece of work of the head operation of a tile, of one kind. -/
def tileWork (kind : OpKind) (t i : Nat) (s : State) : Res :=
  match (s.tile t i).ops with
  | o :: _ =>
    if s.tileRuns t && o.started && o.kind == kind && o.pages.isEmpty then
      let w := s.tileUnit t i
      if s.unitPending w.who then notDue s
      else if s.unitFailed w.who then .next (s.failOp t i o .fabric)
      else match s.opWork t i o with
      | .done s' => .next s'
      | .pages ps => .next (s.stopOp t i o ps)
      | .fail f => .next (s.failOp t i o f)
      | .wait s' => if s'.fab == s.fab then notDue s else .next s'
    else notDue s
  | [] => notDue s

/-- MATRIX_KGROUP. -/
def execMatrixKgroup (t i : Nat) (s : State) : Res := tileWork .mma t i s
/-- MLOAD_ROW. -/
def execMloadRow (t i : Nat) (s : State) : Res := tileWork .mload t i s
/-- DRAIN_BLOCK. -/
def execDrainBlock (t i : Nat) (s : State) : Res := tileWork .mdrain t i s
/-- UPDATE_BLOCK. -/
def execUpdateBlock (t i : Nat) (s : State) : Res := tileWork .mupd t i s

end Sys2Proof.Machine
end

