-- ==== Sys2Proof/Machine/Memory.lean ====
section
/-! DEFINITION. Element loads and stores, tile and ragged runs, atomics, scatter contributions, prefetch and shape-record
invalidation: majors 0x20 to 0x28 and 0x2A (spec 11). -/

namespace Sys2Proof.Machine

/-! ## Addresses and orders -/

/-- A + SignExt(IMM16) of a lane (spec 11 R228, R234). -/
def baseAddr (G : Group) (m : Mods) (a : BitVec 6) (l : Nat) : W64 := src G m l a .b64 + (immOf m).signExtend 64

/-- addr(l) of an element access of `n` bytes (spec 11 R218). -/
def elemAddr (G : Group) (m : Mods) (f : V3) (n l : Nat) : W64 :=
  baseAddr G m f.a l + (src32 G m l f.b).signExtend 64 * BitVec.ofNat 64 n

/-- ORD of the extension (spec 05 Table 5-8). -/
def ordOf (m : Mods) : Nat := (xopOf m).toNat / 4

/-- Whether an access is a release at system scope, which waits for the writes of the team on their way to other packages
(spec 12 R247, 18 R383). -/
def sysRelease (m : Mods) : Bool := (ordOf m == 2 || ordOf m == 3) && mod3Of m == 5

/-- The condition of a misaligned address (spec 11 Table 11-1 row 3). -/
def misaligned (a : W64) (n kind : Nat) : List Cond := if a.toNat % n != 0 then [⟨304, 8, 4, kindAux kind, a⟩] else []

/-- The unit that a lane's requests are answered to. -/
def unitOf (c : Inst) (l : Nat) : Nat × Nat × Nat := (c.team, c.group, l)

/-! ## Element accesses (spec 11 R223-R227) -/

/-- What an element access asks for in a lane. -/
def elemReq (sp : Space) (acc : Acc) (n align len : Nat) (a : W64) : LaneReq :=
  { segs := [⟨sp, a, len, acc, sp == .scratch && n == 16⟩], rep := a, kind := acc.kind, own := misaligned a align acc.kind }

/-- A load of `n` bytes; `out` gives what a lane receives for the value. -/
def loadOp (sp : Space) (n pushes : Nat) (out : Nat → LaneOut) (f : V3) (m : Mods) (s : State) : Res :=
  withInst s fun c =>
    let G := s.instGrp c
    memInst c m (activeOf s c f.g.toNat (guardNeg m))
      { req := fun l => elemReq sp .read n n n (elemAddr G m f n l)
        pushes := pushes
        zero := fun _ => out 0
        helper := .reads
        perform := fun _ ks s => (s, out (s.keysNat ks)) } s

/-- A store of `n` bytes of the number that `val` gives. -/
def storeOp (sp : Space) (n : Nat) (val : Group → Nat → Nat) (f : V3) (m : Mods) (s : State) : Res :=
  withInst s fun c =>
    let G := s.instGrp c
    memInst c m (activeOf s c f.g.toNat (guardNeg m))
      { req := fun l => elemReq sp .write n n n (elemAddr G m f n l)
        pushes := 0
        zero := fun _ => {}
        helper := .discarded
        perform := fun l ks s => (s.storeCells (unitOf c l) (s.gridOpt c.team) (cellsOf ks (val G l)), {})
        release := sysRelease m } s

/-- A loaded number zero-extended to 32 bits. -/
def loadZero (d : BitVec 6) (v : Nat) : LaneOut := out32 d (BitVec.ofNat 32 v)
/-- A loaded number of `w` bits sign-extended to 32 bits. -/
def loadSign (w : Nat) (d : BitVec 6) (v : Nat) : LaneOut := out32 d ((BitVec.ofNat w v).signExtend 32)
/-- A loaded 64-bit number. -/
def load64 (d : BitVec 6) (v : Nat) : LaneOut := out64 d (BitVec.ofNat 64 v)
/-- A loaded 128-bit number (spec 11 R219). -/
def load128 (d : BitVec 6) (v : Nat) : LaneOut := outWords d (natWords 4 v)
/-- The data of a store of at most 64 bits. -/
def dataOf (f : V3) (m : Mods) (t : Ty) (G : Group) (l : Nat) : Nat := (src G m l f.d t).toNat
/-- The data of a 128-bit store. -/
def data128 (d : BitVec 6) (G : Group) (l : Nat) : Nat := wordsNat (srcWords G l d 4)

/-- LD.n8 (spec 11 R223). -/
def execLdN8 (f : V3) (m : Mods) (s : State) : Res := loadOp .global 1 1 (loadZero f.d) f m s
/-- LD.s8 (spec 11 R223). -/
def execLdS8 (f : V3) (m : Mods) (s : State) : Res := loadOp .global 1 1 (loadSign 8 f.d) f m s
/-- LD.n16 (spec 11 R223). -/
def execLdN16 (f : V3) (m : Mods) (s : State) : Res := loadOp .global 2 1 (loadZero f.d) f m s
/-- LD.s16 (spec 11 R223). -/
def execLdS16 (f : V3) (m : Mods) (s : State) : Res := loadOp .global 2 1 (loadSign 16 f.d) f m s
/-- LD.b32 (spec 11 R223). -/
def execLdB32 (f : V3) (m : Mods) (s : State) : Res := loadOp .global 4 1 (loadZero f.d) f m s
/-- LD.b64 (spec 11 R223). -/
def execLdB64 (f : V3) (m : Mods) (s : State) : Res := loadOp .global 8 1 (load64 f.d) f m s
/-- LD.b128 (spec 11 R223). -/
def execLdB128 (f : V3) (m : Mods) (s : State) : Res := loadOp .global 16 2 (load128 f.d) f m s
/-- ST.b8 (spec 11 R223). -/
def execStB8 (f : V3) (m : Mods) (s : State) : Res := storeOp .global 1 (dataOf f m .b8) f m s
/-- ST.b16 (spec 11 R223). -/
def execStB16 (f : V3) (m : Mods) (s : State) : Res := storeOp .global 2 (dataOf f m .b16) f m s
/-- ST.b32 (spec 11 R223). -/
def execStB32 (f : V3) (m : Mods) (s : State) : Res := storeOp .global 4 (dataOf f m .b32) f m s
/-- ST.b64 (spec 11 R223). -/
def execStB64 (f : V3) (m : Mods) (s : State) : Res := storeOp .global 8 (dataOf f m .b64) f m s
/-- ST.b128 (spec 11 R223). -/
def execStB128 (f : V3) (m : Mods) (s : State) : Res := storeOp .global 16 (data128 f.d) f m s
/-- LD.n8.scr (spec 11 R223). -/
def execLdN8Scr (f : V3) (m : Mods) (s : State) : Res := loadOp .scratch 1 1 (loadZero f.d) f m s
/-- LD.s8.scr (spec 11 R223). -/
def execLdS8Scr (f : V3) (m : Mods) (s : State) : Res := loadOp .scratch 1 1 (loadSign 8 f.d) f m s
/-- LD.n16.scr (spec 11 R223). -/
def execLdN16Scr (f : V3) (m : Mods) (s : State) : Res := loadOp .scratch 2 1 (loadZero f.d) f m s
/-- LD.s16.scr (spec 11 R223). -/
def execLdS16Scr (f : V3) (m : Mods) (s : State) : Res := loadOp .scratch 2 1 (loadSign 16 f.d) f m s
/-- LD.b32.scr (spec 11 R223). -/
def execLdB32Scr (f : V3) (m : Mods) (s : State) : Res := loadOp .scratch 4 1 (loadZero f.d) f m s
/-- LD.b64.scr (spec 11 R223). -/
def execLdB64Scr (f : V3) (m : Mods) (s : State) : Res := loadOp .scratch 8 1 (load64 f.d) f m s
/-- LD.b128.scr (spec 11 R223). -/
def execLdB128Scr (f : V3) (m : Mods) (s : State) : Res := loadOp .scratch 16 2 (load128 f.d) f m s
/-- ST.b8.scr (spec 11 R223). -/
def execStB8Scr (f : V3) (m : Mods) (s : State) : Res := storeOp .scratch 1 (dataOf f m .b8) f m s
/-- ST.b16.scr (spec 11 R223). -/
def execStB16Scr (f : V3) (m : Mods) (s : State) : Res := storeOp .scratch 2 (dataOf f m .b16) f m s
/-- ST.b32.scr (spec 11 R223). -/
def execStB32Scr (f : V3) (m : Mods) (s : State) : Res := storeOp .scratch 4 (dataOf f m .b32) f m s
/-- ST.b64.scr (spec 11 R223). -/
def execStB64Scr (f : V3) (m : Mods) (s : State) : Res := storeOp .scratch 8 (dataOf f m .b64) f m s
/-- ST.b128.scr (spec 11 R223). -/
def execStB128Scr (f : V3) (m : Mods) (s : State) : Res := storeOp .scratch 16 (data128 f.d) f m s
/-- LD.n8.cscr (spec 11 R223). -/
def execLdN8Cscr (f : V3) (m : Mods) (s : State) : Res := loadOp .cluster 1 1 (loadZero f.d) f m s
/-- LD.s8.cscr (spec 11 R223). -/
def execLdS8Cscr (f : V3) (m : Mods) (s : State) : Res := loadOp .cluster 1 1 (loadSign 8 f.d) f m s
/-- LD.n16.cscr (spec 11 R223). -/
def execLdN16Cscr (f : V3) (m : Mods) (s : State) : Res := loadOp .cluster 2 1 (loadZero f.d) f m s
/-- LD.s16.cscr (spec 11 R223). -/
def execLdS16Cscr (f : V3) (m : Mods) (s : State) : Res := loadOp .cluster 2 1 (loadSign 16 f.d) f m s
/-- LD.b32.cscr (spec 11 R223). -/
def execLdB32Cscr (f : V3) (m : Mods) (s : State) : Res := loadOp .cluster 4 1 (loadZero f.d) f m s
/-- LD.b64.cscr (spec 11 R223). -/
def execLdB64Cscr (f : V3) (m : Mods) (s : State) : Res := loadOp .cluster 8 1 (load64 f.d) f m s
/-- LD.b128.cscr (spec 11 R223). -/
def execLdB128Cscr (f : V3) (m : Mods) (s : State) : Res := loadOp .cluster 16 2 (load128 f.d) f m s
/-- ST.b8.cscr (spec 11 R223). -/
def execStB8Cscr (f : V3) (m : Mods) (s : State) : Res := storeOp .cluster 1 (dataOf f m .b8) f m s
/-- ST.b16.cscr (spec 11 R223). -/
def execStB16Cscr (f : V3) (m : Mods) (s : State) : Res := storeOp .cluster 2 (dataOf f m .b16) f m s
/-- ST.b32.cscr (spec 11 R223). -/
def execStB32Cscr (f : V3) (m : Mods) (s : State) : Res := storeOp .cluster 4 (dataOf f m .b32) f m s
/-- ST.b64.cscr (spec 11 R223). -/
def execStB64Cscr (f : V3) (m : Mods) (s : State) : Res := storeOp .cluster 8 (dataOf f m .b64) f m s
/-- ST.b128.cscr (spec 11 R223). -/
def execStB128Cscr (f : V3) (m : Mods) (s : State) : Res := storeOp .cluster 16 (data128 f.d) f m s

/-- PREF changes timing only (spec 11 R225). -/
def execPref (_ : V3) (m : Mods) (s : State) : Res := withInst s fun c => finishSeq c m 0 s s

/-- The line of the first key of a lane discarded. -/
def State.discardFirst (s : State) (ks : List (Nat × Bool)) : State :=
  match ks with
  | [] => s
  | k :: _ => s.discardKey k.1

/-- DISCARD (spec 11 R226). (DEDUCED, log 39.) -/
def execDiscard (f : V3) (m : Mods) (s : State) : Res :=
  withInst s fun c =>
    let G := s.instGrp c
    memInst c m (activeOf s c f.g.toNat (guardNeg m))
      { req := fun l => elemReq .global .discard 1 1 1 (elemAddr G m f 1 l)
        pushes := 0
        zero := fun _ => {}
        helper := .discarded
        perform := fun _ ks s => (s.discardFirst ks, {}) } s

/-- LASTUSE: every lane reads before any line is discarded (spec 11 R227). -/
def execLastuse (f : V3) (m : Mods) (s : State) : Res :=
  withInst s fun c =>
    let G := s.instGrp c
    memInst c m (activeOf s c f.g.toNat (guardNeg m))
      { req := fun l => elemReq .global .lastuse 16 16 16 (elemAddr G m f 16 l)
        pushes := 2
        zero := fun _ => load128 f.d 0
        helper := .reads
        perform := fun _ ks s => (s, load128 f.d (s.keysNat ks))
        after := fun xs s => xs.foldl (fun s x => if (G.lane x.1).helper then s else s.discardFirst x.2) s } s

/-! ## Tiles (spec 11 R228-R231) -/

/-- The B operand of TLD and TST. -/
structure TileArg where
  sc  : Bool
  col : Nat
  row : Nat
  lay : Option Layout

def tileArg (b : W64) : TileArg :=
  { sc := b.getLsbD 63, col := bitsOf b.toNat 48 15, row := bitsOf b.toNat 32 16, lay := parseLayout (b.extractLsb' 0 32) }

/-- What a lane moves: elements of `b` bits with their bit offsets, or scale bytes. -/
structure TileRun where
  bits : Nat := 8
  es   : List (Nat × Nat) := []
  offs : List Nat := []

/-- The elements of a run of `n` from operand element (i, j) (spec 11 R229). -/
def tileElems (y : Layout) (i j n : Nat) : List (Nat × Nat) :=
  (List.range n).map fun e => (e, if y.t then y.bitOff (j + e) i else y.bitOff i (j + e))

/-- The run of a lane and the offset of its version word; or the reason of row 3 that it meets (spec 11 R228, R230, R231). -/
def tileRun (ver : Bool) (a : W64) (x : TileArg) : Except Nat (TileRun × Nat) :=
  match x.lay with
  | none => .error 1
  | some y =>
    if x.sc then
      if !isMx y.fmt then .error 3
      else if a.toNat % 16 != 0 then .error 4
      else
        let total := y.R * y.C / 32
        let offs := (List.range 16).filterMap fun i => if 16 * x.row + i < total then some (16 * x.row + i) else none
        .ok ({ bits := 8, es := offs.map fun o => (o - 16 * x.row, 8 * o), offs := offs }, total)
    else
      let n := y.runLen y.cop
      if a.toNat % y.align != 0 then .error 2
      else if decide (y.rop ≤ x.row) || decide (y.cop ≤ x.col) || x.col % n != 0 || decide (y.cop < x.col + n) then .error 3
      else if ver && y.pad == 0 then .error 9
      else
        let es := tileElems y x.row x.col n
        .ok ({ bits := y.bits, es := es, offs := runBytes y.bits es }, y.bytes)

/-- What a tile access asks for in a lane. (DEDUCED, log 38.) -/
def tileReq (sp : Space) (acc : Acc) (ver : Bool) (a b : W64) : LaneReq :=
  match tileRun ver a (tileArg b) with
  | .error r => { segs := [⟨sp, a, 1, acc, false⟩], rep := a, kind := acc.kind, own := [⟨300 + r, 8, r, kindAux acc.kind, a⟩] }
  | .ok (t, v) =>
    let word : List Seg := if ver then [⟨sp, a + BitVec.ofNat 64 v, 4, acc, false⟩] else []
    { pre := word, segs := runSegs sp a acc t.offs, look := word, rep := a, kind := acc.kind }

/-- The run of a lane that no condition of row 3 stops. -/
def tileRunOf (ver : Bool) (a b : W64) : TileRun :=
  match tileRun ver a (tileArg b) with
  | .ok (t, _) => t
  | .error _ => {}

/-- The value a lane reads from the bytes at its keys. -/
def State.readRun (s : State) (t : TileRun) (ks : List (Nat × Bool)) : Nat :=
  gatherRun t.bits t.es t.offs (ks.map fun k => memRead s.mem k.1)

/-- The cells a lane writes. -/
def State.runCells (s : State) (t : TileRun) (ks : List (Nat × Bool)) (v : Nat) : List (Nat × Bool × Byte) :=
  (ks.zip (spreadRun t.bits t.es t.offs (ks.map fun k => memRead s.mem k.1) v)).map fun x => (x.1.1, x.1.2, x.2)

/-- The bits of the byte at a key that a lane writes. -/
def TileRun.mask (t : TileRun) (ks : List (Nat × Bool)) (k : Nat) : Byte :=
  let full := spreadRun t.bits t.es t.offs (ks.map fun _ => 0) (2 ^ 128 - 1)
  assocGet ((ks.map (·.1)).zip full) k 0

/-- TLD and TLD.ver in a space. -/
def tileLoad (sp : Space) (ver : Bool) (f : V3) (m : Mods) (s : State) : Res :=
  withInst s fun c =>
    let G := s.instGrp c
    let addr (l : Nat) : W64 := baseAddr G m f.a l
    memInst c m (activeOf s c f.g.toNat (guardNeg m))
      { req := fun l => tileReq sp .read ver (addr l) (src G m l f.b .b64)
        pushes := 2
        zero := fun _ => load128 f.d 0
        helper := .reads
        perform := fun l ks s => (s, load128 f.d (s.readRun (tileRunOf ver (addr l) (src G m l f.b .b64)) ks))
        checked := ver
        whole := ver } s

/-- A run stored by a lane; one that crosses a line is a single write, so that an element never reaches its home in two. -/
def State.storeRun (s : State) (c : Inst) (l : Nat) (t : TileRun) (ks : List (Nat × Bool)) (v : Nat) : State :=
  let crosses := ks.any fun k => (k.1 + 1) % 128 == 0 && ks.any fun j => j.1 == k.1 + 1
  s.storeMasked (unitOf c l) (s.gridOpt c.team) crosses (t.mask ks) (s.runCells t ks v)

/-- TST and TST.whole in a space: each lane's run is a store of its own, or all of them are one (spec 11 R230). (DEDUCED, log 171.) -/
def tileStore (sp : Space) (whole : Bool) (f : V3) (m : Mods) (s : State) : Res :=
  withInst s fun c =>
    let G := s.instGrp c
    let run (l : Nat) : TileRun := tileRunOf false (baseAddr G m f.a l) (src G m l f.b .b64)
    -- the cells of all lanes, a later lane's over an earlier one's
    let join (xs : List (Nat × List (Nat × Bool))) (s : State) : List (Nat × Bool × Byte) :=
      (xs.foldl (fun (acc : State × List (Nat × Bool × Byte)) x =>
        let cs := acc.1.runCells (run x.1) x.2 (data128 f.d G x.1)
        (acc.1.wrCells (cs.map fun c => (c.1, c.2.2)), (acc.2.filter fun o => !cs.any fun n => n.1 == o.1) ++ cs)) (s, [])).2
    let mask (xs : List (Nat × List (Nat × Bool))) (k : Nat) : Byte :=
      xs.foldl (fun b x => b ||| (run x.1).mask x.2 k) 0
    memInst c m (activeOf s c f.g.toNat (guardNeg m))
      { req := fun l => tileReq sp .write false (baseAddr G m f.a l) (src G m l f.b .b64)
        pushes := 0
        zero := fun _ => {}
        helper := .discarded
        perform := fun l ks s => (if whole then s else s.storeRun c l (run l) ks (data128 f.d G l), {})
        after := fun xs s =>
          if whole then
            s.storeMasked (unitOf c ((xs.map (·.1)).headD 0)) (s.gridOpt c.team) true (mask xs) (join xs s)
          else s
        whole := whole
        release := sysRelease m } s

/-! ## Ragged runs (spec 11 R232, R233) -/

/-- NCROSS of the extension. -/
def ncross (m : Mods) : Bool := mod1Of m

/-- What a ragged access of a lane names: the record's address and the run. -/
structure RaggedArg where
  ra  : W64
  run : Nat
  seq : Nat
  ofs : Nat

def raggedArg (G : Group) (m : Mods) (f : V3) (l : Nat) : RaggedArg :=
  let b := (src G m l f.b .b64).toNat
  { ra := baseAddr G m f.a l, run := bitsOf b 41 23, seq := bitsOf b 32 9, ofs := bitsOf b 0 32 }

/-- The run of a lane in its tile and the tile's address; none when the row lies beyond its sequence or no element lies
within the tensor. -/
def raggedRun (r : Shape) (x : RaggedArg) : Option (W64 × TileRun) :=
  match parseLayout r.layout with
  | none => none
  | some y =>
    if decide (r.stop x.seq ≤ r.start x.seq + x.ofs) then none
    else
      let row := r.start x.seq + x.ofs
      let n := y.runLen y.C
      let j := x.run * n
      let e1 := r.ext.getD 1 1
      let es := (List.range n).filterMap fun e =>
        if j + e < e1 then some (e, y.bitOff (row % y.R) ((j + e) % y.C)) else none
      if es.isEmpty then none
      else some (BitVec.ofNat 64 (r.base + y.tileNo e1 row j * y.stride), { bits := y.bits, es := es, offs := runBytes y.bits es })

/-- The conditions that a lane's operands meet on a record (spec 11 R232, R233). (DEDUCED, log 36; DEDUCED, log 37.) -/
def raggedConds (r : Shape) (x : RaggedArg) (nocross : Bool) (kind : Nat) : List Cond :=
  let t := match parseLayout r.layout with
    | some y => y.t
    | none => false
  (if 2 < r.rank then [⟨103, 9, 3, 0, x.ra⟩] else []) ++
  (if t then [⟨104, 8, 8, kindAux kind, x.ra⟩] else []) ++
  (if max r.nseq 1 ≤ x.seq then [⟨105, 9, 4, x.seq, x.ra⟩] else []) ++
  (if nocross && decide (r.stop x.seq ≤ r.start x.seq + x.ofs) then [⟨501, 9, 2, x.seq + 1, x.ra⟩] else []) ++
  (match raggedRun r x, parseLayout r.layout with
    | some (a, _), some y => if a.toNat % y.align != 0 then [⟨302, 8, 2, kindAux kind, x.ra⟩] else []
    | _, _ => [])

/-- What a ragged access asks for in a lane, given the record's fetch. -/
def raggedReq (sp : Space) (acc : Acc) (m : Mods) (x : RaggedArg) (q : RecFetch) : LaneReq :=
  match q.got with
  | none => { pre := q.pre, look := q.look, more := true, rep := x.ra, kind := acc.kind, own := q.own }
  | some (r, _, _) =>
    { pre := q.pre
      rep := x.ra
      kind := acc.kind
      own := raggedConds r x (r.nocross || ncross m) acc.kind
      segs := match raggedRun r x with
        | some (a, t) => runSegs sp a acc t.offs
        | none => [] }

/-- The run of a lane whose record has been read. -/
def raggedRunOf (x : RaggedArg) (q : RecFetch) : TileRun :=
  match q.got with
  | none => {}
  | some (r, _, _) => match raggedRun r x with
    | some (_, t) => t
    | none => {}

/-- RLD and RST in a space. -/
def raggedOp (sp : Space) (store : Bool) (f : V3) (m : Mods) (s : State) : Res :=
  withInst s fun c =>
    let G := s.instGrp c
    let act := activeOf s c f.g.toNat (guardNeg m)
    let x (l : Nat) : RaggedArg := raggedArg G m f l
    let takes (l : Nat) : Bool := !((G.lane l).helper && store)
    let s0 := s.dropStale c (((maskLanes act).filter takes).map fun l => (l, (x l).ra))
    let acc : Acc := if store then .write else .read
    let fetch (l : Nat) : RecFetch := s0.recordFor c l (x l).ra acc.kind
    memInst c m act
      { req := fun l => raggedReq sp acc m (x l) (fetch l)
        pushes := if store then 0 else 2
        zero := fun _ => if store then {} else load128 f.d 0
        helper := if store then .discarded else .reads
        perform := fun l ks s =>
          let t := raggedRunOf (x l) (fetch l)
          if store then (s.storeRun c l t ks (data128 f.d G l), {})
          else (s, load128 f.d (s.readRun t ks))
        after := fun xs s => s.useRecords c (xs.map fun y => ((x y.1).ra, fetch y.1))
        release := store && sysRelease m } s0

/-- TLD (spec 11 R229). -/
def execTld (f : V3) (m : Mods) (s : State) : Res := tileLoad .global false f m s
/-- TLD.ver (spec 11 R231). -/
def execTldVer (f : V3) (m : Mods) (s : State) : Res := tileLoad .global true f m s
/-- TST (spec 11 R230). -/
def execTst (f : V3) (m : Mods) (s : State) : Res := tileStore .global false f m s
/-- TST.whole (spec 11 R230). -/
def execTstWhole (f : V3) (m : Mods) (s : State) : Res := tileStore .global true f m s
/-- RLD (spec 11 R232). -/
def execRld (f : V3) (m : Mods) (s : State) : Res := raggedOp .global false f m s
/-- RST (spec 11 R232). -/
def execRst (f : V3) (m : Mods) (s : State) : Res := raggedOp .global true f m s
/-- TLD.scr (spec 11 R229). -/
def execTldScr (f : V3) (m : Mods) (s : State) : Res := tileLoad .scratch false f m s
/-- TLD.ver.scr (spec 11 R231). -/
def execTldVerScr (f : V3) (m : Mods) (s : State) : Res := tileLoad .scratch true f m s
/-- TST.scr (spec 11 R230). -/
def execTstScr (f : V3) (m : Mods) (s : State) : Res := tileStore .scratch false f m s
/-- TST.whole.scr (spec 11 R230). -/
def execTstWholeScr (f : V3) (m : Mods) (s : State) : Res := tileStore .scratch true f m s
/-- RLD.scr (spec 11 R232). -/
def execRldScr (f : V3) (m : Mods) (s : State) : Res := raggedOp .scratch false f m s
/-- RST.scr (spec 11 R232). -/
def execRstScr (f : V3) (m : Mods) (s : State) : Res := raggedOp .scratch true f m s

/-! ## Atomics (spec 11 R234, R235) -/

/-- The new value of a location of `w` bits and the flags raised (spec 11 Table 11-3): old value `x`, operand `b`, compare
value `k`. -/
def atomNew (w : Nat) (op : AtomOp) (peer x b k : Nat) : Nat × FlagBits :=
  let sg (v : Nat) : Int := (BitVec.ofNat w v).toInt
  match op with
  | .add => ((x + b) % 2 ^ w, 0)
  | .minS => (if sg b < sg x then b else x, 0)
  | .maxS => (if sg x < sg b then b else x, 0)
  | .minN => (min x b, 0)
  | .maxN => (max x b, 0)
  | .and => (Nat.land x b, 0)
  | .or => (Nat.lor x b, 0)
  | .xor => (Nat.xor x b, 0)
  | .exch => (b, 0)
  | .cas => (if x == k then b else x, 0)
  | .fadd => fpAdd (if w == 32 then fmt32 else fmt64) .rne peer x b

/-- Whether an atomic writes: a compare that fails performs no write (spec 11 R235). -/
def atomWrites (op : AtomOp) (x k : Nat) : Bool := op != .cas || x == k

/-- One atomic on the bytes at a lane's keys: the old value and the flags. A peer's location holds the answer of its home,
where the write has been performed. -/
def State.atomAt (s : State) (who : Nat × Nat × Nat) (grid : Option Nat) (op : PeerAtomic) (ks : List (Nat × Bool)) :
    State × Nat × FlagBits :=
  let w := if op.wide then 64 else 32
  let x := s.keysNat ks
  let r := atomNew w op.op s.peerNo x op.operand.toNat op.cmp.toNat
  let away := ks.any fun k => s.isPeerKey k.1
  (if away || !atomWrites op.op x op.cmp.toNat then s else s.storeCells who grid (cellsOf ks r.1), x, r.2)

/-- The type as which an atomic reads its operands (spec 05 R99, 11 R234). -/
def atomTy (op : AtomOp) (wide : Bool) : Ty := if wide then (if op == .fadd then .f64 else .b64) else .b32

/-- ATOM in a space. -/
def atomInst (sp : Space) (wide : Bool) (op : AtomOp) (f : V3) (m : Mods) (s : State) : Res :=
  withInst s fun c =>
    let G := s.instGrp c
    let t := atomTy op wide
    let pa (l : Nat) : PeerAtomic :=
      ⟨op, wide, src G m l f.b t, if op == .cas then src G m l f.d t else 0⟩
    let n := if wide then 8 else 4
    let out (x : Nat) (fl : FlagBits) : LaneOut :=
      if op == .cas then { pushes := [BitVec.ofNat 64 x] }
      else if wide then out64 f.d (BitVec.ofNat 64 x) fl else out32 f.d (BitVec.ofNat 32 x) fl
    memInst c m (activeOf s c f.g.toNat (guardNeg m))
      { req := fun l => elemReq sp (.atomic (pa l)) n n n (baseAddr G m f.a l)
        pushes := 1
        zero := fun _ => out 0 0
        helper := .discarded
        perform := fun l ks s =>
          let r := s.atomAt (unitOf c l) (s.gridOpt c.team) (pa l) ks
          (r.1, out r.2.1 r.2.2)
        release := sysRelease m } s

/-- ATOM.add.b32 (spec 11 R234). -/
def execAtomAddB32 (f : V3) (m : Mods) (s : State) : Res := atomInst .global false .add f m s
/-- ATOM.add.b64 (spec 11 R234). -/
def execAtomAddB64 (f : V3) (m : Mods) (s : State) : Res := atomInst .global true .add f m s
/-- ATOM.add.b32.scr (spec 11 R234). -/
def execAtomAddB32Scr (f : V3) (m : Mods) (s : State) : Res := atomInst .scratch false .add f m s
/-- ATOM.add.b64.scr (spec 11 R234). -/
def execAtomAddB64Scr (f : V3) (m : Mods) (s : State) : Res := atomInst .scratch true .add f m s
/-- ATOM.min.s.b32 (spec 11 R234). -/
def execAtomMinSB32 (f : V3) (m : Mods) (s : State) : Res := atomInst .global false .minS f m s
/-- ATOM.min.s.b64 (spec 11 R234). -/
def execAtomMinSB64 (f : V3) (m : Mods) (s : State) : Res := atomInst .global true .minS f m s
/-- ATOM.min.s.b32.scr (spec 11 R234). -/
def execAtomMinSB32Scr (f : V3) (m : Mods) (s : State) : Res := atomInst .scratch false .minS f m s
/-- ATOM.min.s.b64.scr (spec 11 R234). -/
def execAtomMinSB64Scr (f : V3) (m : Mods) (s : State) : Res := atomInst .scratch true .minS f m s
/-- ATOM.max.s.b32 (spec 11 R234). -/
def execAtomMaxSB32 (f : V3) (m : Mods) (s : State) : Res := atomInst .global false .maxS f m s
/-- ATOM.max.s.b64 (spec 11 R234). -/
def execAtomMaxSB64 (f : V3) (m : Mods) (s : State) : Res := atomInst .global true .maxS f m s
/-- ATOM.max.s.b32.scr (spec 11 R234). -/
def execAtomMaxSB32Scr (f : V3) (m : Mods) (s : State) : Res := atomInst .scratch false .maxS f m s
/-- ATOM.max.s.b64.scr (spec 11 R234). -/
def execAtomMaxSB64Scr (f : V3) (m : Mods) (s : State) : Res := atomInst .scratch true .maxS f m s
/-- ATOM.min.n.b32 (spec 11 R234). -/
def execAtomMinNB32 (f : V3) (m : Mods) (s : State) : Res := atomInst .global false .minN f m s
/-- ATOM.min.n.b64 (spec 11 R234). -/
def execAtomMinNB64 (f : V3) (m : Mods) (s : State) : Res := atomInst .global true .minN f m s
/-- ATOM.min.n.b32.scr (spec 11 R234). -/
def execAtomMinNB32Scr (f : V3) (m : Mods) (s : State) : Res := atomInst .scratch false .minN f m s
/-- ATOM.min.n.b64.scr (spec 11 R234). -/
def execAtomMinNB64Scr (f : V3) (m : Mods) (s : State) : Res := atomInst .scratch true .minN f m s
/-- ATOM.max.n.b32 (spec 11 R234). -/
def execAtomMaxNB32 (f : V3) (m : Mods) (s : State) : Res := atomInst .global false .maxN f m s
/-- ATOM.max.n.b64 (spec 11 R234). -/
def execAtomMaxNB64 (f : V3) (m : Mods) (s : State) : Res := atomInst .global true .maxN f m s
/-- ATOM.max.n.b32.scr (spec 11 R234). -/
def execAtomMaxNB32Scr (f : V3) (m : Mods) (s : State) : Res := atomInst .scratch false .maxN f m s
/-- ATOM.max.n.b64.scr (spec 11 R234). -/
def execAtomMaxNB64Scr (f : V3) (m : Mods) (s : State) : Res := atomInst .scratch true .maxN f m s
/-- ATOM.and.b32 (spec 11 R234). -/
def execAtomAndB32 (f : V3) (m : Mods) (s : State) : Res := atomInst .global false .and f m s
/-- ATOM.and.b64 (spec 11 R234). -/
def execAtomAndB64 (f : V3) (m : Mods) (s : State) : Res := atomInst .global true .and f m s
/-- ATOM.and.b32.scr (spec 11 R234). -/
def execAtomAndB32Scr (f : V3) (m : Mods) (s : State) : Res := atomInst .scratch false .and f m s
/-- ATOM.and.b64.scr (spec 11 R234). -/
def execAtomAndB64Scr (f : V3) (m : Mods) (s : State) : Res := atomInst .scratch true .and f m s
/-- ATOM.or.b32 (spec 11 R234). -/
def execAtomOrB32 (f : V3) (m : Mods) (s : State) : Res := atomInst .global false .or f m s
/-- ATOM.or.b64 (spec 11 R234). -/
def execAtomOrB64 (f : V3) (m : Mods) (s : State) : Res := atomInst .global true .or f m s
/-- ATOM.or.b32.scr (spec 11 R234). -/
def execAtomOrB32Scr (f : V3) (m : Mods) (s : State) : Res := atomInst .scratch false .or f m s
/-- ATOM.or.b64.scr (spec 11 R234). -/
def execAtomOrB64Scr (f : V3) (m : Mods) (s : State) : Res := atomInst .scratch true .or f m s
/-- ATOM.xor.b32 (spec 11 R234). -/
def execAtomXorB32 (f : V3) (m : Mods) (s : State) : Res := atomInst .global false .xor f m s
/-- ATOM.xor.b64 (spec 11 R234). -/
def execAtomXorB64 (f : V3) (m : Mods) (s : State) : Res := atomInst .global true .xor f m s
/-- ATOM.xor.b32.scr (spec 11 R234). -/
def execAtomXorB32Scr (f : V3) (m : Mods) (s : State) : Res := atomInst .scratch false .xor f m s
/-- ATOM.xor.b64.scr (spec 11 R234). -/
def execAtomXorB64Scr (f : V3) (m : Mods) (s : State) : Res := atomInst .scratch true .xor f m s
/-- ATOM.exch.b32 (spec 11 R234). -/
def execAtomExchB32 (f : V3) (m : Mods) (s : State) : Res := atomInst .global false .exch f m s
/-- ATOM.exch.b64 (spec 11 R234). -/
def execAtomExchB64 (f : V3) (m : Mods) (s : State) : Res := atomInst .global true .exch f m s
/-- ATOM.exch.b32.scr (spec 11 R234). -/
def execAtomExchB32Scr (f : V3) (m : Mods) (s : State) : Res := atomInst .scratch false .exch f m s
/-- ATOM.exch.b64.scr (spec 11 R234). -/
def execAtomExchB64Scr (f : V3) (m : Mods) (s : State) : Res := atomInst .scratch true .exch f m s
/-- ATOM.cas.b32 (spec 11 R234). -/
def execAtomCasB32 (f : V3) (m : Mods) (s : State) : Res := atomInst .global false .cas f m s
/-- ATOM.cas.b64 (spec 11 R234). -/
def execAtomCasB64 (f : V3) (m : Mods) (s : State) : Res := atomInst .global true .cas f m s
/-- ATOM.cas.b32.scr (spec 11 R234). -/
def execAtomCasB32Scr (f : V3) (m : Mods) (s : State) : Res := atomInst .scratch false .cas f m s
/-- ATOM.cas.b64.scr (spec 11 R234). -/
def execAtomCasB64Scr (f : V3) (m : Mods) (s : State) : Res := atomInst .scratch true .cas f m s
/-- ATOM.fadd.f32 (spec 11 R234). -/
def execAtomFaddF32 (f : V3) (m : Mods) (s : State) : Res := atomInst .global false .fadd f m s
/-- ATOM.fadd.f64 (spec 11 R234). -/
def execAtomFaddF64 (f : V3) (m : Mods) (s : State) : Res := atomInst .global true .fadd f m s
/-- ATOM.fadd.f32.scr (spec 11 R234). -/
def execAtomFaddF32Scr (f : V3) (m : Mods) (s : State) : Res := atomInst .scratch false .fadd f m s
/-- ATOM.fadd.f64.scr (spec 11 R234). -/
def execAtomFaddF64Scr (f : V3) (m : Mods) (s : State) : Res := atomInst .scratch true .fadd f m s

/-! ## Scatter contributions (spec 11 R238, 15 R326) -/

/-- The overflow registers of a context. -/
def State.scatArea (s : State) (ctx : Nat) : ScatOv :=
  (s.eng.scatOv.find? fun a => a.ctx == ctx).getD { ctx := ctx }

/-- Q, the contributions that a slice may hold for a context. -/
def State.scatQuota (s : State) (ctx : Nat) : Nat := 4096 * (s.scatArea ctx).size.toNat / (32 * 256)

/-- The slice that homes the word at a key. -/
def scatSlice (k : Nat) : Nat := (Config.homeSlice (k / 128)).toNat

/-- Contributions that a slice holds for a context. -/
def State.scatHeld (s : State) (ctx slice : Nat) : Nat :=
  (s.eng.scatter.filter fun x => x.ctx == ctx && scatSlice x.pa == slice).length

/-- Whether new contributions at keys would carry the slice of key `k` above the quota. -/
def State.scatOver (s : State) (ctx : Nat) (new : List Nat) (k : Nat) : Bool :=
  decide (s.scatQuota ctx < s.scatHeld ctx (scatSlice k) + (new.filter fun x => scatSlice x == scatSlice k).length)

/-- SCOVUSED kept: the largest number of contributions one slice has held. -/
def State.scatUsed (s : State) (ctx : Nat) (slices : List Nat) : State :=
  let a := s.scatArea ctx
  let top := slices.foldl (fun n k => max n (s.scatHeld ctx k)) a.used.toNat
  { s with eng := { s.eng with scatOv := { a with used := BitVec.ofNat 32 top } :: s.eng.scatOv.filter fun x => x.ctx != ctx } }

/-- A contribution held. -/
def State.addContribution (s : State) (x : Contribution) : State :=
  { s with eng := { s.eng with scatter := s.eng.scatter ++ [{ x with seq := s.eng.scatSeq }], scatSeq := s.eng.scatSeq + 1 } }

/-- SCATADD.f32. (DEDUCED, log 42; DEDUCED, log 52.) -/
def execScataddF32 (f : V3) (m : Mods) (s : State) : Res :=
  withInst s fun c =>
    let G := s.instGrp c
    let T := s.team c.team
    let ctx := s.ctxOf c.team
    let addr (l : Nat) : W64 := baseAddr G m f.a l
    let lid (l : Nat) : Nat := s.lid c.team c.group l
    let key (l : Nat) : W32 := if f.b == 0b111111 then BitVec.ofNat 32 (lid l) else src32 G m l f.b
    let word (ks : List (Nat × Bool)) : Nat := ((ks.map (·.1)).headD 0)
    memInst c m (activeOf s c f.g.toNat (guardNeg m))
      { req := fun l => elemReq .global .scatter 4 4 4 (addr l)
        pushes := 0
        zero := fun _ => {}
        helper := .discarded
        perform := fun l ks s =>
          (s.addContribution ⟨ctx, word ks, addr l, key l, BitVec.ofNat 64 (lid l), 0,
            (src G m l f.d .b32).extractLsb' 0 32, T.grid, T.core, c.team, c.group⟩, {})
        after := fun xs s => s.scatUsed ctx (xs.map fun x => scatSlice (word x.2)).eraseDups
        late := fun xs =>
          let new := (xs.filter fun x => x.2.pages.isEmpty).map fun x => (x.1, word x.2.keys)
          (new.filter fun x => s.scatOver ctx (new.map (·.2)) x.2).map fun x =>
            (x.1, ⟨801, 15, 0, scatSlice x.2, addr x.1⟩)
        plain := true } s

/-! ## Bulk prefetch (spec 11 R239, 10 R216) -/

/-- Lines that hold a byte of a range. -/
def lineCount (a n : Nat) : Nat := if n = 0 then 0 else (a + n - 1) / 128 - a / 128 + 1

/-- The token slots that are free. -/
def Group.freeTokens (G : Group) : List Nat := (List.range 32).filter fun i => !(G.tokens.getD i {}).busy

/-- The slot that a token-form prefetch takes among the free ones: the manual names none. (DESIGN CHOICE, log 40.) -/
def State.pickToken (s : State) (free : List Nat) : Nat :=
  free.getD ((Config.unstated s.sched.freeCtr).toNat % max 1 free.length) (free.headD 0)

/-- A prefetch begun. -/
def State.addPrefetch (s : State) (p : Prefetch) : State :=
  { s with eng := { s.eng with prefetches := s.eng.prefetches ++ [p] } }

/-- A number for a new prefetch. -/
def State.prefetchId (s : State) : Nat := s.eng.prefetches.foldl (fun n p => max n (p.id + 1)) 0

/-- Whether a range starts or ends beyond the address space (spec 11 R239, 10 R196). -/
def rangeBad (a : W64) (n : Nat) : Bool := decide (2 ^ 57 ≤ a.toNat) || decide (2 ^ 57 < a.toNat + n)

/-- The trap of a range that passes 2^57 (spec 11 R239). -/
def rangeTrap (a : W64) (n e : Nat) : Option TrapInfo :=
  if rangeBad a n then some (trapAddr 7 e 1 0 a (laneMask fun i => i == e)) else none

/-- BPREF: the token form. -/
def execBpref (f : V3) (m : Mods) (s : State) : Res :=
  withInst s fun c =>
    let G := s.instGrp c
    let act := activeOf s c f.g.toNat (guardNeg m)
    let push (v : W32) (s' : State) : Res := finishSeq c m 0 s (s'.commitLanes c act 0 1 fun _ => out32 f.d v)
    match electLane G act with
    | none => finishSeq c m 0 s (s.commitLanes c act 0 1 fun _ => zeroPushes 1)
    | some e =>
      let a := baseAddr G m f.a e
      let n := (src32 G m e f.b).toNat
      match rangeTrap a n e with
      | some x => trapRes s c m x
      | none =>
        match G.freeTokens with
        | [] => stallRes s c
        | free =>
          let slot := s.pickToken free
          let gen := (G.tokens.getD slot {}).gen + 1
          let lines := lineCount a.toNat n
          let s1 := s.tick.modGroup c.team c.group fun G =>
            -- the slot keeps the count of its last prefetch until the new one ends
            { G with tokens := modNth G.tokens slot fun T =>
                { gen := gen, busy := lines != 0, skipped := if lines == 0 then 0 else T.skipped } }
          let s2 := if lines == 0 then s1 else s1.addPrefetch
            { id := s1.prefetchId, team := c.team, group := c.group, ctx := s1.ctxOf c.team, next := a.toNat / 128
              left := lines, token := some slot, bo := none }
          push (gen ++ BitVec.ofNat 5 slot) s2

/-- BPREF.bo: the barrier-object form; the object's offset stands in D. -/
def execBprefBo (f : V3) (m : Mods) (s : State) : Res :=
  withInst s fun c =>
    let G := s.instGrp c
    let act := activeOf s c f.g.toNat (guardNeg m)
    match electLane G act with
    | none => finishSeq c m 0 s s
    | some e =>
      let a := baseAddr G m f.a e
      let n := (src32 G m e f.b).toNat
      let off := (src32 G m e f.d).zeroExtend 64
      let lines := lineCount a.toNat n
      memInst c m (laneMask fun l => l == e)
        { req := fun _ =>
            { segs := [⟨.scratch, off, 8, .write, false⟩], rep := off, kind := 1
              own := misaligned off 8 1 ++ (if rangeBad a n then [⟨201, 7, 1, 0, a⟩] else []) }
          pushes := 0
          zero := fun _ => {}
          helper := .discarded
          perform := fun _ _ s => (if lines == 0 then s else s.addPrefetch
            { id := s.prefetchId, team := c.team, group := c.group, ctx := s.ctxOf c.team, next := a.toNat / 128
              left := lines, token := none, bo := some off.toNat }, {})
          plain := true } s

/-! ## Shape-record invalidation (spec 11 R240) -/

/-- Entries of the issuing core dropped. -/
def State.dropShapes (s : State) (c : Inst) (hit : ShapeEntry → Bool) : State :=
  let core := (s.team c.team).core
  { s with mm := { s.mm with shapes := s.mm.shapes.filter fun e => !(e.core == core && hit e) } }

/-- SHINV. -/
def execShinv (f : V3) (m : Mods) (s : State) : Res :=
  withInst s fun c =>
    let G := s.instGrp c
    let named := (maskLanes (activeOf s c f.g.toNat (guardNeg m))).map fun l => (src G m l f.a .b64).toNat
    finishSeq c m 0 s (s.dropShapes c fun e => named.contains e.addr)

/-- SHINV.all. -/
def execShinvAll (f : V3) (m : Mods) (s : State) : Res :=
  withInst s fun c =>
    let act := activeOf s c f.g.toNat (guardNeg m)
    finishSeq c m 0 s (if act == 0 then s else s.dropShapes c fun _ => true)

end Sys2Proof.Machine
end

