-- ==== Sys2Proof/Machine/Matrix.lean ====
section
/-! DEFINITION. The matrix instructions, major 0x30: submitting forms, MWAIT, MCOMPRESS and the max-magnitude registers (spec 14). -/

namespace Sys2Proof.Machine

/-! ## What the submitting forms share (spec 14 R283-R287) -/

/-- A trap on a group-uniform operand of a matrix instruction: the tile in AUX (spec 20 Table 20-3, R401). -/
def tileTrap (c : Inst) (cause e reason tile : Nat) (d1 d2 : W32) : TrapInfo :=
  trapOf cause e reason (tile * 2 ^ 16) d1 d2 c.mask

/-- Every lane of `act` parks on what the lane that was checked misses; the other lanes of the instance issue again. -/
def parkAll (c : Inst) (act : LaneMask) (x : LaneAcc) (s : State) : Res :=
  .next ((s.parkLanes c ((maskLanes act).map fun l => (l, x)) []).stall { c with mask := c.mask &&& ~~~act })

/-- Bytes of the team's SCRATCH banks. -/
def State.scratchBytes (s : State) (t : Nat) : Nat := 32768 * (s.team t).scratchBanks.length

/-- A block of `n` bytes at a scratchpad offset, read by the issuing lane `e`. (DEDUCED, log 55.) -/
def withBlock (c : Inst) (m : Mods) (act : LaneMask) (e : Nat) (off : W32) (n : Nat) (s : State) (k : List Byte → Res) : Res :=
  let rep : W64 := off.zeroExtend 64
  let x := s.checkLane c e { segs := [⟨.scratch, rep, n, .read, false⟩], rep := rep }
  match x.first with
  | some q => memTrap s c m (trapAddr q.cause e q.reason q.aux q.addr (laneMask fun l => l == e))
  | none => if !x.lines.isEmpty then parkAll c act x s else k (s.rd (scratchKey c.team off.toNat) n)

/-- The tag a tile will hold when the next accepted operation starts (spec 13 R268, 14 R293): accepted MMA, MZERO and MLOAD
operations leave it at their form. -/
def Tile.nextTag (T : Tile) : Bool :=
  match T.ops.reverse.find? fun o => o.kind == .mma || o.kind == .mzero || o.kind == .mload with
  | some o => o.form
  | none => T.int

/-- How many accepted operations the engine that holds a tile has not ended (spec 14 R284). -/
def State.engineLoad (s : State) (t i : Nat) : Nat :=
  let core := (s.team t).core
  let e := (s.tile t i).engine
  s.teams.foldl (fun n T =>
    if T.core == core && T.status == .running then T.tiles.foldl (fun n x => if x.engine == e then n + x.ops.length else n) n else n) 0

/-- The checks that end every submitting form, then acceptance: an undelivered failure on the tile traps (R285), a full engine
makes the form wait (R284); `first` performs what acceptance writes. -/
def acceptOp (c : Inst) (m : Mods) (i : Nat) (o : TileOp) (first : State → State) (s : State) : Res :=
  if decide (8 ≤ s.engineLoad c.team i) then stallRes s c
  else
    finishSeq c m 0 s ((first s).modTile c.team i fun T => { T with ops := T.ops ++ [o], taken := T.taken + 1 })

/-- An undelivered failure on a tile is delivered here (spec 14 R285). -/
def deliverOr (c : Inst) (m : Mods) (e i : Nat) (s : State) (k : Res) : Res :=
  match (s.tile c.team i).fails with
  | f :: _ =>
    memTrap (s.modTile c.team i fun T => { T with fails := T.fails.drop 1 }) c m (tileTrap c f.cause e f.reason i f.aux1 f.off)
  | [] => k

/-- A cause 14 trap. -/
def trap14 (c : Inst) (m : Mods) (e reason tile : Nat) (d1 d2 : W32) (s : State) : Res :=
  memTrap s c m (tileTrap c 14 e reason tile d1 d2)

/-- A checklist: the reason of the first condition that holds. -/
def firstReason (cs : List (Nat × Bool)) : Option Nat := (cs.find? fun x => x.2).map (·.1)

/-- Whether a source field is bad for a team: SPACE 3, a bit that must be zero, or a RANK at or above m. -/
def State.sourceBad (s : State) (t : Nat) (w : Nat) : Bool :=
  let x := parseSource (BitVec.ofNat 64 w)
  x.bad || x.space == 3 || (x.space == 2 && decide ((s.kernelOf t).setSize ≤ x.rank))

/-- Whether bytes from `off` to the end of a block are all zero. -/
def zeroFrom (bs : List Byte) (off : Nat) : Bool := (bs.drop off).all fun b => b == 0

/-- Whether M or N of a DIMS word is out of range. (DEDUCED, log 59.) -/
def dimsBad (w : Nat) : Bool :=
  dimM w == 0 || decide (64 < dimM w) || dimN w == 0 || decide (64 < dimN w)

/-- Whether a header word has the magic number and version 1 of a block. -/
def headerBad (w magic : Nat) : Bool := bitsOf w 16 16 != magic || bitsOf w 8 8 != 1 || bitsOf w 0 8 != 0

/-- Whether a layout is missing, has another format than `fmt`, or its tiles may not start at `addr`. -/
def layoutBad (y : Option Layout) (fmt addr : Nat) : Bool :=
  match y with
  | none => true
  | some y => y.fmt != fmt || addr % y.align != 0

/-! ## MMA (spec 13 R268, 14 R288-R290) -/

/-- Checks 2 to 10 of Table 13-4. (DEDUCED, log 56; DEDUCED, log 57.) -/
def State.checkMma (s : State) (t : Nat) (bs : List Byte) (fw : W32) (form : Bool) : Option Nat :=
  let f (off len : Nat) : Nat := fieldAt bs off len
  let pctl := f 4 4
  let zero := bitsOf pctl 7 1 == 1
  let rag := bitsOf pctl 2 2
  let tile := bitsOf pctl 4 3
  let K := f 12 4
  let prog := f 0x4C 4
  let next := prog % 2 ^ 24
  let fa := bitsOf fw.toNat 0 8
  let fb := bitsOf fw.toNat 8 8
  let ya := parseLayout (BitVec.ofNat 32 (f 0x20 4))
  let yb := parseLayout (BitVec.ofNat 32 (f 0x24 4))
  let t1 (y : Option Layout) : Bool := match y with
    | some y => y.t
    | none => false
  firstReason
    [(2, headerBad (f 0 4) 0x4D42 || pctl / 256 != 0 || pctl % 2 == 1 || f 8 4 / 2 ^ 14 != 0 ||
        bitsOf (f 0x10 8) 57 2 != 0 || bitsOf (f 0x18 8) 57 2 != 0 || bitsOf (f 0x38 8) 57 7 != 0 || prog / 2 ^ 24 != 0 ||
        bitsOf (f 0x50 4) 24 8 != 0 || bitsOf (f 0x50 4) 2 14 != 0 || !zeroFrom bs 0x54),
     (3, dimsBad (f 8 4) || K == 0 || decide (2 ^ 24 < K) || rag == 3 || s.sourceBad t (f 0x10 8) || s.sourceBad t (f 0x18 8)),
     (4, decide ((s.kernelOf t).acc ≤ tile)),
     (5, layoutBad ya fa (f 0x10 8 % 2 ^ 57) || layoutBad yb fb (f 0x18 8 % 2 ^ 57)),
     (6, (!zero || next != 0) && (s.tile t tile).nextTag != form),
     (7, decide (ceilDiv K 32 < next)),
     (8, ((isMx fa || isMx fb) && K % 32 != 0) || (isMx fa && (t1 ya || f 0x28 8 == 0)) ||
        (isMx fb && (!t1 yb || f 0x30 8 == 0))),
     (9, bitsOf pctl 1 1 == 1 && (!([5, 6, 0x10, 0x14].contains fa) || K % 8 != 0 || decide (64 < dimM (f 8 4) * K / 8))),
     (10, (rag != 0 && f 0x38 8 == 0) || (rag == 2 && form))]

/-- The first malformed metadata field of a sparse operation of `d` fields, in lane order: lane, group, field; with the lanes
that hold one (spec 14 R290). -/
def badMeta (G : Group) (m : Mods) (sel : BitVec 6) (act : LaneMask) (d : Nat) : Option (Nat × Nat × Nat × LaneMask) :=
  let field (g : Nat) : Nat :=
    if act.getLsbD (g / 2) then bitsOf (src32 G m (g / 2) sel).toNat (12 * (g % 2)) 12 else 0xFFFF
  let wrong (g : Nat) : Bool :=
    let x := field g
    let i (t : Nat) : Nat := bitsOf x (3 * t) 3
    !act.getLsbD (g / 2) || !(decide (i 0 < i 1) && decide (i 1 < i 2) && decide (i 2 < i 3))
  let bad := (List.range d).filter wrong
  match bad with
  | [] => none
  | g :: _ => some (g / 2, g, field g, laneMask fun l => bad.any fun h => h / 2 == l)

/-- The shape record that a block names, fetched by the issuing lane (Table 14-2 step 8); `k` goes on with its bytes. -/
def withShape (c : Inst) (m : Mods) (act : LaneMask) (e : Nat) (ra : W64) (s : State) (k : List Byte → State → Res) : Res :=
  let s := s.dropStale c [(e, ra)]
  let rf := s.recordFor c e ra 0
  let x := s.checkLane c e { pre := rf.pre, look := rf.look, own := rf.own, rep := ra }
  if !x.busy.isEmpty then stallRes (s.recallLines x.busy) c
  else match x.first with
  | some q =>
    if q.ord == ordVersion && decide (triesOf (s.instGrp c) c.mask + 1 < maxTries) then .next (s.tryAgain c)
    else memTrap s c m (trapAddr q.cause e q.reason q.aux q.addr (if q.ord < 200 then c.mask else laneMask fun l => l == e))
  | none =>
    if !x.pages.isEmpty then parkAll c act x s
    else
      let r := s.reachPre c e true x
      match r.2, rf.got with
      | true, some (_, _, bs) => k bs ((r.1.useRecords c [(ra, rf)]).clearAnswers c.owns)
      | _, _ => stallRes r.1 c

/-- MMA from its parameter block on: Table 14-2 step 6. -/
def mmaBlock (c : Inst) (m : Mods) (f : V4) (act : LaneMask) (e : Nat) (pb fw : W32) (form : Bool) (s : State)
    (bs : List Byte) : Res :=
  let pctl := fieldAt bs 4 4
  let tile := bitsOf pctl 4 3
  match s.checkMma c.team bs fw form with
  | some r => trap14 c m e r tile (if r == 5 then fw else 0) pb s
  | none =>
    deliverOr c m e tile s <|
      let G := s.instGrp c
      let sparse := bitsOf pctl 1 1 == 1
      let rest (shape : List Byte) (s : State) : Res :=
        match (if sparse then badMeta G m f.c act (dimM (fieldAt bs 8 4) * fieldAt bs 12 4 / 8) else none) with
        | some (l, g, x, mask) => memTrap s c m (trapOf 10 l 1 g (BitVec.ofNat 32 x) pb (mask &&& c.mask))
        | none =>
          let o : TileOp :=
            { kind := .mma, group := c.group, off := pb.toNat, block := bs, fmtWord := fw,
              metas := if sparse then (List.range 32).map fun l => src32 G m l f.c else [],
              next := fieldAt bs 0x4C 4, form := form, shape := shape }
          acceptOp c m tile o (fun s => s.blockWrite c.team (pb.toNat + 0x50) [0, 0, 0, 0]) s
      if bitsOf pctl 2 2 == 0 then rest [] s
      else withShape c m act e (BitVec.ofNat 64 (fieldAt bs 0x38 8)) s rest

/-- MMA with its issuing lane: Table 14-2 steps 4 to 11. -/
def mmaIssue (c : Inst) (m : Mods) (f : V4) (act : LaneMask) (e : Nat) (s : State) : Res :=
  let G := s.instGrp c
  let fw := src32 G m e f.b
  let pb := src32 G m e f.a
  let agree := laneMask fun l => act.getLsbD l && src32 G m l f.b == fw
  if (maskLanes (act &&& ~~~agree)).any fun l => !(G.lane l).helper then
    memTrap s c m { cause := 4, d0 := act, d1 := agree, d2 := fw, mask := c.mask }
  else
    match formatPair fw with
    | none => trap14 c m e 11 0 fw pb s
    | some form =>
      if pb.toNat % 128 != 0 || decide (s.scratchBytes c.team < pb.toNat + 128) then trap14 c m e 1 0 0 pb s
      else withBlock c m act e pb 128 s (mmaBlock c m f act e pb fw form s)

/-- MMA (spec 14 R288). -/
def execMma (f : V4) (m : Mods) (s : State) : Res :=
  withInst s fun c =>
    let G := s.instGrp c
    let act := activeOf s c f.g.toNat (guardNeg m)
    if act == 0 then finishSeq c m 0 s s
    else if (xopOf m).getLsbD 0 then
      let n := (immOf m).toNat % 32
      -- a helper lane is none to issue, whether or not it is in Active() (steps 2 and 3 of Table 14-2)
      if (G.lane n).helper then finishSeq c m 0 s s
      else if !act.getLsbD n then
        (if (electLane G act).isNone then finishSeq c m 0 s s else trap14 c m n 12 0 0 0 s)
      else mmaIssue c m f act n s
    else
      match electLane G act with
      | none => finishSeq c m 0 s s
      | some e => mmaIssue c m f act e s

/-! ## MZERO, MLOAD, MDRAIN, MUPD (spec 14 R291-R294) -/

/-- A submitting form other than MMA: its elected lane and its tile, which must be allotted. -/
def tileForm (f : V4) (m : Mods) (off : Group → Nat → W32) (s : State)
    (k : Inst → LaneMask → Nat → Nat → Res) : Res :=
  withInst s fun c =>
    let G := s.instGrp c
    let act := activeOf s c f.g.toNat (guardNeg m)
    let i := f.c.toNat / 8
    match electLane G act with
    | none => finishSeq c m 0 s s
    | some e =>
      if decide ((s.instKernel c).acc ≤ i) then trap14 c m e 4 i 0 (off G e) s else k c act e i

/-- MZERO (spec 14 R291). -/
def execMzero (f : V4) (m : Mods) (s : State) : Res :=
  tileForm f m (fun _ _ => 0) s fun c _ e i =>
    let fm := src32 (s.instGrp c) m e f.b
    if fm.toNat / 2 != 0 then trap14 c m e 15 i 0 0 s
    else deliverOr c m e i s <|
      acceptOp c m i { kind := .mzero, group := c.group, off := 0, block := [], form := fm.getLsbD 0 } id s

/-- MLOAD (spec 14 R292). -/
def execMload (f : V4) (m : Mods) (s : State) : Res :=
  tileForm f m (fun _ _ => 0) s fun c _ e i =>
    let G := s.instGrp c
    let fm := src32 G m e f.b
    let w := src G m e f.a .b64
    let x := parseSource w
    let room : Nat := if x.space == 1 then s.scratchBytes c.team else 32768 * ceilDiv (s.instKernel c).scratch 32768
    if fm.toNat / 2 != 0 then trap14 c m e 15 i 0 0 s
    else if s.sourceBad c.team w.toNat then trap14 c m e 3 i 0 0 s
    else if x.addr % 128 != 0 then memTrap s c m (trapAddr 8 e 4 0 w c.mask)
    else if x.space != 0 && decide (room < x.addr + 32768) then memTrap s c m (trapAddr 7 e 2 0 w c.mask)
    else deliverOr c m e i s <|
      acceptOp c m i { kind := .mload, group := c.group, off := 0, block := leBytes 8 w.toNat, form := fm.getLsbD 0 } id s

/-- Checks 5 to 10 of R293. -/
def State.checkDrain (s : State) (t i : Nat) (bs : List Byte) : Option Nat :=
  let f (off len : Nat) : Nat := fieldAt bs off len
  let dctl := f 4 4
  let fmt := bitsOf dctl 0 8
  let rm := bitsOf dctl 12 3
  let y := parseLayout (BitVec.ofNat 32 (f 0x18 4))
  let tag := (s.tile t i).nextTag
  let space (off : Nat) : Nat := bitsOf (f off 8) 62 2
  firstReason
    [(2, headerBad (f 0 4) 0x4442 || bitsOf dctl 11 1 == 1 || f 8 4 / 2 ^ 14 != 0 || f 0x1C 4 != 0 || !zeroFrom bs 0x28 ||
        bitsOf (f 0x10 8) 57 2 != 0 || bitsOf (f 0x20 8) 57 2 != 0),
     (14, bitsOf dctl 8 3 != i),
     (3, dimsBad (f 8 4) || s.sourceBad t (f 0x10 8) || s.sourceBad t (f 0x20 8)),
     (5, layoutBad y fmt (f 0x10 8 % 2 ^ 57)),
     (13, !((if tag then [0x12, 0x10] else [2, 4, 5, 6, 8, 9, 10]).contains fmt) ||
        (isMx fmt && (dimN (f 8 4) % 32 != 0 || bitsOf (f 0x18 4) 31 1 == 1 || f 0x20 8 == 0)) ||
        space 0x10 == 2 || space 0x20 == 2 || decide (4 < rm) || (tag && rm != 0)),
     (2, f 12 4 / 32 != 0)]

/-- MDRAIN (spec 14 R293). -/
def execMdrain (f : V4) (m : Mods) (s : State) : Res :=
  tileForm f m (fun G e => src32 G m e f.a) s fun c act e i =>
    let db := src32 (s.instGrp c) m e f.a
    if db.toNat % 64 != 0 || decide (s.scratchBytes c.team < db.toNat + 64) then trap14 c m e 1 i 0 db s
    else withBlock c m act e db 64 s fun bs =>
      match s.checkDrain c.team i bs with
      | some r => trap14 c m e r i 0 db s
      | none => deliverOr c m e i s <|
          acceptOp c m i { kind := .mdrain, group := c.group, off := db.toNat, block := bs } id s

/-- Checks 5 to 9 of R294. -/
def State.checkUpd (s : State) (t i : Nat) (bs : List Byte) : Option Nat :=
  let f (off len : Nat) : Nat := fieldAt bs off len
  let N := dimN (f 8 4)
  let P := f 12 4
  firstReason
    [(2, headerBad (f 0 4) 0x5542 || f 4 4 / 2 ^ 11 != 0 || bitsOf (f 4 4) 0 8 != 0 || f 8 4 / 2 ^ 14 != 0 ||
        bitsOf (f 0x68 4) 16 14 != 0 || !zeroFrom bs 0x6C),
     (14, bitsOf (f 4 4) 8 3 != i),
     (3, dimsBad (f 8 4) || N % 32 != 0 || decide (P < N) || P % 32 != 0 ||
        ((List.range 6).any fun k => bitsOf (f (0x10 + 8 * k) 8) 57 7 != 0) ||
        f 0x10 8 % 4 != 0 || f 0x38 8 % 2 != 0 || f 0x18 8 % 32 != 0),
     (6, (s.tile t i).nextTag)]

/-- MUPD (spec 14 R294). -/
def execMupd (f : V4) (m : Mods) (s : State) : Res :=
  tileForm f m (fun G e => src32 G m e f.a) s fun c act e i =>
    let ub := src32 (s.instGrp c) m e f.a
    if ub.toNat % 128 != 0 || decide (s.scratchBytes c.team < ub.toNat + 128) then trap14 c m e 1 i 0 ub s
    else withBlock c m act e ub 128 s fun bs =>
      match s.checkUpd c.team i bs with
      | some r => trap14 c m e r i 0 ub s
      | none => deliverOr c m e i s <|
          acceptOp c m i { kind := .mupd, group := c.group, off := ub.toNat, block := bs }
            (fun s => s.blockWrite c.team (ub.toNat + 0x68) [0, 0, 0, 0]) s

/-! ## MWAIT (spec 14 R295) -/

/-- Whether every operation that lanes of a team wait for has ended. -/
def State.targetsMet (s : State) (t : Nat) (ts : List (Nat × Nat × Nat)) : Bool := !ts.any (s.opPending t)

/-- The operations that a lane waits for: those counted when it first issued, else those counted now. -/
def Lane.waits (L : Lane) (now : List (Nat × Nat × Nat)) : List (Nat × Nat × Nat) := (L.waitFor.map (·.2)).getD now

/-- The lanes of an instance wait for the operations counted when they first issued (`drains`: the drains of their core); then `k`. -/
def waitTiles (c : Inst) (act : LaneMask) (drains : Bool) (now : List (Nat × Nat × Nat)) (k : Res) (s : State) : Res :=
  let G := s.instGrp c
  let want (l : Nat) : List (Nat × Nat × Nat) := (G.lane l).waits now
  let unmet := laneMask fun l => act.getLsbD l && !s.targetsMet c.team (want l)
  if unmet == 0 then k
  else
    let s := s.modGroup c.team c.group fun G =>
      G.mapLanes fun l L => if act.getLsbD l then { L with waitFor := some (drains, want l) } else L
    .next ((s.park c.team c.group unmet { id := 0, tiles := ((maskLanes unmet).flatMap want).eraseDups }).stall
      { c with mask := c.mask &&& ~~~unmet })

/-- Every lane of Active() pushes a value, the others zero. -/
def pushSame (c : Inst) (m : Mods) (act : LaneMask) (v : W64) (s s1 : State) : Res :=
  finishSeq c m 0 s (s1.commitLanes c act 0 1 fun _ => { pushes := [v] })

/-- The tile status word. -/
def Tile.statusWord (T : Tile) : W64 := BitVec.ofNat 64 ((if T.int then 256 else 0) + T.flags.toNat)

/-- MWAIT. With helper lanes alone, what would trap pushes zero (spec 07 R143). (DEDUCED, log 58.) -/
def execMwait (f : V4) (m : Mods) (s : State) : Res :=
  withInst s fun c =>
    let act := activeOf s c f.g.toNat (guardNeg m)
    let i := f.c.toNat / 8
    let push (s : State) : Res := pushSame c m act (s.tile c.team i).statusWord s s
    let wait (k : Res) : Res := waitTiles c act false [(c.team, i, (s.tile c.team i).taken)] k s
    if act == 0 then pushSame c m act 0 s s
    else
      match electLane (s.instGrp c) act with
      | some e =>
        if decide ((s.instKernel c).acc ≤ i) then trap14 c m e 4 i 0 0 s
        else wait (deliverOr c m e i s (push s))
      | none =>
        if decide ((s.instKernel c).acc ≤ i) then pushSame c m act 0 s s
        else wait (if (s.tile c.team i).fails.isEmpty then push s else pushSame c m act 0 s s)

/-! ## MCOMPRESS (spec 14 R297-R299) -/

/-- The rank of a source element by magnitude (R298). -/
def pruneRank (fmt x : Nat) : Nat :=
  if fmt == 0x10 then (if decide (128 ≤ x) then 256 - x else x)
  else if fmt == 0x14 then x
  -- E4M3: NaN is 0x7F; E5M2: infinity is 0x7C and every NaN lies above it
  else if fmt == 6 then min (x % 128) 0x7D
  else x % 128

/-- The columns of a dense group that are kept, ascending. -/
def keptOf (fmt : Nat) (xs : List Nat) : List Nat :=
  (List.range 8).filter fun c =>
    decide (((List.range 8).filter fun d =>
      decide (pruneRank fmt (xs.getD c 0) < pruneRank fmt (xs.getD d 0)) ||
      (pruneRank fmt (xs.getD c 0) == pruneRank fmt (xs.getD d 0) && decide (d < c))).length < 4)

/-- The metadata field of kept columns. -/
def keptField (ks : List Nat) : Nat := (indexed ks).foldl (fun v x => v + x.2 * 2 ^ (3 * x.1)) 0

/-- The dense groups of a lane that exist: (parity, row, h). -/
def groupsOf (y : Layout) (row0 l : Nat) : List (Nat × Nat × Nat) :=
  ([0, 1].map fun p => (p, row0 + (2 * l + p) / (y.C / 8), (2 * l + p) % (y.C / 8))).filter fun g => decide (g.2.1 < y.R)

/-- The space and address of a source field as segments form them. -/
def sourceSeg (x : Source) : Space × W64 :=
  if x.space == 0 then (.global, BitVec.ofNat 64 x.addr)
  else if x.space == 1 then (.scratch, BitVec.ofNat 64 x.addr)
  else (.cluster, BitVec.ofNat 64 (x.rank * 2 ^ 32 + x.addr))

/-- The checks of Table R297 in order: the trap of the first that fails, else the two layouts. -/
def State.checkCompress (s : State) (c : Inst) (e : Nat) (dst ctl srcA : W64) : TrapInfo ⊕ (Layout × Layout) :=
  let xs := parseSource srcA
  let xd := parseSource dst
  let at_ (cause reason kind : Nat) (a : W64) : TrapInfo ⊕ (Layout × Layout) :=
    .inl (trapAddr cause e reason (kindAux kind) a c.mask)
  match parseLayout (ctl.extractLsb' 0 32) with
  | none => at_ 8 1 0 srcA
  | some y =>
    let row0 := bitsOf ctl.toNat 32 16
    if bitsOf ctl.toNat 48 16 != 0 || !([5, 6, 0x10, 0x14].contains y.fmt) || y.t || decide (y.logc < 3) || decide (y.R ≤ row0) then
      .inl (trapOf 10 e 2 0 0 0 c.mask)
    else if xs.bad || xs.space == 3 then at_ 7 1 0 srcA
    else if xd.bad || xd.space == 3 then at_ 7 1 1 dst
    else if xs.space == 2 && decide ((s.kernelOf c.team).setSize ≤ xs.rank) then at_ 7 3 0 srcA
    else if xd.space == 2 then at_ 7 4 1 dst
    else
      let d : Layout := { y with logc := y.logc - 1 }
      if xs.addr % y.align != 0 then at_ 8 2 0 srcA
      else if xd.addr % d.align != 0 then at_ 8 2 1 dst
      else .inr (y, d)

/-- Byte offsets of the elements of rows of eight (or four) columns of a lane's groups. -/
def groupBytes (y : Layout) (n : Nat) (gs : List (Nat × Nat × Nat)) : List Nat :=
  sortBy (fun a b => decide (a < b)) (gs.flatMap fun g => (List.range n).map fun k => y.index g.2.1 (n * g.2.2 + k))

/-- What a lane keeps of its groups, for source elements given by byte offset: the pushed value, and the bytes written by
destination offset. -/
def compressLane (y d : Layout) (gs : List (Nat × Nat × Nat)) (x : Nat → Byte) : LaneOut × List (Nat × Byte) :=
  let per (g : Nat × Nat × Nat) : List Nat := (List.range 8).map fun k => (x (y.index g.2.1 (8 * g.2.2 + k))).toNat
  let kept (g : Nat × Nat × Nat) : List Nat := keptOf y.fmt (per g)
  ({ pushes := [BitVec.ofNat 64 (gs.foldl (fun v g => v + keptField (kept g) * 2 ^ (12 * g.1)) 0)] },
    gs.flatMap fun g => (indexed (kept g)).map fun k =>
      (d.index g.2.1 (4 * g.2.2 + k.1), BitVec.ofNat 8 ((per g).getD k.2 0)))

/-- MCOMPRESS as a memory instruction of its lanes. -/
def compressInst (c : Inst) (m : Mods) (act : LaneMask) (y d : Layout) (row0 : Nat) (srcA dst : W64) (s : State) : Res :=
  let G := s.instGrp c
  let sp := sourceSeg (parseSource srcA)
  let dp := sourceSeg (parseSource dst)
  let gs (l : Nat) : List (Nat × Nat × Nat) := groupsOf y row0 l
  let reads (l : Nat) : List Seg := runSegs sp.1 sp.2 .read (groupBytes y 8 (gs l))
  let offs (l : Nat) : List Nat := if (G.lane l).helper then [] else groupBytes d 4 (gs l)
  let rep (l : Nat) : W64 := match gs l with
    | g :: _ => sp.2 + BitVec.ofNat 64 (y.index g.2.1 (8 * g.2.2))
    | [] => srcA
  let req (l : Nat) : LaneReq := { pre := reads l, segs := runSegs dp.1 dp.2 .write (offs l), rep := rep l, kind := 0 }
  let found (l : Nat) : List (Nat × Bool) := (s.checkLane c l (req l)).pre
  memInst c m act
    { req := req
      pushes := 1
      zero := fun l => (compressLane y d (gs l) fun _ => 0).1
      helper := .reads
      fresh := true
      perform := fun l ks s =>
        let bytes := (found l).map fun k => memRead s.mem k.1
        let tab := (groupBytes y 8 (gs l)).zip bytes
        let r := compressLane y d (gs l) fun o => assocGet tab o 0
        let cells := ((offs l).zip ks).map fun x => (x.2.1, x.2.2, assocGet r.2 x.1 (0 : Byte))
        (s.storeCells (unitOf c l) (s.gridOpt c.team) cells, r.1) } s

/-- MCOMPRESS. -/
def execMcompress (f : V4) (m : Mods) (s : State) : Res :=
  withInst s fun c =>
    let G := s.instGrp c
    let act := activeOf s c f.g.toNat (guardNeg m)
    match electLane G act with
    | none => pushSame c m act 0 s s
    | some e =>
      let dst := src G m e f.a .b64
      let ctl := src G m e f.b .b64
      let srcA := src G m e f.c .b64
      match s.checkCompress c e dst ctl srcA with
      | .inl x => memTrap s c m x
      | .inr (y, d) => compressInst c m act y d (bitsOf ctl.toNat 32 16) srcA dst s

/-! ## The AMAX registers (spec 14 R300, R301) -/

/-- The AMAX register a C field names. -/
def amaxOf (f : V4) : Nat := f.c.toNat / 4

/-- The drains on a core that name an AMAX register, as operations to wait for. -/
def State.amaxDrains (s : State) (core n : Nat) : List (Nat × Nat × Nat) :=
  (indexed s.teams).flatMap fun T =>
    if T.2.core == core && T.2.status == .running then
      (indexed T.2.tiles).filterMap fun x =>
        let hits := (indexed x.2.ops).filter fun o =>
          o.2.kind == .mdrain && bitsOf (o.2.f 12 4) 4 1 == 1 && o.2.f 12 4 % 16 == n
        hits.getLast?.map fun o => (T.1, x.1, x.2.ended + o.1 + 1)
    else []

/-- AMAXRD. -/
def execAmaxrd (f : V4) (m : Mods) (s : State) : Res :=
  withInst s fun c =>
    let act := activeOf s c f.g.toNat (guardNeg m)
    pushSame c m act (BitVec.ofNat 64 (s.amax (s.team c.team).core (amaxOf f))) s s

/-- AMAXRD.sync. -/
def execAmaxrdSync (f : V4) (m : Mods) (s : State) : Res :=
  withInst s fun c =>
    let act := activeOf s c f.g.toNat (guardNeg m)
    let core := (s.team c.team).core
    waitTiles c act true (s.amaxDrains core (amaxOf f))
      (pushSame c m act (BitVec.ofNat 64 (s.amax core (amaxOf f))) s s) s

/-- AMAXCLR. -/
def execAmaxclr (f : V4) (m : Mods) (s : State) : Res :=
  withInst s fun c =>
    let act := activeOf s c f.g.toNat (guardNeg m)
    let core := (s.team c.team).core
    let v : W64 := BitVec.ofNat 64 (s.amax core (amaxOf f))
    if act == 0 then pushSame c m act 0 s s
    else pushSame c m act v s (s.setAmax core (amaxOf f) 0)

end Sys2Proof.Machine
end

