-- ==== Sys2Proof/Machine/Sync.lean ====
section
/-! DEFINITION. Fences, barriers, barrier objects, prefetch tokens, KICK, SCATFLUSH, GLAUNCH and SRAMMODE: major 0x31
(spec 19 R384-R397). -/

namespace Sys2Proof.Machine

/-- C[12:10] of an E-format word: a scope or a barrier number (spec 19 Table 19-1). -/
def scopeOf (f : V4) : Nat := f.c.toNat / 8
/-- The code of the system scope (spec 05 Table 5-8). -/
def scopeSys : Nat := 5

/-! ## FENCE (spec 19 R389) -/

/-- FENCE: in a machine that performs one access at a time it orders nothing more; a release at system scope waits for the
writes on their way to other packages. -/
def execFence (f : V4) (m : Mods) (s : State) : Res :=
  withInst s fun c =>
    let act := activeOf s c f.g.toNat (guardNeg m)
    let kind := f.c.toNat % 8
    let release := kind == 0 || kind == 2 || kind == 3
    if act != 0 && release && scopeOf f == scopeSys && s.teamPending c.team then stallRes s c else finishSeq c m 0 s s

/-! ## Team and cluster barriers (spec 19 R390) -/

/-- Arrival at a barrier: the lanes of Active() wait, the others go on. -/
def barrier (cluster : Bool) (f : V4) (m : Mods) (s : State) : Res :=
  withInst s fun c =>
    let act := activeOf s c f.g.toNat (guardNeg m)
    let (now, s1) := s.lookTime
    let s2 := s1.modGroup c.team c.group fun G => G.mapLanes fun l L =>
      if act.getLsbD l then
        { L with status := .barrier cluster (scopeOf f) now.toNat, resume := afterUnit c.pc m, stall := none, bad := [] }
      else L
    finishWait c m act s (s2.checkBarriers c.team)

/-- BARTEAM. -/
def execBarteam (f : V4) (m : Mods) (s : State) : Res := barrier false f m s
/-- BARCLU. -/
def execBarclu (f : V4) (m : Mods) (s : State) : Res := barrier true f m s

/-! ## Scratchpad structures (spec 19 R386) -/

/-- What an instruction asks of a structure of `n` bytes, aligned to `n`, at a scratchpad offset: alignment, range, the mode of
its bank, absent lines. A bank that a team has put in FIFO mode has left SCRATCH mode. -/
def structReq (s : State) (t : Nat) (off : W32) (n : Nat) (acc : Acc) : LaneReq :=
  let rep : W64 := off.zeroExtend 64
  let own : List Cond := misaligned rep n acc.kind
  let seg : Seg := ⟨.scratch, rep, n, acc, false⟩
  let open_ : LaneReq := { segs := [seg], rep := rep, kind := acc.kind, own := own }
  match (s.team t).scratchBanks[off.toNat / 32768]? with
  | some b =>
    if b.mode == .fifo then { open_ with segs := [], own := own ++ [⟨404, 7, 5, kindAux acc.kind, rep⟩] } else open_
  | none => open_

/-! ## Barrier objects (spec 19 R391, R392) -/

/-- BOINIT: the elected lane writes the count. -/
def execBoinit (f : V4) (m : Mods) (s : State) : Res :=
  withInst s fun c =>
    let G := s.instGrp c
    match electLane G (activeOf s c f.g.toNat (guardNeg m)) with
    | none => finishSeq c m 0 s s
    | some e =>
      memInst c m (laneMask fun l => l == e)
        { req := fun l => structReq s c.team (src32 G m l f.a) 8 .write
          pushes := 0
          zero := fun _ => {}
          helper := .discarded
          perform := fun l ks s =>
            (s.storeCells (unitOf c l) (s.gridOpt c.team) (cellsOf ks (src G m l f.b .s64).toNat), {}) } s

/-- The atomic by which BOARR adds. -/
def boAdd (v : W64) : PeerAtomic := ⟨.add, true, v, 0⟩

/-- BOARR: each lane adds to its object and pushes the old count. -/
def execBoarr (f : V4) (m : Mods) (s : State) : Res :=
  withInst s fun c =>
    let G := s.instGrp c
    let add (l : Nat) : PeerAtomic := boAdd (src G m l f.b .s64)
    memInst c m (activeOf s c f.g.toNat (guardNeg m))
      { req := fun l => structReq s c.team (src32 G m l f.a) 8 (.atomic (add l))
        pushes := 1
        zero := fun _ => zeroPushes 1
        helper := .discarded
        perform := fun l ks s =>
          let r := s.atomAt (unitOf c l) (s.gridOpt c.team) (add l) ks
          (r.1, { pushes := [BitVec.ofNat 64 r.2.1] }) } s

/-- BOWAIT: a lane whose object holds a count at or below zero retires and pushes it; any other waits. -/
def execBowait (f : V4) (m : Mods) (s : State) : Res :=
  withInst s fun c =>
    let G := s.instGrp c
    let off (l : Nat) : W32 := src32 G m l f.a
    let (now, s1) := s.lookTime
    let since (L : Lane) : Nat := match L.status with
      | .boWait _ t => t
      | _ => now.toNat
    -- lanes that come back from their wait run again; those that must go on waiting keep the time of their arrival
    let s1 := s1.modGroup c.team c.group fun G => G.mapLanes fun l L =>
      if c.mask.getLsbD l then { L with status := .run } else L
    memInst c m (activeOf s c f.g.toNat (guardNeg m))
      { req := fun l => structReq s c.team (off l) 8 .read
        pushes := 1
        zero := fun _ => zeroPushes 1
        helper := .reads
        perform := fun _ ks s => (s, { pushes := [BitVec.ofNat 64 (s.keysNat ks)] })
        holds := fun ks s => decide (0 < (BitVec.ofNat 64 (s.keysNat ks)).toInt)
        wait := fun w s => s.modGroup c.team c.group fun G' => G'.mapLanes fun l L =>
          if w.getLsbD l then { L with
            status := .boWait (off l).toNat (since (G.lane l)), resume := afterUnit c.pc m, stall := none } else L } s1

/-! ## TOKWAIT (spec 19 R393, 10 R216) -/

/-- TOKWAIT: waits at issue until the prefetch of each lane's handle has ended; pushes the lines skipped. -/
def execTokwait (f : V4) (m : Mods) (s : State) : Res :=
  withInst s fun c =>
    let G := s.instGrp c
    let act := activeOf s c f.g.toNat (guardNeg m)
    let h (l : Nat) : W32 := src32 G m l f.a
    let slotOf (l : Nat) : Token := G.tokens.getD ((h l).toNat % 32) {}
    let busy := (maskLanes act).any fun l => (slotOf l).busy && (slotOf l).gen == (h l).extractLsb' 5 27
    if busy then stallRes s c
    else finishSeq c m 0 s (s.commitLanes c act 0 1 fun l => { pushes := [(slotOf l).skipped.zeroExtend 64] })

/-! ## KICK (spec 19 R394, 17 R353) -/

/-- KICK. -/
def execKick (f : V4) (m : Mods) (s : State) : Res :=
  withInst s fun c =>
    let G := s.instGrp c
    let act := activeOf s c f.g.toNat (guardNeg m)
    match electLane G act with
    | none => finishSeq c m 0 s s
    | some e =>
      let off := src32 G m e f.a
      let x := s.checkLane c e (structReq s c.team off 64 .read)
      match x.first with
      | some q => memTrap s c m (trapAddr q.cause e q.reason q.aux q.addr (laneMask fun l => l == e))
      | none =>
        if !x.lines.isEmpty then parkAll c act x s
        else
          let T := s.team c.team
          let bare : Card :=
            { bytes := s.rd (scratchKey c.team off.toNat) 64, core := T.core, team := c.team, grid := T.grid
              ctx := s.ctxOf c.team, nitem := 0 }
          let C := { bare with nitem := bare.items }
          if s.cardBad c.team C then memTrap s c m (trapOf 13 e 16 0 0 off c.mask)
          else if decide (64 ≤ s.coreCards T.core) then stallRes s c
          else finishSeq c m 0 s (s.acceptCard C)

/-! ## SCATFLUSH (spec 19 R395, 15 R327, R328) -/

/-- Whether a scope of the instance's lanes includes a contributor (spec 18 Table 18-1): each includes what the smaller ones do, the
own team wherever it has contributed from. (DEDUCED, log 173.) -/
def State.scopeCovers (s : State) (c : Inst) (scope : Nat) (x : Contribution) : Bool :=
  let core := (s.team c.team).core
  if scope == 1 then x.team == c.team && x.group == c.group
  else if scope == 2 then x.team == c.team
  else if scope == 3 then x.team == c.team || x.core / 8 == core / 8
  else if scope == 4 then x.team == c.team || x.core / 64 == core / 64
  else true

/-- The order of R238: key, then logical identifier, then the order in which they were sent. -/
def Contribution.before (x y : Contribution) : Bool :=
  decide (x.key.toNat < y.key.toNat) ||
    (x.key == y.key && (decide (x.lid.toNat < y.lid.toNat) || (x.lid == y.lid && decide (x.seq < y.seq))))

/-- The flush of one word: the value in memory and the contributions in order (spec 15 R327). -/
def flushWord (peer v : Nat) (cs : List Nat) : Nat × FlagBits :=
  let terms := (v :: cs).map fmt32.value
  let both := (terms.any fun t => t.isInf && !t.neg) && (terms.any fun t => t.isInf && t.neg)
  if both || terms.any (·.isNan) then
    nanResult fmt32 terms (if both then [genFrac fmt32 3 peer] else []) (if both then flIV else 0)
  else
    cs.foldl (fun acc x =>
      let r := fpAdd fmt32 .rne peer acc.1 x
      (r.1, acc.2 ||| r.2)) (v, 0)

/-- One word flushed: the sum written, or, at a poisoned word, its contributions dropped and reported. -/
def State.flushKey (s : State) (grid : Nat) (covered : List Contribution) (k : Nat) : State :=
  let cs := sortBy Contribution.before (covered.filter fun x => x.pa == k)
  match cs with
  | [] => s
  | x :: _ =>
    if s.poisoned k 4 then s.errorEntry grid 5 x.va
    else
      let r := flushWord s.peerNo (s.rdNat k 4) (cs.map fun x => x.val.toNat)
      (s.wr k (leBytes 4 r.1)).gridFlags grid r.2

/-- SCATFLUSH: every held contribution of a contributor within the scope is flushed, word by word. (DEDUCED, log 53.) -/
def execScatflush (f : V4) (m : Mods) (s : State) : Res :=
  withInst s fun c =>
    let act := activeOf s c f.g.toNat (guardNeg m)
    match electLane (s.instGrp c) act with
    | none => finishSeq c m 0 s s
    | some _ =>
      let covered := s.eng.scatter.filter fun x => s.scopeCovers c (scopeOf f) x
      let words := sortBy (fun a b => decide (a < b)) (covered.map (·.pa)).eraseDups
      let held := words.filter fun k => s.dirBlocks (k / 128) true
      if !held.isEmpty then .next ((held.foldl (fun s k => s.recallLine (k / 128)) s).stall c)
      else if scopeOf f == scopeSys && s.teamPending c.team then stallRes s c
      else
        let s1 := { s with eng := { s.eng with scatter := s.eng.scatter.filter fun x => !s.scopeCovers c (scopeOf f) x } }
        let grid := (s.team c.team).grid
        finishSeq c m 0 s (words.foldl (fun s k => s.flushKey grid covered k) s1)

/-! ## GLAUNCH (spec 19 R396, 03 R67, R68) -/

/-- A launch queue. -/
def State.queue (s : State) (q : Nat) : Queue := s.cp.queues.getD q {}
def State.modQueue (s : State) (q : Nat) (f : Queue → Queue) : State :=
  { s with cp := { s.cp with queues := modNth s.cp.queues q f } }
/-- QCTL.EN. -/
def Queue.en (Q : Queue) : Bool := Q.qctl.getLsbD 31
/-- QCTL.CTX. -/
def Queue.ctx (Q : Queue) : Nat := bitsOf Q.qctl.toNat 16 8
/-- The launches that a ring holds. -/
def Queue.count (Q : Queue) : Nat := ringCount Q.qwrite.toNat Q.qread.toNat Q.qsize.toNat
/-- The address of slot `i` of a ring. -/
def Queue.slotAt (Q : Queue) (i : Nat) : Nat := (Q.qbase.toNat % 2 ^ 57) / 128 * 128 + 128 * i

/-- The hub as it writes slots for the GLAUNCHes of team `t`. -/
def State.slotUnit (s : State) (t : Nat) : Unit := { who := (t, slotWriterNo, 0), grid := (s.team t).grid, ctx := s.ctxOf t }

/-- A slot that is to be written, as the hub reaches it: on the host by bus address, else under the queue's context. -/
def State.hubRange (s : State) (w : Unit) (Q : Queue) (a n : Nat) (t : EngTouch) : EngAcc :=
  if Q.qbase.getLsbD 63 then (if s.hub.hostDown then .bad .fabric else .ok s [(hostKey a, n, true)])
  else s.engGlobal w a n t

/-- A packet written to the slot at QWRITE, by the hub for a team, and QWRITE advanced. A write that is on its way to another package when
the GLAUNCH retires is one of its grid's stores (spec 18 R383, 21 R416, R418). (DESIGN CHOICE, log 172.) -/
def State.placePacket (s : State) (w : Unit) (q : Nat) (ps : List (Nat × Nat × Bool)) (bs : List Byte) : State :=
  let keys := pieceKeys ps
  let a := (s.queue q).slotAt (s.queue q).qwrite.toNat
  let tag := s.fab.nextTag
  let s := (s.engDone w).storeCells w.who (some w.grid) ((keys.zip bs).map fun x => (x.1.1, x.1.2, x.2))
  let s := s.nameRequests tag ((indexed keys).map fun x => (x.2.1, a + x.1))
  s.modQueue q fun Q => { Q with qwrite := BitVec.ofNat 32 ((Q.qwrite.toNat + 1) % max 1 Q.qsize.toNat) }

/-- The packet of a GLAUNCH goes to queue `q`: the outcomes of Table 19-3. (DESIGN CHOICE, log 141; DEDUCED, log 142.) -/
def glaunchPlace (c : Inst) (m : Mods) (act : LaneMask) (q : Nat) (bs : List Byte) (s0 s : State) : Res :=
  let Q := s.queue q
  let push (v : Nat) (s : State) : Res :=
    finishSeq c m 0 s0 (s.commitLanes c act 0 1 fun _ => { pushes := [BitVec.ofNat 64 v] })
  if !Q.en || Q.ctx != s.ctxOf c.team then push 2 s
  else if Q.qsize == 0 || decide (Q.qsize.toNat - 1 ≤ Q.count) then push 1 s
  else
    let slot := Q.qwrite.toNat
    let w := s.slotUnit c.team
    -- nothing is stored in a slot that cannot be written: the command processor will find it as it stands
    let lost : State := if s.unitFailed w.who then s else s.errorEntry w.grid 1 (BitVec.ofNat 64 (Q.slotAt slot))
    match s.hubRange w Q (Q.slotAt slot) 128 .write with
    | .wait s' => stallRes s' c
    | .pages ps => stallRes (ps.foldl (fun s p => s.ensureFault Q.ctx p (s.faultKind Q.ctx p 1) 0xFF) s) c
    | .bad _ => push (slot * 65536) (lost.placePacket w q [] [])
    | .ok s' ps => push (slot * 65536) (s'.placePacket w q ps bs)

/-- GLAUNCH. -/
def execGlaunch (f : V4) (m : Mods) (s : State) : Res :=
  withInst s fun c =>
    let G := s.instGrp c
    let act := activeOf s c f.g.toNat (guardNeg m)
    match electLane G act with
    | none => finishSeq c m 0 s (s.commitLanes c act 0 1 fun _ => zeroPushes 1)
    | some e =>
      let pk := src G m e f.a .b64
      let x := parseSource pk
      let qn := (src32 G m e f.b).toNat
      let me := laneMask fun l => l == e
      if x.bad || decide (1 < x.space) || x.rank != 0 || qn / 64 != 0 then trap14 c m e 3 0 0 0 s
      else if x.addr % 128 != 0 then memTrap s c m (trapAddr 8 e 4 0 pk me)
      else
        let rq : LaneReq :=
          if x.space == 1 then structReq s c.team (BitVec.ofNat 32 x.addr) 128 .read
          else { segs := [⟨.global, BitVec.ofNat 64 x.addr, 128, .read, false⟩], rep := pk }
        let y := s.checkLane c e rq
        if !y.busy.isEmpty then stallRes (s.recallLines y.busy) c
        else match y.first with
        | some q => memTrap s c m (trapAddr q.cause e q.reason q.aux (if q.cause == 21 then q.addr else pk) me)
        | none =>
          if !y.pages.isEmpty || !y.lines.isEmpty then parkAll c act y s
          else
            let r := s.reachAll (unitOf c e) (s.gridOpt c.team) .read (keyRuns y.keys)
            if !r.2 then stallRes r.1 c
            else
              let s1 := r.1.noteLeaves c [(e, y)]
              let s1 := y.keys.foldl (fun s k => if s.isPeerKey k.1 then s.useAnswer (unitOf c e) false k.1 else s) s1
              let bs := y.keys.map fun k => memRead s1.mem k.1
              glaunchPlace c m act qn bs s (s1.clearAnswers fun w => w == unitOf c e)

/-! ## SRAMMODE (spec 19 R397, 10 R199) -/

/-- Banks of a core (spec 04 R87, 10 R197). -/
def coreBanks : Nat := 48

/-- Banks of a core in CACHE mode: those allotted to no team, and those a team has put there. -/
def State.cacheBanks (s : State) (core : Nat) : Nat :=
  s.teams.foldl (fun n T =>
    if T.core == core && T.status == .running then n - (T.banks.filter fun b => b.mode != .cache).length else n) coreBanks

/-- A bank mode's code. -/
def modeCode : BankMode → Nat
  | .cache => 0
  | .scratch => 1
  | .fifo => 2
  | .off => 3

/-- A bank mode of a code. -/
def modeOf (n : Nat) : BankMode := if n = 0 then .cache else if n = 1 then .scratch else if n = 2 then .fifo else .off

/-- Every byte of bank `b` of a team's SCRATCH list lost: it reads as zero, and every line is present. -/
def State.clearBank (s : State) (t b : Nat) : State :=
  let lo := scratchKey t (b * 32768)
  let inBank (k : Nat) : Bool := decide (lo ≤ k) && decide (k < lo + 32768)
  let s := State.curePoison { s with mem := s.mem.filter fun c => !inBank c.1 } fun l => inBank (l * 128)
  s.modTeam t fun T => { T with absent := T.absent.filter fun l => l / 256 != b }

/-- Bank `b` of a team's SCRATCH list changes its mode (spec 10 Table 10-2). -/
def State.setBankMode (s : State) (t b : Nat) (md : BankMode) : State :=
  let i := (s.team t).bankIndex b
  let s := s.clearBank t b
  (s.modTeam t fun T => { T with banks := modNth T.banks i fun B => { B with mode := md, head := 0, tail := 0 } }).wakeParks

/-- Whether a card that has not ended has a region in bank `b` of a team's SCRATCH list. -/
def State.bankBusy (s : State) (t b : Nat) : Bool :=
  s.eng.cards.any fun C => !C.ended && (s.cardRegions C.team C).any fun r =>
    r.dom == 256 + t && sameByte r.start r.len (b * 32768) 32768

/-- SRAMMODE. (DESIGN CHOICE, log 143.) -/
def execSrammode (f : V4) (m : Mods) (s : State) : Res :=
  withInst s fun c =>
    let G := s.instGrp c
    let act := activeOf s c f.g.toNat (guardNeg m)
    match electLane G act with
    | none => finishSeq c m 0 s (s.commitLanes c act 0 1 fun _ => zeroPushes 1)
    | some e =>
      let bk := (src32 G m e f.a).toNat
      let md := (src32 G m e f.b).toNat
      let T := s.team c.team
      let push (old status : Nat) (s' : State) : Res :=
        finishSeq c m 0 s (s'.commitLanes c act 0 1 fun _ => { pushes := [BitVec.ofNat 64 (old * 256 + status)] })
      if s.bankBusy c.team bk then stallRes s c
      else
        match T.banks[bk]? with
        | none =>
          -- no such bank: the manual states no value for its mode
          let old := (Config.unstated s.sched.freeCtr).toNat % 256
          push old (if decide (3 < md) then 4 else 1) s.tick
        | some B =>
          let old := modeCode B.mode
          if decide (3 < md) then push old 4 s
          else if B.tape then push old 3 s
          else if B.mode == .cache && md != 0 && decide (s.cacheBanks T.core < 5) then push old 2 s
          else if md == old then push old 0 s
          else push old 0 (s.setBankMode c.team bk (modeOf md))

end Sys2Proof.Machine
end

