-- ==== Sys2Proof/Machine/Placer.lean ====
section
/-! DEFINITION. The placer: seeded and map placement, allotments, dispatch and re-placement of teams, re-keys (spec 04 R78-R89). -/

namespace Sys2Proof.Machine

/-! ## Drawing a placement (spec 04 R81-R83) -/

/-- Two entries of a list swapped. -/
def swapAt (xs : List Nat) (i j : Nat) : List Nat :=
  let a := xs.getD i 0
  let b := xs.getD j 0
  modNth (modNth xs i fun _ => b) j fun _ => a

/-- Perm(L, n, q, e) (spec 04 R81). -/
def permOf (seed : W64) (xs : List Nat) (q e : Nat) : List Nat :=
  let n := xs.length
  (List.range (n - 1)).foldl (fun p i =>
    let d := (pg64 seed (BitVec.ofNat 64 (e * 2 ^ 40 + q * 256 + i))).toNat
    swapAt p i (i + bitsOf d 32 32 * (n - i) / 2 ^ 32)) xs

/-- The clusters that hold at least `m` allowed cores, in ascending order (spec 04 R83). -/
def clustersOf (allowed : List Nat) (m : Nat) : List Nat :=
  (List.range 32).filter fun k => decide (m ≤ (allowed.filter fun c => c / 8 == k).length)

/-- The core of rank `k` of set `s` in a cluster (spec 04 R83). -/
def coreInCluster (allowed : List Nat) (cl k s m : Nat) : Nat :=
  let cs := allowed.filter fun c => c / 8 == cl
  cs.getD ((k + s * m) % max 1 cs.length) 0

/-- The core of team `t` in seeded mode, for an epoch that began with team `u` (spec 04 R82, R83). -/
def seededCore (seed : W64) (allowed : List Nat) (e u m t : Nat) : Nat :=
  if m ≤ 1 then
    let n := max 1 allowed.length
    (permOf seed allowed ((t - u) / n) e).getD ((t - u) % n) 0
  else
    let cl := clustersOf allowed m
    let n := max 1 cl.length
    let s := t / m
    let x := s - u / m
    coreInCluster allowed ((permOf seed cl (x / n) e).getD (x % n) 0) (t % m) s m

/-- The core on which R88 re-places team `v`. -/
def replaceCore (allowed : List Nat) (m v : Nat) : Nat :=
  if m ≤ 1 then allowed.getD (v % max 1 allowed.length) 0
  else
    let cl := clustersOf allowed m
    coreInCluster allowed (cl.getD (v / m % max 1 cl.length) 0) (v % m) (v / m) m

/-! ## Allotments (spec 04 R87) -/

/-- Group slots in use on a core: a group that has ended or is switched out holds none. -/
def State.slotsUsed (s : State) (core : Nat) : Nat :=
  s.teams.foldl (fun n T => if T.core == core && T.status == .running then n + (T.groups.filter fun G => G.resident).length else n) 0

/-- Physical banks of a core that are allotted to a team. -/
def State.banksUsed (s : State) (core : Nat) : List Nat :=
  s.teams.flatMap fun T => if T.core == core && T.status == .running then T.banks.map (·.phys) else []

/-- Physical tiles of a core that are allotted to a team, as (engine, tile). -/
def State.tilesUsed (s : State) (core : Nat) : List (Nat × Nat) :=
  s.teams.flatMap fun T => if T.core == core && T.status == .running then T.tiles.map fun t => (t.engine, t.phys) else []

/-- Accumulator tiles of one matrix engine (spec 13). -/
def tilesPerEngine : Nat := 4

/-- Banks that a kernel takes. (DEDUCED, log 50.) -/
def Kernel.banks (K : Kernel) : Nat := ceilDiv K.scratch 32768 + K.tapeB

/-- Whether a switched-out group on a core waits for a slot (spec 10 R212): it takes the slot before an undispatched team. -/
def State.slotWanted (s : State) (core : Nat) : Bool :=
  (indexed s.teams).any fun x => x.2.core == core && x.2.status == .running && x.2.groups.any fun G =>
    !G.resident && !G.ended && s.groupReady x.1 G

/-- Whether a core can hold a team of a kernel. -/
def State.canHold (s : State) (core : Nat) (K : Kernel) : Bool :=
  decide (s.slotsUsed core + K.groups ≤ 16) && !s.slotWanted core &&
    decide ((s.banksUsed core).length + K.banks ≤ coreBanks) && decide (K.banks + 4 ≤ s.cacheBanks core) &&
    decide ((s.tilesUsed core).length + K.acc ≤ 2 * tilesPerEngine)

/-- Lines of a context's register backing area that groups of its dispatched teams hold: one for each named register of each group
(spec 04 R87). (DEDUCED, log 161.) -/
def State.regLines (s : State) (ctx : Nat) : Nat :=
  s.teams.foldl (fun n T =>
    let K := (s.grid T.grid).kernel
    if T.live && (s.grid T.grid).par.ctx == ctx then n + (T.groups.filter fun G => !G.ended).length * K.regs else n) 0

/-- Whether the backing area of a context, in 4 KiB units at REGSIZE, has lines for a new team of a kernel. -/
def State.regsFree (s : State) (ctx : Nat) (K : Kernel) : Bool :=
  decide (s.regLines ctx + K.groups * K.regs ≤ 32 * s.rdNat (s.ctxEntry ctx + 0x28) 4)

/-- The lowest free banks of a core. -/
def State.freeBanks (s : State) (core : Nat) : List Nat :=
  let used := s.banksUsed core
  (List.range coreBanks).filter fun b => !used.contains b

/-- Physical tiles for `n` tiles: tile `i` on engine `i mod 2`, or on the other when that one is full (spec 04 R87). -/
def pickTiles (used : List (Nat × Nat)) : Nat → Nat → List (Nat × Nat)
  | 0, _ => []
  | n + 1, i =>
    let free (e : Nat) : Option Nat := (List.range tilesPerEngine).find? fun p => !used.contains (e, p)
    let x : Nat × Nat := match free (i % 2), free (1 - i % 2) with
      | some p, _ => (i % 2, p)
      | none, some p => (1 - i % 2, p)
      | none, none => (i % 2, 0)
    x :: pickTiles (x :: used) n (i + 1)

/-- The banks of a new team: the SCRATCH banks first, then the tape banks, the lowest free ones in ascending order. -/
def State.newBanks (s : State) (core : Nat) (K : Kernel) : List Bank :=
  let n := ceilDiv K.scratch 32768
  (indexed ((s.freeBanks core).take K.banks)).map fun x =>
    if decide (x.1 < n) then { phys := x.2, mode := .scratch } else { phys := x.2, mode := .fifo, tape := true }

/-! ## New groups (spec 07 Table 7-1, 15 R306, R308) -/

/-- A lane at dispatch. -/
def newLane (K : Kernel) : Lane := { pc := BitVec.ofNat 32 K.entry }

/-- A group of a grid launch at dispatch. -/
def newGroup (G : Grid) (K : Kernel) : Group :=
  { lanes := List.replicate 32 (newLane K)
    flags := BitVec.ofNat 32 (G.par.te.toNat * 256)
    context := BitVec.ofNat 32 G.par.ctx
    pend22 := none }

/-- The pixel of a lane of a block (spec 15 R308, 07 R142). -/
def lanePixel (P : PixelBlock) (l : Nat) : Nat × Nat :=
  let q := l / 4
  (8 * P.bx + 2 * (q % 4) + l % 2, 4 * P.by_ + 2 * (q / 4) + l % 4 / 2)

/-- A pixel group at dispatch: covered lanes, helper lanes of quads with a covered lane, and lanes exited from the start; a group
beyond the last block has every lane exited. -/
def newPixelGroup (G : Grid) (K : Kernel) (P : Option PixelBlock) : Group :=
  let base := newGroup G K
  match P with
  | none => { base with lanes := List.replicate 32 { newLane K with status := .exited }, ended := true, resident := false, vgradDone := true }
  | some P =>
    { base.mapLanes (fun l L =>
        let xy := lanePixel P l
        let quad := (List.range 4).any fun i => P.cover.getLsbD (l / 4 * 4 + i)
        let L := { L with pixX := BitVec.ofNat 32 xy.1, pixY := BitVec.ofNat 32 xy.2 }
        if P.cover.getLsbD l then L else if quad then { L with helper := true } else { L with status := .exited }) with
      pixel := some P }

/-- The pixel-input block of a team (spec 15 R309). -/
def pixelInput (groups : List (Option PixelBlock)) : List Byte :=
  groups.flatMap fun P => match P with
    | some P => P.input
    | none => List.replicate 512 0

/-! ## Dispatch (spec 04 R78, R79) -/

/-- The deadline of a grid as cause group 22 reports it (spec 03 R74, 20 Table 20-3). -/
def deadlineCause (G : Grid) : AsyncCause :=
  let d := BitVec.ofNat 64 (G.par.deadline.getD 0)
  { d1 := d.extractLsb' 0 32, d2 := d.extractLsb' 32 32 }

/-- A group dispatched after its grid's deadline takes the trap at its first instruction (spec 03 R74). -/
def lateGroup (G : Grid) (g : Group) : Group :=
  if G.due && G.par.dlTrap && !g.ended then { g with pend22 := some (deadlineCause G) } else g

/-- Every tile, empty, for a team of a kernel. -/
def newTiles (s : State) (core : Nat) (K : Kernel) : List Tile :=
  (pickTiles (s.tilesUsed core) K.acc 0).map fun x => { engine := x.1, phys := x.2 }

/-- The translations a core holds are dropped when a group comes to it (spec 10 R209). (DEDUCED, log 162.) -/
def State.resetTlb (s : State) (core : Nat) : State :=
  { s with mm := { s.mm with tlb := s.mm.tlb.filter fun e => e.core != core } }

/-- Team `t` of grid `g` dispatched to a core. -/
def State.dispatchTo (s : State) (g t core : Nat) : State :=
  let G := s.grid g
  let K := G.kernel
  let (now, s) := s.lookTime
  let blocks := (List.range K.groups).map fun i => G.pixels[t * K.groups + i]?
  let groups := if G.par.card.isSome then blocks.map (newPixelGroup G K) else List.replicate K.groups (newGroup G K)
  let T : Team :=
    { grid := g, idx := t, core := core, epoch := G.place.epoch, groups := groups.map (lateGroup G)
      banks := s.newBanks core K, tiles := newTiles s core K }
  let u := s.teams.length
  let s := State.resetTlb { s with teams := s.teams ++ [T] } core
  let s := if G.par.card.isSome then s.wr (scratchKey u G.par.pioff) (pixelInput blocks) else s
  s.modGrid g fun G => { G with
    place := { G.place with next := t + 1 }
    firstDisp := match G.firstDisp with
      | none => some now.toNat
      | some x => some x }

/-- The number of teams of a grid (spec 01 R13; of a pixel launch, those of its pixel groups so far). -/
def Grid.teamCount (G : Grid) : Nat :=
  if G.par.card.isSome then ceilDiv G.pixels.length G.kernel.groups else G.par.gx * G.par.gy * G.par.gz

/-- Whether every pixel group of the next team is known (spec 15 R306). -/
def Grid.pixelsKnown (G : Grid) : Bool :=
  !G.par.card.isSome || G.walked || decide ((G.place.next + 1) * G.kernel.groups ≤ G.pixels.length)

/-- A map entry's target core, or the cluster it is resolved in (spec 04 R84, R88). -/
inductive Target where
  | core (c : Nat)
  | cluster (k : Nat)
  deriving DecidableEq, Repr

/-- Where team `t` of a grid in map mode goes (spec 04 R84, R86, R88). (DEDUCED, log 157.) -/
def mapTarget (G : Grid) (t : Nat) : Target :=
  let e := (G.par.map.getD t 0).toNat
  let tgt := e % 256
  let A := G.place.allowed
  let inCluster (k : Nat) : Target :=
    if A.any fun c => c / 8 == k then .cluster k else .core (A.getD (t % max 1 A.length) 0)
  if e / 2 ^ 15 == 1 then inCluster tgt
  else if A.contains tgt then .core tgt
  else inCluster (tgt / 8)

/-- The cores of other teams of a team's set. -/
def State.mateCores (s : State) (g t : Nat) : List Nat :=
  let m := max 1 (s.grid g).kernel.setSize
  (s.teams.filter fun T => T.grid == g && T.live && T.idx / m == t / m && T.idx != t).map (·.core)

/-- The allowed cores that the core entries of a team's set name for its later teams (spec 01 R14). -/
def Grid.namedCores (G : Grid) (t : Nat) : List Nat :=
  let m := max 1 G.kernel.setSize
  ((List.range m).map fun k => t / m * m + k).filterMap fun u =>
    if decide (u ≤ t) then none
    else match mapTarget G u with
      | .core c => some c
      | .cluster _ => none

/-- The core that a cluster entry is resolved to now: none that a team of its set has, or is to have (spec 04 R86, 01 R14).
(DEDUCED, log 160.) -/
def State.resolveCluster (s : State) (g t k : Nat) : Option Nat :=
  let G := s.grid g
  let taken := s.mateCores g t ++ G.namedCores t
  let cs := G.place.allowed.filter fun c => c / 8 == k && !taken.contains c && s.canHold c G.kernel
  match sortBy (fun a b => decide (s.slotsUsed a < s.slotsUsed b)) cs with
  | [] => none
  | c :: _ => some c

/-- The core for a team whose set stands partly dispatched in a cluster: the one R83 gives it there, or the next that no team of its
set has. -/
def joinMates (allowed mates : List Nat) (m t : Nat) : Option Nat :=
  mates.head?.bind fun c =>
    let cs := allowed.filter fun d => d / 8 == c / 8
    let i := (t % m + t / m * m) % max 1 cs.length
    (cs.drop i ++ cs.take i).find? fun d => !mates.contains d

/-- The core for the next team of a grid, if it can be held there now. (DEDUCED, log 95; DEDUCED, log 158.) -/
def State.nextCore (s : State) (g : Nat) : Option Nat :=
  let G := s.grid g
  let P := G.place
  let t := P.next
  let hold (c : Nat) : Option Nat := if s.canHold c G.kernel then some c else none
  if P.allowed.isEmpty || !s.regsFree G.par.ctx G.kernel then none
  else if G.par.mapMode then
    -- a set that stands in a cluster stays there (R14)
    let mates := s.mateCores g t
    let away (k : Nat) : Option Nat := (mates.find? fun d => d / 8 != k).map (· / 8)
    (match mapTarget G t with
      | .core c => (match away (c / 8) with
        | some k => s.resolveCluster g t k
        | none => if mates.contains c then s.resolveCluster g t (c / 8) else hold c)
      | .cluster k => s.resolveCluster g t ((away k).getD k))
  else
    let m := max 1 G.kernel.setSize
    -- the rest of a set that a re-key finds partly dispatched joins its members (R14, R88)
    let join := if P.firstU % m != 0 && t / m == P.firstU / m then joinMates P.allowed (s.mateCores g t) m t else none
    match join with
    | some c => hold c
    | none =>
      if decide (1 < m) && (clustersOf P.allowed m).isEmpty then none
      else hold (seededCore G.par.seed P.allowed P.epoch P.firstU m t)

/-! ## Re-placement and re-keys (spec 04 R88, R89) -/

/-- The first vacated team of a grid, by index. -/
def State.firstVacated (s : State) (g : Nat) : Option Nat :=
  (sortBy (fun a b => decide ((s.team a).idx < (s.team b).idx))
    ((indexed s.teams).filterMap fun x => if x.2.grid == g && x.2.status == .vacated then some x.1 else none)).head?

/-- The cycle counter of a core raised to at least `n`. -/
def State.cyclesAtLeast (s : State) (core n : Nat) : State :=
  if decide ((assocGet s.eng.cycles core 0).toNat < n) then
    { s with eng := { s.eng with cycles := assocSet s.eng.cycles core (BitVec.ofNat 64 (min n (2 ^ 64 - 1))) } }
  else s

/-- The drains that a lane waits for at an AMAXRD.sync are counted again. -/
def Lane.recount (L : Lane) : Lane := { L with waitFor := L.waitFor.filter fun x => !x.1 }

/-- Team `t` put on a core again: its banks and tiles are taken there, with their contents. A vacated team is placed anew: it has the
grid's epoch, the core's translations are reset, and its lanes at an AMAXRD.sync count the drains of the new core; its lanes never
read a lower cycle count than before; its cards with a region in the scratchpad go on there (spec 08 R166, R167, 10 R209, 14 R300,
17 R356, R363). (DEDUCED, log 82; DEDUCED, log 163.) -/
def State.replaceTo (s : State) (t core : Nat) : State :=
  let K := s.kernelOf t
  let T := s.team t
  let anew := T.status == .vacated
  let s := s.cyclesAtLeast core (assocGet s.eng.cycles T.core 0).toNat
  let s := if anew then s.resetTlb core else s
  let epoch := if anew then (s.grid T.grid).place.epoch else T.epoch
  let phys := (s.freeBanks core).take K.banks
  let tiles := pickTiles (s.tilesUsed core) K.acc 0
  let s := { s with eng := { s.eng with cards := s.eng.cards.map fun (C : Card) =>
    if C.team == t && !C.ended && !s.cardGlobal C then { C with core := core } else C } }
  (s.modTeam t fun T => { T with
    core := core
    epoch := epoch
    status := .running
    groups := if anew then T.groups.map fun G => { G with lanes := G.lanes.map Lane.recount } else T.groups
    banks := mapIdx (fun i b => { b with phys := phys.getD i 0 }) T.banks
    tiles := mapIdx (fun i x => { x with engine := (tiles.getD i (0, 0)).1, phys := (tiles.getD i (0, 0)).2 }) T.tiles }).wakeParks

/-- The re-keys recorded for the team that dispatch has reached, applied in a replay: MASK, less what vacates of the replay itself
have removed, and EPOCH (spec 04 R89). -/
def State.applyRekey (s : State) (g : Nat) : State :=
  s.modGrid g fun G =>
    let P := G.place
    match P.rekeys.filter fun r => r.firstU == P.next with
    | [] => G
    | r :: rs =>
      let last := rs.foldl (fun a b => if a.epoch < b.epoch then b else a) r
      { G with place := { P with
          allowed := last.allowed.filter fun c => !P.removed.contains c
          epoch := last.epoch
          firstU := last.firstU
          rekeys := P.rekeys.filter fun r => r.firstU != P.next } }

/-- Whether a context is switched out (spec 20 R415). -/
def State.ctxOut (s : State) (ctx : Nat) : Bool := s.cp.ctxs.any fun c => c.ctx == ctx && c.out

/-- The first team of a grid, by index, that stands switched out. -/
def State.firstSwitchedOut (s : State) (g : Nat) : Option Nat :=
  (sortBy (fun a b => decide ((s.team a).idx < (s.team b).idx))
    ((indexed s.teams).filterMap fun x => if x.2.grid == g && x.2.status == .switchedOut then some x.1 else none)).head?

/-- The core on which a vacated team is re-placed, if there is one. -/
def State.vacatedCore (s : State) (g t : Nat) : Option Nat :=
  let G := s.grid g
  let m := max 1 G.kernel.setSize
  let A := G.place.allowed
  if A.isEmpty || (decide (1 < m) && (clustersOf A m).isEmpty) then none else some (replaceCore A m (s.team t).idx)

/-- Whether a grid's next undispatched team could be dispatched now. (DEDUCED, log 86.) -/
def State.canDispatch (s : State) (g : Nat) : Bool :=
  let G := s.grid g
  G.status == .dispatching && !G.halted && !s.ctxOut G.par.ctx && decide (G.place.next < G.teamCount) && G.pixelsKnown &&
    ((s.applyRekey g).nextCore g).isSome

/-- Whether a grid that has dispatched no team stands behind one that began dispatch earlier and could dispatch its first team
now (spec 03 R71). -/
def State.outranked (s : State) (g : Nat) : Bool :=
  (s.grid g).firstDisp.isNone && (indexed s.grids).any fun x =>
    x.2.firstDisp.isNone && (match x.2.begunNo, (s.grid g).begunNo with
      | some a, some b => decide (a < b)
      | _, _ => false) && s.canDispatch x.1

/-- DISPATCH_TEAM: a team saved by a context switch returns to its core (R415), then a vacated team of the grid is re-placed,
before any undispatched one; else the next team goes to its core. -/
def execDispatchTeam (g : Nat) (s : State) : Res :=
  let G := s.grid g
  let put (t : Nat) (core : Option Nat) : Res :=
    match core with
    | none => notDue s
    | some c => if s.canHold c G.kernel then .next (s.replaceTo t c) else notDue s
  let busy := s.ctxBusy G.par.ctx
  if G.status != .dispatching || G.halted || s.ctxOut G.par.ctx then notDue s
  else if !busy.isEmpty then .next (s.recallLines busy)
  else
    match s.firstSwitchedOut g, s.firstVacated g with
    | some t, _ => put t (some (s.team t).core)
    | none, some t => put t (s.vacatedCore g t)
    | none, none =>
      if decide (G.teamCount ≤ G.place.next) || !G.pixelsKnown then notDue s
      else if s.outranked g then notDue s
      else
        let s1 := s.applyRekey g
        match s1.nextCore g with
        | none => notDue s
        | some core => .next (s1.dispatchTo g G.place.next core)

/-- GROUP_SWITCH_IN: a switched-out group with a runnable sub-group returns to its core when a slot is free there. -/
def execGroupSwitchIn (t g : Nat) (s : State) : Res :=
  let T := s.team t
  match T.groups[g]? with
  | none => notDue s
  | some G =>
    if T.status != .running || G.resident || G.ended || !s.groupReady t G then notDue s
    else if decide (16 ≤ s.slotsUsed T.core) then notDue s
    else .next (s.modGroup t g fun G => { G with resident := true })

end Sys2Proof.Machine
end

