-- ==== Sys2Proof/Machine/Launch.lean ====
section
/-! DEFINITION. The command processor: reading and checking launch packets, kernel descriptors, segments, launch order, rungs,
deadlines, the ends of teams and grids and their completion records (spec 01 R16-R19, 03 R65-R76, 04 R84, R85, 21 R416, R417). -/

namespace Sys2Proof.Machine

/-! ## Reads and writes of the command processor -/

/-- A number that no grid has. -/
def noGrid : Nat := 2 ^ 41

/-- The command processor at work for queue `q` in a context. -/
def cpFor (q ctx : Nat) : Unit := { who := (q, 253, 0), grid := noGrid, ctx := ctx }

/-- The name of the write of a grid's completion record. -/
def recordOf (g : Nat) : Nat × Nat × Nat := (g, 251, 0)

/-- How a read by the command processor ends: the bytes; a wait for the fabric; or it cannot be read (any outcome of the walk
but a leaf that permits it, an address that cannot be reached, or poison). -/
inductive CpRead where
  | got (s : State) (bs : List Byte)
  | wait (s : State)
  | no

/-- `n` bytes of a context's memory. (DEDUCED, log 87.) -/
def State.cpRead (s : State) (w : Unit) (a n : Nat) : CpRead :=
  match s.engRange w w.ctx a n .read false with
  | .ok s' ps => .got s' (s'.rdPieces ps)
  | .wait s' => .wait s'
  | .pages _ => .no
  | .bad _ => .no

/-- How the write of a record ends. -/
inductive RecWrite where
  | done (s : State)
  | wait (s : State)
  | no (s : State)

/-- A write of the command processor that waited for pages waits for them no longer. -/
def State.endPages (s : State) (by_ : Nat × Nat × Nat) : State :=
  { s with mm := { s.mm with waits := s.mm.waits.filter fun x => x.by_ != by_ } }

/-- Whether a page that a write of the command processor waited for has been resolved as unresolvable. -/
def State.pagesFailed (s : State) (by_ : Nat × Nat × Nat) (ctx : Nat) (ps : List Nat) : Bool :=
  s.mm.waits.any fun x => x.by_ == by_ && x.ctx == ctx && ps.contains x.page && x.bad

/-- A write of the command processor waits on the fault records of its pages. -/
def State.waitPages (s : State) (by_ : Nat × Nat × Nat) (ctx : Nat) (ps : List Nat) : State :=
  ps.foldl (fun s p =>
    let s := s.ensureFault ctx p (s.faultKind ctx p 1) 0xFF
    if s.mm.waits.any fun x => x.by_ == by_ && x.ctx == ctx && x.page == p then s
    else { s with mm := { s.mm with waits := s.mm.waits ++ [⟨by_, ctx, p, false⟩] } }) s

/-- A 64-byte record written at COMPL, when its home has it, by the write that `by_` names; a missing page waits on its fault record,
and one resolved as unresolvable cannot be written (spec 03 R66). -/
def State.writeRecord (s : State) (w : Unit) (by_ : Nat × Nat × Nat) (compl : Nat) (bs : List Byte) : RecWrite :=
  match s.engGlobal w (compl % 2 ^ 57) bs.length .write with
  | .bad _ => .no ((s.engDone w).endPages by_)
  | .wait s' => .wait s'
  | .ok s' ps =>
    let s'' := s'.engStore w ps bs
    if s''.unitPending w.who then .wait s'' else .done ((s''.engDone w).endPages by_)
  | .pages ps => if s.pagesFailed by_ w.ctx ps then .no (s.endPages by_) else .wait (s.waitPages by_ w.ctx ps)

/-- QSTAT bits raised. -/
def State.queueStat (s : State) (q : Nat) (bits : W32) : State := s.modQueue q fun Q => { Q with qstat := Q.qstat ||| bits }
/-- QSTAT.RDERR, and the event of a rejected launch, with bytes 0x04 to 0x0B of its record (spec 03 R66, 21 Table 21-5).
(DEDUCED, log 186.) -/
def State.readError (s : State) (q ctx : Nat) (ltag : W32) (rec_ : List Byte) : State :=
  (s.queueStat q 2).logEvent 2 ctx ltag ((rec_.drop 4).take 8)

/-! ## Kernel descriptors (spec 01 R16-R18) -/

/-- The kernel that a descriptor's bytes describe. -/
def parseKernel (addr : Nat) (args : W64) (bs : List Byte) : Kernel :=
  let f (off len : Nat) : Nat := fieldAt bs off len
  let r := f 0x10 4
  { addr := addr, codeSize := f 4 4, entry := f 8 4, trapOff := BitVec.ofNat 32 (f 0xC 4), regs := 8 * (r % 4 + 1)
    groups := bitsOf r 4 4 + 1, acc := bitsOf r 8 4, setSize := bitsOf r 12 4 + 1, tapeB := bitsOf r 16 4
    scratch := f 0x14 4, pixel := f 0x18 4 % 2 == 1, tape := f 0x18 4 / 2 % 2 == 1, codeBase := f 0x20 8 % 2 ^ 57
    kid := BitVec.ofNat 64 (f 0x28 8), args := args }

/-- Checks 2 to 10 of Table 1-4 on the bytes of a descriptor, for a launch of `teams` teams. (DEDUCED, log 28.) -/
def kernelCheck (bs : List Byte) (teams : Nat) (pixel : Bool) : Option Nat :=
  let f (off len : Nat) : Nat := fieldAt bs off len
  let K := parseKernel 0 0 bs
  let r := f 0x10 4
  let trap := K.trapOff.toNat
  firstReason
    [(2, bitsOf (f 0 4) 16 16 != 0x474B || bitsOf (f 0 4) 8 8 != 1),
     (3, f 0 1 != 0 || r / 2 ^ 20 != 0 || bitsOf r 2 2 != 0 || f 0x18 4 / 4 != 0 || bitsOf (f 0x20 8) 57 7 != 0 ||
        f 0x1C 4 != 0 || f 0x30 16 != 0),
     (4, decide (8 < K.acc) || decide (8 < K.tapeB)),
     (5, K.tape && K.tapeB == 0),
     (6, decide (44 < K.banks)),
     (7, K.codeBase % 384 != 0 || K.codeSize == 0 || K.codeSize % 12 != 0 || decide (2 ^ 24 < K.codeSize)),
     (8, K.entry % 12 != 0 || decide (K.codeSize ≤ K.entry) ||
        (trap != 0xFFFFFFFF && (trap % 12 != 0 || decide (K.codeSize ≤ trap)))),
     (9, teams % K.setSize != 0),
     (10, K.pixel != pixel)]

/-- How the reading of a descriptor ends. -/
inductive KernelRead where
  | ok (s : State) (K : Kernel)
  | wait (s : State)
  | bad (s : State) (check : Nat)

/-- A kernel descriptor read and checked (spec 01 Table 1-4). `teams` is the launch's team count; a raster card gives none. -/
def State.readKernel (s : State) (w : Unit) (addr : Nat) (args : W64) (teams : Nat) (pixel : Bool) : KernelRead :=
  if addr % 64 != 0 then .bad s 1
  else match s.cpRead w addr 64 with
    | .no => .bad s 1
    | .wait s' => .wait s'
    | .got s' bs =>
      match kernelCheck bs teams pixel with
      | some k => .bad s' k
      | none => .ok s' (parseKernel addr args bs)

/-- How the reading of a launch's rungs ends. -/
inductive RungsRead where
  | ok (s : State) (ks : List Kernel)
  | wait (s : State)
  | bad (s : State) (check rung : Nat)

/-- The descriptors of the rungs in rung order, from rung `r` on. -/
def State.readRungs (s : State) (w : Unit) (teams : Nat) : Nat → List (Nat × W64) → RungsRead
  | _, [] => .ok s []
  | r, (a, args) :: rest =>
    match s.readKernel w a args teams false with
    | .wait s' => .wait s'
    | .bad s' k => .bad s' k r
    | .ok s' K =>
      match s'.readRungs w teams (r + 1) rest with
      | .ok s'' ks => .ok s'' (K :: ks)
      | x => x

/-! ## Placement maps (spec 04 R84, R85) -/

/-- CL and TGT of a map entry. -/
def entryCl (e : W16) : Bool := e.getLsbD 15
def entryTgt (e : W16) : Nat := e.toNat % 256
/-- The cluster that an entry lies in. -/
def entryCluster (e : W16) : Nat := if entryCl e then entryTgt e else entryTgt e / 8

/-- Checks 2 to 4 of Table 4-1: the check that fails and the lowest failing team, the checks in order over the whole map. -/
def mapCheck (allowed : List Nat) (m : Nat) (es : List W16) : Option (Nat × Nat) :=
  let inCluster (k : Nat) : Nat := (allowed.filter fun c => c / 8 == k).length
  let bad2 (e : W16) : Bool := e.extractLsb' 8 7 != 0 || (entryCl e && decide (31 < entryTgt e))
  let bad3 (e : W16) : Bool := if entryCl e then inCluster (entryTgt e) == 0 else !allowed.contains (entryTgt e)
  let setOf (i : Nat) : List W16 := (es.drop (i / m * m)).take m
  let bad4 (i : Nat) : Bool :=
    let xs := setOf i
    let k := entryCluster (xs.headD 0)
    let cores := (xs.filter fun e => !entryCl e).map entryTgt
    decide (1 < m) && (xs.any (fun e => entryCluster e != k) || cores.eraseDups.length != cores.length || decide (inCluster k < m))
  let first (f : Nat → Bool) : Option Nat := (List.range es.length).find? f
  match first fun i => bad2 (es.getD i 0) with
  | some i => some (2, i)
  | none =>
    match first fun i => bad3 (es.getD i 0) with
    | some i => some (3, i)
    | none => (first bad4).map fun i => (4, i)

/-- The entries of a map's bytes. -/
def mapEntries (teams : Nat) (bs : List Byte) : List W16 :=
  (List.range teams).map fun i => BitVec.ofNat 16 (fieldAt bs (2 * i) 2)

/-- The lowest team whose entry cannot be read. -/
def State.unreadEntry (s : State) (w : Unit) (map teams : Nat) : Nat :=
  ((List.range teams).find? fun i => match s.cpRead w (map + 2 * i) 2 with
    | .no => true
    | _ => false).getD 0

/-! ## The checks of a packet (spec 03 R66, Table 3-4) -/

/-- Reserved bits of LCTL (spec 03 Table 3-2). -/
def lctlReserved : W32 := 0xFFC0E08C

/-- How the checks of a packet end. -/
inductive PacketCheck where
  | wait (s : State)
  | reject (s : State) (status check rung team : Nat)
  | accept (s : State) (par : LaunchPar)

/-- Whether the PACKET row rejects; a recorded copy is checked without bytes 0x74 to 0x77 (spec 03 R77). -/
def packetBad (bs : List Byte) (copy : Bool) : Bool :=
  let f (off len : Nat) : Nat := fieldAt bs off len
  f 0 4 != 0x4C500100 || BitVec.ofNat 32 (f 4 4) &&& lctlReserved != 0 || bitsOf (f 8 8) 57 7 != 0 ||
    bitsOf (f 0x38 8) 57 7 != 0 || bitsOf (f 0x70 4) 16 16 != 0 || (if copy then f 0x78 8 else f 0x74 12) != 0

/-- Whether two rungs differ in PIXEL, CSETM1 or GRPM1 (spec 03 Table 3-4). -/
def rungsDiffer (ks : List Kernel) : Bool :=
  let a := ks.headD {}
  ks.any fun k => k.pixel != a.pixel || k.setSize != a.setSize || k.groups != a.groups

/-- The parameters of an accepted packet. -/
def parOf (q ctx : Nat) (bs : List Byte) (ks : List Kernel) (allowed : List Nat) (map : List W16) : LaunchPar :=
  let f (off len : Nat) : Nat := fieldAt bs off len
  let c := f 4 4
  let bit (i : Nat) : Bool := bitsOf c i 1 == 1
  { ctx := ctx, queue := q, packet := bs, kernels := ks, gx := f 0x10 4, gy := f 0x14 4, gz := f 0x18 4
    ltag := BitVec.ofNat 32 (f 0x1C 4), deps := (List.range 4).map fun i => BitVec.ofNat 32 (f (0x20 + 4 * i) 4)
    seed := BitVec.ofNat 64 (f 0x30 8), te := BitVec.ofNat 5 (bitsOf c 8 5), det := bit 0, mapMode := bit 1
    prio := bitsOf c 4 3, deadline := if bit 20 then some (f 0x50 8) else none, dlTrap := bit 21
    release := if bit 19 then some (f 0x58 8) else none, compl := some (f 0x68 8 % 2 ^ 57), map := map
    allowed := allowed }

/-- The rows from MAP on. (DEDUCED, log 89.) -/
def State.checkMap (s : State) (w : Unit) (q : Nat) (bs : List Byte) (ks : List Kernel) (allowed : List Nat) : PacketCheck :=
  let f (off len : Nat) : Nat := fieldAt bs off len
  let teams := f 0x10 4 * f 0x14 4 * f 0x18 4
  let map := f 0x48 8
  let rest (s : State) (es : List W16) : PacketCheck :=
    if rungsDiffer ks then .reject s 8 0 0 0 else .accept s (parOf q w.ctx bs ks allowed es)
  if bitsOf (f 4 4) 1 1 == 0 then (if map != 0 then .reject s 7 0 0 0 else rest s [])
  else if map == 0 || map % 2 == 1 then .reject s 7 1 0 0
  else match s.cpRead w (map % 2 ^ 57) (2 * teams) with
    | .wait s' => .wait s'
    | .no => .reject s 7 1 0 (s.unreadEntry w (map % 2 ^ 57) teams)
    | .got s' es =>
      let es := mapEntries teams es
      match mapCheck allowed (ks.headD {}).setSize es with
      | some (k, t) => .reject s' 7 k 0 t
      | none => rest s' es

/-- The rows from DETMAP on: the allowed set is the cores of the mask that belong to the context. (DEDUCED, log 88.) -/
def State.checkCores (s : State) (w : Unit) (q : Nat) (bs : List Byte) (ks : List Kernel) : PacketCheck :=
  let f (off len : Nat) : Nat := fieldAt bs off len
  let m := (ks.headD {}).setSize
  let mapped := bitsOf (f 4 4) 1 1 == 1
  let rest (s : State) (mask : Nat) : PacketCheck :=
    let allowed := coresOf (Nat.land (s.ctxCores w.ctx) mask)
    if !(s.ctxBusy w.ctx).isEmpty then .wait (s.recallLines (s.ctxBusy w.ctx))
    else if !s.ctxUsable w.ctx || allowed.isEmpty || (!mapped && (clustersOf allowed m).isEmpty) then .reject s 6 0 0 0
    else s.checkMap w q bs ks allowed
  if bitsOf (f 4 4) 0 2 == 3 then .reject s 5 0 0 0
  else if f 0x40 8 % 2 ^ 57 == 0 then rest s (2 ^ 256 - 1)
  else match s.cpRead w (f 0x40 8 % 2 ^ 57) 32 with
    | .wait s' => .wait s'
    | .no => .reject s 6 0 0 0
    | .got s' m => rest s' (leNat m)

/-- The rows of Table 3-4 on a packet. -/
def State.checkPacket (s : State) (w : Unit) (q : Nat) (bs : List Byte) (copy : Bool) : PacketCheck :=
  let f (off len : Nat) : Nat := fieldAt bs off len
  let teams := f 0x10 4 * f 0x14 4 * f 0x18 4
  let more := bitsOf (f 4 4) 17 2
  let rungs (s : State) (rest : List (Nat × W64)) : PacketCheck :=
    match s.readRungs w teams 0 ((f 8 8 % 2 ^ 57, BitVec.ofNat 64 (f 0x38 8)) :: rest) with
    | .wait s' => .wait s'
    | .bad s' k r => .reject s' 4 k r 0
    | .ok s' ks => s'.checkCores w q bs ks
  if packetBad bs copy then .reject s 1 0 0 0
  else if teams == 0 || decide (2 ^ 32 < teams) then .reject s 2 0 0 0
  else if more == 0 then (if f 0x60 8 != 0 then .reject s 3 0 0 0 else rungs s [])
  else match s.cpRead w (f 0x60 8 % 2 ^ 57) (16 * more) with
    | .wait s' => .wait s'
    | .no => .reject s 3 0 0 0
    | .got s' l =>
      let es := (List.range more).map fun i => (fieldAt l (16 * i) 8, fieldAt l (16 * i + 8) 8)
      if es.any fun e => decide (2 ^ 57 ≤ e.1) || decide (2 ^ 57 ≤ e.2) then .reject s' 3 0 0 0
      else rungs s' (es.map fun e => (e.1, BitVec.ofNat 64 e.2))

/-! ## Segments (spec 03 R76, 15 R325) -/

/-- A segment's name as TMARK carries it. -/
def Segment.name (x : Segment) : Nat := x.queue * 65536 + x.seg

/-- The key of an entry of a queue's segment buffer, by its place counted from the first entry ever made. (DESIGN CHOICE, log 153.) -/
def Queue.entryAt (Q : Queue) (pos : Nat) : Nat :=
  (Q.segbase.toNat % 2 ^ 57) / 128 * 128 + 128 * (pos % max 1 Q.segsize.toNat)

/-- Whether the queue records its packets. (DEDUCED, log 190.) -/
def Queue.records (Q : Queue) : Bool := (Q.segbase.toNat % 2 ^ 57) / 128 != 0 && Q.segsize != 0

/-- Every segment changed. -/
def State.mapSegments (s : State) (f : Segment → Segment) : State :=
  { s with cp := { s.cp with segments := s.cp.segments.map f } }

/-- Every grid changed. -/
def State.mapGrids (s : State) (f : Grid → Grid) : State := { s with grids := s.grids.map f }

/-- A segment that its count and its checkpoint have let go is released (spec 15 R325). -/
def State.releaseSegments (s : State) : State :=
  s.mapSegments fun x => if x.closed && x.spans == 0 then { x with released := true } else x

/-- Segments of a queue that have lost an entry to the ring: QSTAT.SEGLOST and an event for one that was not released. -/
def State.loseSegments (s : State) (q : Nat) : State :=
  let Q := s.queue q
  let gone (x : Segment) : Bool :=
    x.queue == q && !x.lost && x.items.any fun i => decide (i.1 + Q.segsize.toNat < Q.segPos)
  let hurt := s.cp.segments.filter fun x => gone x && !x.released
  let s := s.mapSegments fun x => if gone x then { x with lost := true } else x
  hurt.foldl (fun s _ => (s.queueStat q 4).logEvent 10 Q.ctx 0 []) s

/-- The command processor as it writes a queue's segment buffer. -/
def SegWrite.unit (x : SegWrite) : Unit := { who := (x.queue, 253, 1), grid := noGrid, ctx := x.ctx }

/-- The oldest write of a queue's segment buffer that is still to be made is made, or waits; an entry that cannot be written is
lost, and its segment with it. (DEDUCED, log 154.) -/
def State.payEntry (s : State) (x : SegWrite) : State :=
  let w := x.unit
  let done (s : State) : State :=
    ({ s with cp := { s.cp with entries := s.cp.entries.erase x } }.engDone w).endPages w.who
  let lost (s : State) : State :=
    done (s.mapSegments fun y => if y.queue == x.queue && y.items.any (fun i => i.1 == x.place) then { y with lost := true } else y)
  match s.engGlobal w x.addr x.data.length .write with
  | .bad _ => lost s
  | .wait s' => s'
  | .ok s' ps =>
    let s'' := s'.engStore w ps x.data
    if s''.unitPending w.who then s'' else done s''
  | .pages ps => if s.pagesFailed w.who x.ctx ps then lost s else s.waitPages w.who x.ctx ps

/-- Every write of a segment buffer that can be made now, each queue's in order. -/
def State.payEntries (s : State) : State :=
  s.cp.entries.foldl (fun s x =>
    match s.cp.entries.find? fun y => y.queue == x.queue with
    | some y => if y == x then s.payEntry x else s
    | none => s) s

/-- A write of a queue's segment buffer for grid `g`, under that grid's context: made now, or waiting its turn. (DEDUCED, log 191.) -/
def State.oweEntry (s : State) (g q place off : Nat) (bs : List Byte) : State :=
  State.payEntries { s with cp := { s.cp with entries :=
    s.cp.entries ++ [⟨q, (s.grid g).par.ctx, place, (s.queue q).entryAt place + off, bs⟩] } }

/-- Whether a queue has writes of its segment buffer still to make. -/
def State.entriesOwed (s : State) (q : Nat) : Bool := s.cp.entries.any fun x => x.queue == q

/-- One entry of 128 bytes recorded for grid `g` in its queue's segment buffer. -/
def State.recordEntry (s : State) (q g : Nat) (rekey : Bool) (bs : List Byte) : State :=
  let Q := s.queue q
  if !Q.records then s
  else
    let pos := Q.segPos
    let s := (s.oweEntry g q pos 0 bs).modQueue q fun Q => { Q with segPos := pos + 1 }
    let s := if rekey then s else s.modGrid g fun G => { G with copyAt := some pos }
    -- the entry belongs to the segment that holds its packet, or to the open one
    let mine (x : Segment) : Bool :=
      x.queue == q && (if rekey then x.items.any fun i => i.2.1 == g else !x.closed)
    (s.mapSegments fun x => if mine x then { x with items := x.items ++ [(pos, g, rekey)] } else x).loseSegments q

/-- An accepted packet of a recording queue: a checkpoint closes the open segment and opens its own; the packet is copied.
(DEDUCED, log 90; DESIGN CHOICE, log 152.) -/
def State.recordPacket (s : State) (q g : Nat) (bs : List Byte) : State :=
  let f (off len : Nat) : Nat := fieldAt bs off len
  if !(s.queue q).records then s
  else
    let seg := bitsOf (f 0x70 4) 0 16
    let s := if bitsOf (f 4 4) 16 1 == 1 then
        let olds := s.cp.segments.filter fun x => !(x.queue == q && x.seg == seg)
        let s := ({ s with cp := { s.cp with segments := olds } }).mapSegments fun x =>
          if x.queue == q then { x with closed := true } else x
        let new : Segment := { queue := q, seg := seg }
        ({ s with cp := { s.cp with segments := s.cp.segments ++ [new] } }).releaseSegments
      else s
    s.recordEntry q g false (putBytes bs 0x74 [0, 0, 0, 0])

/-- The rung of a grid written into the copy of its packet, while the ring holds it. -/
def State.recordRung (s : State) (g rung : Nat) : State :=
  let q := (s.grid g).par.queue
  let Q := s.queue q
  match (s.grid g).copyAt with
  | none => s
  | some pos => if Q.records && decide (Q.segPos ≤ pos + Q.segsize.toNat) then s.oweEntry g q pos 0x74 (leBytes 4 rung) else s

/-! ## Reading packets (spec 03 R66, R68, R69) -/

/-- A record with nothing but a status: GCHDR, GSTAT and the team of a MAP failure (spec 21 R417). -/
def bareRecord (status check rung team : Nat) : List Byte :=
  leBytes 4 0x47430100 ++ leBytes 4 (2 ^ 31 + rung * 2 ^ 27 + check * 2 ^ 16 + status) ++ List.replicate 28 0 ++ leBytes 4 team ++
    List.replicate 24 0

/-- QREAD advanced past a slot. -/
def State.nextSlot (s : State) (q : Nat) : State :=
  s.modQueue q fun Q => { Q with qread := BitVec.ofNat 32 ((Q.qread.toNat + 1) % max 1 Q.qsize.toNat), slot := none }

/-- The 128 bytes of the slot at QREAD, read once: a slot that has been read is kept until its launch is settled (R68). -/
def State.readSlot (s : State) (q : Nat) : CpRead :=
  let Q := s.queue q
  match Q.slot with
  | some x => .got s x.bytes
  | none =>
    if Q.qbase.getLsbD 63 then
      (if s.hub.hostDown then .no else .got s (s.rd (hostKey (Q.slotAt Q.qread.toNat)) 128))
    else match s.cpRead (cpFor q Q.ctx) (Q.slotAt Q.qread.toNat) 128 with
      | .got s' bs => .got (s'.engDone (cpFor q Q.ctx)) bs
      | x => x

/-- An accepted launch. -/
def State.acceptLaunch (s : State) (q : Nat) (x : SlotRead) (par : LaunchPar) : State :=
  let (now, s) := s.lookTime
  let g := s.grids.length
  let free := match par.release with
    | none => true
    | some t => decide (t ≤ now.toNat)
  let new : Grid :=
    { par := { par with order := x.order, recorded := (s.queue q).records }, place := { allowed := par.allowed }
      released := free }
  State.recordPacket { s with grids := s.grids ++ [new] } q g x.bytes

/-- Whether the device takes no launch: after a device error, or while it waits for firmware (spec 21 R422, 22 R431). (DEDUCED, log 134.) -/
def State.noLaunch (s : State) : Bool := s.cp.devErr || s.regs.fwStat.getLsbD 31

/-- The slot being read: it takes the next place in the order of reading when it is read first. -/
def State.slotRead (s : State) (q : Nat) (bs : List Byte) : SlotRead × State :=
  match (s.queue q).slot with
  | some x => (x, s)
  | none => ({ bytes := bs, order := s.cp.readOrder }, { s with cp := { s.cp with readOrder := s.cp.readOrder + 1 } })

/-- A slot being read, kept. -/
def State.keepSlot (s : State) (q : Nat) (x : SlotRead) : State := s.modQueue q fun Q => { Q with slot := some x }

/-- A record's header, which the command processor writes as it reads a packet (spec 21 R417). -/
def recordHeader : List Byte := leBytes 4 0x47430100 ++ List.replicate 60 0

/-- The header of the record of the slot being read, written once; a record that cannot be written is remembered as such. None
while the write waits, in the state that it waits in. (DEDUCED, log 92.) -/
def State.headRecord (s : State) (w : Unit) (x : SlotRead) : State × Option SlotRead :=
  let compl := fieldAt x.bytes 0x68 8 % 2 ^ 57
  if x.headed then (s, some x)
  else if compl % 64 != 0 then (s, some { x with headed := true, lost := true })
  else match s.writeRecord w w.who compl recordHeader with
    | .done s' => (s', some { x with headed := true })
    | .no s' => (s', some { x with headed := true, lost := true })
    | .wait s' => (s', none)

/-- A rejected launch: its record is completed, and the event written; QREAD advances. A record whose page is missing holds the
packet back until the page is resolved. -/
def State.rejectLaunch (s : State) (q : Nat) (w : Unit) (x : SlotRead) (rec_ : List Byte) : State :=
  let ltag : W32 := BitVec.ofNat 32 (fieldAt x.bytes 0x1C 4)
  if x.lost then ((s.readError q w.ctx ltag rec_).engDone w).nextSlot q
  else match s.writeRecord w w.who (fieldAt x.bytes 0x68 8 % 2 ^ 57) rec_ with
    | .done s' => ((s'.logEvent 2 w.ctx ltag ((rec_.drop 4).take 8)).engDone w).nextSlot q
    | .wait s' => s'.keepSlot q x
    | .no s' => ((s'.readError q w.ctx ltag rec_).engDone w).nextSlot q

/-- The launch of a slot that has been read and whose record has its header: accepted or rejected, or still waiting. -/
def State.settleSlot (s : State) (q : Nat) (w : Unit) (x : SlotRead) : State :=
  match s.checkPacket w q x.bytes false with
  | .wait s' => s'.keepSlot q x
  | .reject s' st k r t => s'.rejectLaunch q w x (bareRecord st k r t)
  | .accept s' par =>
    let ltag : W32 := BitVec.ofNat 32 (fieldAt x.bytes 0x1C 4)
    if x.lost then ((s'.readError q w.ctx ltag recordHeader).engDone w).nextSlot q
    else ((s'.engDone w).acceptLaunch q x par).nextSlot q

/-- The slot at QREAD of a queue that has been disabled: its launch is cancelled, its record left to be written; none while the slot
cannot be read yet. -/
def State.cancelSlot (s : State) (q : Nat) : State × Bool :=
  let Q := s.queue q
  let lost (s : State) (ltag : W32) : State := s.readError q Q.ctx ltag (bareRecord 9 0 0 0)
  let next (s : State) : State := (s.nextSlot q).modQueue q fun Q => { Q with closing := Q.closing - 1 }
  match s.readSlot q with
  | .wait s' => (s', false)
  | .no => (next (lost s 0), true)
  | .got s0 bs =>
    let (x, s') := s0.slotRead q bs
    let compl := fieldAt bs 0x68 8 % 2 ^ 57
    let ltag : W32 := BitVec.ofNat 32 (fieldAt bs 0x1C 4)
    if compl % 64 != 0 then (next (lost s' ltag), true)
    else
      let gone : Grid := { par := { ctx := Q.ctx, queue := q, order := x.order, ltag := ltag, compl := some compl }, report := { status := 9 } }
      (next { s' with grids := s'.grids ++ [gone] }, true)

/-- The slots that a disabled queue has still to cancel, in order, as far as they can be read. (DEDUCED, log 91.) -/
def State.closeQueue (s : State) (q : Nat) : State :=
  ((List.range (s.queue q).closing).foldl (fun (acc : State × Bool) _ =>
    if acc.2 then acc.1.cancelSlot q else acc) (s, true)).1

/-- READ_LAUNCH_PACKET: the next covered slot is read, its record's header written, and its launch checked and accepted or rejected;
QREAD advances. What cannot be read or written yet is waited for, and the slot kept as it was read. (DEDUCED, log 94.) -/
def execReadLaunchPacket (q : BitVec 6) (s : State) : Res :=
  let n := q.toNat
  let Q := s.queue n
  if Q.closing != 0 then .next (s.closeQueue n)
  else if !Q.en || Q.qsize == 0 || Q.qwrite == Q.qread || s.noLaunch || s.ctxOut Q.ctx then notDue s
  else
    let w := cpFor n Q.ctx
    match s.readSlot n with
    | .wait s' => .next s'
    | .no => .next ((s.readError n Q.ctx 0 []).nextSlot n)
    | .got s0 bs =>
      let (x, s1) := s0.slotRead n bs
      match s1.headRecord w x with
      | (s2, none) => .next (s2.keepSlot n x)
      | (s2, some y) => .next (s2.settleSlot n w y)

/-- QWRITE_WRITE: QWRITE takes the value, or BADIDX is set and the write ignored (spec 03 R68). -/
def execQwriteWrite (q : BitVec 6) (v : W32) (s : State) : Res :=
  let n := q.toNat
  if decide ((s.queue n).qsize.toNat ≤ v.toNat) then .next (s.queueStat n 1)
  else .next (s.modQueue n fun Q => { Q with qwrite := v })

/-- The bits of QCTL that a write sets (spec 03 Table 3-6). -/
def qctlBits : W32 := 0xF8FF0000

/-- QUEUE_DISABLE: EN is cleared; launches that have not begun, and slots not yet read, are cancelled (spec 03 R69). -/
def execQueueDisable (q : BitVec 6) (v : W32) (s : State) : Res :=
  let n := q.toNat
  if !(s.queue n).en || v.getLsbD 31 then notDue s
  else
    let s := s.mapGrids fun G =>
      if G.status == .accepted && G.par.queue == n && G.par.card.isNone && G.par.replay.isNone && G.report.status == 0 then
        { G with report := { G.report with status := 9 } }
      else G
    .next ((s.modQueue n fun Q => { Q with qctl := v &&& qctlBits, closing := Q.count }).closeQueue n)

/-- SEGREL_GO: a segment released by software (spec 15 R325). -/
def execSegrelGo (q : BitVec 6) (v : W32) (s : State) : Res :=
  if !v.getLsbD 31 then notDue s
  else .next (s.mapSegments fun x => if x.queue == q.toNat && x.seg == v.toNat % 65536 then { x with released := true } else x)

/-! ## Order and rungs (spec 03 R70-R73) -/

/-- The effective priority of a grid, that of a pixel launch being its issuer's (spec 03 R70, R77, 15 R307); `n` bounds the pixel
launches that kicked one another. -/
def State.effPrioWithin (s : State) : Nat → Nat → Nat
  | 0, g => (s.grid g).par.prio
  | n + 1, g =>
    let G := s.grid g
    if G.par.replay.isSome then 7
    else match G.par.issuer with
      | some i => s.effPrioWithin n i
      | none => if G.par.card.isSome then G.par.prio else min G.par.prio (bitsOf (s.queue G.par.queue).qctl.toNat 28 3)

/-- The effective priority of a grid. -/
def State.effPrio (s : State) (g : Nat) : Nat := s.effPrioWithin (g + 1) g

/-- Whether a grid is a launch read from a queue's ring. -/
def Grid.fromQueue (G : Grid) : Bool := G.par.card.isNone && G.par.replay.isNone

/-- Whether a grid has completed. -/
def Grid.over (G : Grid) : Bool := G.status == .complete

/-- Whether a launch depends on a packet read before it that has been neither accepted nor rejected yet (spec 03 R70). -/
def State.slotAwaited (s : State) (G : Grid) : Bool := s.cp.queues.any fun Q => match Q.slot with
  | none => false
  | some x =>
    let ltag : W32 := BitVec.ofNat 32 (fieldAt x.bytes 0x1C 4)
    decide (x.order < G.par.order) && Q.ctx == G.par.ctx && ltag != 0 && G.par.deps.contains ltag

/-- Whether an accepted launch is eligible (spec 03 R70). -/
def State.eligible (s : State) (g : Nat) : Bool :=
  let G := s.grid g
  let earlier := s.grids.filter fun H => H.fromQueue && decide (H.par.order < G.par.order)
  let depends := s.slotAwaited G ||
    earlier.any fun H => H.par.ctx == G.par.ctx && H.par.ltag != 0 && G.par.deps.contains H.par.ltag && !H.over
  let mine := earlier.filter fun H => H.par.queue == G.par.queue
  -- a launch that was cancelled never begins dispatch
  let begun := ((mine.filter fun H => H.status != .accepted || H.report.status == 0).getLast?.map fun H => H.status != .accepted).getD true
  let serial := (s.queue G.par.queue).qctl.getLsbD 27
  let prev := begun && (!serial || (mine.getLast?.map Grid.over).getD true)
  G.status == .accepted && G.report.status == 0 && G.released && (G.par.replay.isSome || (!depends && prev))

/-- Whether an eligible launch can begin dispatch now: its context is not switched out (spec 20 R415), and the device takes launches. -/
def State.mayBegin (s : State) (g : Nat) : Bool := s.eligible g && !s.ctxOut (s.grid g).par.ctx && !s.noLaunch

/-- The order of R71 between two eligible launches. -/
def State.launchBefore (s : State) (a b : Nat) : Bool :=
  let A := s.grid a
  let B := s.grid b
  let far := 2 ^ 64
  let key (g : Nat) (G : Grid) : List Nat := [7 - s.effPrio g, G.par.deadline.getD far, G.par.queue, g]
  let rec lt : List Nat → List Nat → Bool
    | x :: xs, y :: ys => decide (x < y) || (x == y && lt xs ys)
    | _, _ => false
  lt (key a A) (key b B)

/-- The estimate of a rung (spec 03 R72). -/
def State.estimate (s : State) (ctx : Nat) (K : Kernel) : Option Nat :=
  (s.cp.estimates.find? fun e => e.ctx == ctx && e.kid == K.kid && e.desc == K.addr).map (·.ns)

/-- An estimate used: it becomes the most recently used one. (DESIGN CHOICE, log 150.) -/
def State.touchEstimate (s : State) (ctx : Nat) (K : Kernel) : State :=
  let mine (e : Estimate) : Bool := e.ctx == ctx && e.kid == K.kid && e.desc == K.addr
  { s with cp := { s.cp with estimates := s.cp.estimates.filter mine ++ s.cp.estimates.filter fun e => !mine e } }

/-- A measured duration taken into the estimate (spec 03 R72): at most 4096 pairs are kept. (DEDUCED, log 93.) -/
def State.learn (s : State) (ctx : Nat) (K : Kernel) (d : Nat) : State :=
  let new := match s.estimate ctx K with
    | none => d
    | some e => if e ≤ d then e + (d - e) / 8 else e - (e - d) / 8
  let rest := s.cp.estimates.filter fun e => !(e.ctx == ctx && e.kid == K.kid && e.desc == K.addr)
  { s with cp := { s.cp with estimates := (⟨ctx, K.kid, K.addr, new⟩ :: rest).take 4096 } }

/-- The rung of a launch that becomes eligible at time `t` (spec 03 R73). -/
def State.pickRung (s : State) (G : Grid) (t : Nat) : Nat :=
  match G.par.deadline with
  | none => 0
  | some d =>
    let ok (r : Nat) : Bool := match s.estimate G.par.ctx (G.par.kernels.getD r {}) with
      | none => true
      | some e => decide (t + e ≤ d)
    ((List.range G.par.kernels.length).find? ok).getD (G.par.kernels.length - 1)

/-- Launches that have become eligible pick their rungs, once (spec 03 R73). -/
def State.pickRungs (s : State) : State :=
  ((List.range s.grids.length).filter fun g => !(s.grid g).picked && s.eligible g).foldl (fun s g =>
    let G := s.grid g
    let pick (s : State) (r : Nat) : State := s.modGrid g fun G => { G with rung := r, picked := true }
    if G.par.replay.isSome then pick s G.rung
    else if G.par.deadline.isNone then pick s 0
    else
      let (now, s) := s.lookTime
      let r := s.pickRung G now.toNat
      pick ((G.par.kernels.take (r + 1)).foldl (fun s K => s.touchEstimate G.par.ctx K) s) r) s

/-- BEGIN_DISPATCH: the highest-ordered eligible launch that can begin dispatch does so, with the rung it has picked. -/
def execBeginDispatch (s : State) : Res :=
  let s1 := s.pickRungs
  match (sortBy s1.launchBefore ((List.range s1.grids.length).filter s1.mayBegin)).head? with
  | none => notDue s
  | some g =>
    let (now, s) := s1.lookTime
    let G := s.grid g
    let place := (s.grids.filter fun G => G.begunNo.isSome).length
    let s := s.modGrid g fun G => { G with status := .dispatching, began := now.toNat, begunNo := some place }
    .next (if G.par.recorded then s.recordRung g G.rung else s)

/-- RELEASE_TIME_REACHED. -/
def execReleaseTimeReached (g : Nat) (s : State) : Res :=
  let G := s.grid g
  match G.par.release with
  | none => notDue s
  | some t =>
    if G.released || G.status != .accepted then notDue s
    else .next ((s.timeAtLeast t).modGrid g fun G => { G with released := true })

/-- DEADLINE_REACHED: with DLTRAP every group of the grid takes cause group 22 at its next instruction (spec 03 R74). -/
def execDeadlineReached (g : Nat) (s : State) : Res :=
  let G := s.grid g
  match G.par.deadline with
  | none => notDue s
  | some t =>
    if G.due || G.over then notDue s
    else
      let s := (s.timeAtLeast t).modGrid g fun G => { G with due := true }
      let post (G' : Group) : Group := if G'.ended then G' else { G' with pend22 := some (deadlineCause G) }
      .next (if G.par.dlTrap then
          { s with teams := s.teams.map fun T => if T.grid == g && T.live then { T with groups := T.groups.map post } else T }
        else s)

/-- When a grid is predicted to finish. (DEDUCED, log 151.) -/
def State.predicted (s : State) (g : Nat) : Option Nat :=
  let G := s.grid g
  (s.estimate G.par.ctx G.kernel).map fun e => G.firstDisp.getD G.began + e

/-- The cores of a grid's core set that grids of lower effective priority of its context hold, by priority, lowest first. -/
def State.lowerCores (s : State) (g : Nat) : List (Nat × List Nat) :=
  let G := s.grid g
  let p := s.effPrio g
  let held (k : Nat) : List Nat := (s.teams.filterMap fun T =>
    if T.status == .running && (s.grid T.grid).par.ctx == G.par.ctx && s.effPrio T.grid == k && G.place.allowed.contains T.core
    then some T.core else none).eraseDups
  ((List.range p).map fun k => (k, held k)).filter fun x => !x.2.isEmpty

/-- DEADLINE_PREEMPT_REQUEST: vacates requested for a grid predicted to miss its deadline, once those asked for before have been
served (spec 03 R74). (DEDUCED, log 156.) -/
def execDeadlinePreemptRequest (g : Nat) (s : State) : Res :=
  let G := s.grid g
  let late := match G.par.deadline, s.predicted g with
    | some d, some t => decide (d < t)
    | _, _ => false
  if G.status != .dispatching || G.preempted || !late || (s.lowerCores g).isEmpty then notDue s
  else
    let reqs : List VacReq := (s.lowerCores g).map fun x => ⟨G.par.ctx, x.2, false, some g⟩
    .next ({ s with cp := { s.cp with vacs := s.cp.vacs ++ reqs } }.modGrid g fun G => { G with preempted := true })

/-! ## The ends of teams and grids (spec 07 R144, 14 R286, 17 R362, 21 R416-R418) -/

/-- Whether a card holds a team back: one of its own that has not ended and is not detached with only global regions, or one of a
mate with a region in its scratchpad (spec 17 R362). (DEDUCED, log 101.) -/
def State.cardsHoldTeam (s : State) (t : Nat) : Bool :=
  s.eng.cards.any fun C => !C.ended && ((C.team == t && !(C.detach && s.cardGlobal C)) ||
    (s.cardRegions C.team C).any fun r => r.dom == 256 + t && decide (0 < r.len))

/-- Whether every vertex gradient of a pixel team's groups has been contributed (spec 15 R311). -/
def State.gradientsDone (s : State) (t : Nat) : Bool :=
  let T := s.team t
  match (s.grid T.grid).par.card with
  | none => true
  | some n => (s.card n).kind != kRastAdj || T.groups.all fun G => G.vgradDone || G.pixel.isNone

/-- The fields of a running grid's completion record written as they stand, where the record can be written at once (spec 21 R417).
(DEDUCED, log 155.) -/
def State.fillRecord (s : State) (g : Nat) : State :=
  let G := s.grid g
  match G.par.compl with
  | none => s
  | some a =>
    let w := cpFor G.par.queue G.par.ctx
    let r := G.report
    match s.engGlobal w a 64 .write with
    | .ok s' ps =>
      if ps.any fun p => s'.isPeerKey p.1 then s
      else s'.engStore w ps (leBytes 4 0x47430100 ++ leBytes 4 0 ++ leBytes 4 (gflags r) ++ leBytes 4 r.nerr ++ leBytes 8 0 ++
        leBytes 8 r.errAddr.toNat ++ leBytes 4 r.errKind ++ trapFields r.trap)
    | _ => s

/-- TEAM_END: a team whose groups have all ended, and whose tile operations and cards have ended, ends; failures that no
instruction has met become error entries. -/
def execTeamEnd (t : Nat) (s : State) : Res :=
  let T := s.team t
  if T.status != .running || !(T.groups.all fun G => G.ended) || !(T.tiles.all fun x => x.ops.isEmpty) ||
    s.cardsHoldTeam t || !s.gradientsDone t then notDue s
  else
    let s := s.reportUndelivered T
    .next ((s.modTeam t fun T => { T with status := .ended, tapeFail := [], tiles := T.tiles.map fun x => { x with fails := [] } }).fillRecord
      T.grid)

/-- Whether everything that a grid set in motion has been performed (spec 21 R416). -/
def State.gridQuiet (s : State) (g : Nat) : Bool :=
  let G := s.grid g
  (G.halted || G.report.status != 0 || (decide (G.teamCount ≤ G.place.next) && (G.par.card.isNone || G.walked))) &&
    s.teams.all (fun T => T.grid != g || T.status == .ended || T.status == .discarded) &&
    s.eng.cards.all (fun C => C.grid != g || C.ended || C.detach) &&
    s.grids.all (fun H => H.par.issuer != some g || H.over || (match H.par.card with
      | some n => (s.card n).detach
      | none => true)) &&
    s.fab.requests.all (fun r => r.grid != some g || (match r.kind with
      | .writeback _ => true
      | .evictNotice => true
      | _ => false) || (match r.who with
      | some w => decide (w.2.1 = 255 ∨ w.2.1 = 252) && (s.card w.1).detach
      | none => false))

/-- A grid's completion record (spec 21 Table 21-1). -/
def gridRecord (G : Grid) (missed : Bool) (now : W64) : List Byte :=
  let r := G.report
  leBytes 4 0x47430100 ++ leBytes 4 (gstat r G.rung 0 missed true) ++ leBytes 4 (gflags r) ++ leBytes 4 r.nerr ++
    leBytes 8 now.toNat ++ leBytes 8 r.errAddr.toNat ++ leBytes 4 r.errKind ++ trapFields r.trap

/-- A grid is complete, at a time: its duration is learned. -/
def State.closeGrid (s : State) (g : Nat) (now : W64) : State :=
  let G := s.grid g
  let s := match G.firstDisp, G.par.card with
    | some t, none => s.learn G.par.ctx G.kernel (now.toNat - t)
    | _, _ => s
  s.modGrid g fun G => { G with status := .complete }

/-- GRID_COMPLETE: the record is written with DONE = 1. A launch that was cancelled completes without having begun. -/
def execGridComplete (g : Nat) (s : State) : Res :=
  match s.grids[g]? with
  | none => notDue s
  | some G =>
    let cancelled := G.status == .accepted && G.report.status != 0
    if G.over || (G.status == .accepted && !cancelled) || !s.gridQuiet g then notDue s
    else
      let (now, s) := s.lookTime
      let missed := !cancelled && (match G.par.deadline with
        | some d => decide (d < now.toNat)
        | none => false)
      let late (s : State) : State :=
        if missed then s.logEvent 3 G.par.ctx G.par.ltag (leBytes 8 G.rung ++ leBytes 8 (now.toNat - G.par.deadline.getD 0)) else s
      match G.par.compl with
      | none => .next ((late s).closeGrid g now)
      | some a =>
        match s.writeRecord (cpFor G.par.queue G.par.ctx) (recordOf g) a (gridRecord G missed now) with
        | .done s' => .next ((late s').closeGrid g now)
        | .wait s' => .next s'
        | .no s' =>
          let s' := if cancelled then s'.readError G.par.queue G.par.ctx G.par.ltag (bareRecord 9 0 0 0) else s'.queueStat G.par.queue 2
          .next ((late s').closeGrid g now)

end Sys2Proof.Machine
end

