-- ==== Sys2Proof/Machine/Rational.lean ====
section
/-! DEFINITION. Exact rational arithmetic for the rendering units, and its one rounding to FP32 (spec 02 R46, 09 R191,
15 R304-R318, 16 R333-R341). -/

namespace Sys2Proof.Machine

/-- An exact rational num / den, den above zero. -/
structure Q where
  num : Int
  den : Nat
  deriving DecidableEq, Repr

/-- A quotient in lowest terms. -/
def Q.mk' (n : Int) (d : Nat) : Q :=
  let g := Nat.gcd n.natAbs d
  if g ≤ 1 then ⟨n, d⟩ else ⟨n / (g : Int), d / g⟩

def Q.ofInt (n : Int) : Q := ⟨n, 1⟩
def Q.zero : Q := ⟨0, 1⟩
def Q.one : Q := ⟨1, 1⟩
def Q.add (a b : Q) : Q := Q.mk' (a.num * b.den + b.num * a.den) (a.den * b.den)
def Q.neg (a : Q) : Q := ⟨-a.num, a.den⟩
def Q.sub (a b : Q) : Q := a.add b.neg
def Q.mul (a b : Q) : Q := Q.mk' (a.num * b.num) (a.den * b.den)
/-- The quotient by a number that is not zero. -/
def Q.div (a b : Q) : Q :=
  if decide (b.num < 0) then Q.mk' (-(a.num * b.den)) (a.den * b.num.natAbs) else Q.mk' (a.num * b.den) (a.den * b.num.natAbs)
def Q.lt (a b : Q) : Bool := decide (a.num * b.den < b.num * a.den)
def Q.le (a b : Q) : Bool := decide (a.num * b.den ≤ b.num * a.den)
def Q.isZero (a : Q) : Bool := a.num == 0
def Q.sign (a : Q) : Int := if a.num == 0 then 0 else if decide (a.num < 0) then -1 else 1
/-- The largest integer not above a rational. -/
def Q.floor (a : Q) : Int := Int.fdiv a.num a.den
def Q.min (a b : Q) : Q := if b.lt a then b else a
def Q.max (a b : Q) : Q := if a.lt b then b else a

/-- The value ±m·2^e as a rational; zero for what is not finite. -/
def FVal.toQ : FVal → Q
  | .fin n m e =>
    let v : Int := if n then -(m : Int) else m
    if decide (0 ≤ e) then ⟨v * 2 ^ e.toNat, 1⟩ else Q.mk' v (2 ^ (-e).toNat)
  | _ => Q.zero

/-- Whether a value is a number that is neither NaN nor infinite. -/
def FVal.isFin (v : FVal) : Bool := !v.isNan && !v.isInf

/-- Round(f32, rne, x). An exact zero is +0. -/
def roundQ (x : Q) : Nat × FlagBits :=
  if x.isZero then (0, 0) else fmt32.round .rne (exactDiv (decide (x.num < 0)) x.num.natAbs 0 x.den 0 96)

/-- Round(f32, rne, ±√x) for x not below zero. -/
def roundSqrtQ (neg : Bool) (x : Q) : Nat × FlagBits :=
  if x.isZero then (0, 0)
  else
    let k := 64 + Nat.log2 x.den
    let n := x.num.natAbs * x.den * 2 ^ (2 * k)
    let r := isqrt n
    fmt32.round .rne ⟨neg, r / x.den, -(k : Int), r * r != n || r % x.den != 0⟩

/-- A product of a coefficient and values: what one term of a sum contributes (spec 09 Table 9-1). -/
inductive TermVal where
  | nan (vs : List FVal)
  | invalid
  | inf (neg : Bool)
  | zero (neg : Bool)
  | num (x : Q)

/-- The value of a term. (DEDUCED, log 32.) -/
def termVal (c : Q) (vs : List FVal) : TermVal :=
  let neg := vs.foldl (fun n v => n != v.neg) (decide (c.num < 0))
  if vs.any (·.isNan) then .nan (vs.filter (·.isNan))
  else
    let z := c.isZero || vs.any (·.isZero)
    if vs.any (·.isInf) then (if z then .invalid else .inf neg)
    else if z then .zero neg
    else .num (vs.foldl (fun x v => x.mul v.toQ) c)

/-- One rounding of an exact sum of products (spec 09 R191): NaNs by R56; zero times infinity a NaN of cause 4, both infinities
a NaN of cause 3, each with IV; an exact zero by R57. -/
def termSum (peer : Nat) (ts : List (Q × List FVal)) : Nat × FlagBits :=
  let xs := ts.map fun t => termVal t.1 t.2
  let nans := xs.flatMap fun x => match x with
    | .nan vs => vs
    | _ => []
  let bad := xs.any fun x => match x with
    | .invalid => true
    | _ => false
  let inf (n : Bool) : Bool := xs.any fun x => match x with
    | .inf m => m == n
    | _ => false
  let both := inf true && inf false
  if bad || both || !nans.isEmpty then
    nanResult fmt32 nans ((if bad then [genFrac fmt32 4 peer] else []) ++ if both then [genFrac fmt32 3 peer] else [])
      (if bad || both then flIV else 0)
  else if inf true || inf false then (fmt32.signed (inf true) fmt32.infCode, 0)
  else
    let s := xs.foldl (fun a x => match x with
      | .num q => a.add q
      | _ => a) Q.zero
    if s.isZero then
      (fmt32.signed (!xs.isEmpty && xs.all fun x => match x with
        | .zero n => n
        | _ => false) 0, 0)
    else plusZero fmt32 false (roundQ s)

/-- A single product rounded: the sign of a result that underflows to zero is kept (spec 02 R46). -/
def termProduct (peer : Nat) (c : Q) (vs : List FVal) : Nat × FlagBits :=
  match termVal c vs with
  | .num q => roundQ q
  | _ => termSum peer [(c, vs)]

/-- A vector of three rationals. -/
structure Vec3 where
  x : Q
  y : Q
  z : Q

def Vec3.sub (a b : Vec3) : Vec3 := ⟨a.x.sub b.x, a.y.sub b.y, a.z.sub b.z⟩
def Vec3.neg (a : Vec3) : Vec3 := ⟨a.x.neg, a.y.neg, a.z.neg⟩
/-- The determinant of three columns. -/
def det3 (a b c : Vec3) : Q :=
  let m (p q r s : Q) : Q := (p.mul s).sub (q.mul r)
  ((a.x.mul (m b.y b.z c.y c.z)).sub (a.y.mul (m b.x b.z c.x c.z))).add (a.z.mul (m b.x b.y c.x c.y))
/-- The unit vector of axis `k`. -/
def axis3 (k : Nat) : Vec3 := ⟨if k = 0 then Q.one else Q.zero, if k = 1 then Q.one else Q.zero, if k = 2 then Q.one else Q.zero⟩
/-- Component `k`. -/
def Vec3.at (a : Vec3) (k : Nat) : Q := if k = 0 then a.x else if k = 1 then a.y else a.z

end Sys2Proof.Machine
end

