-- ==== Sys2Proof/Machine/Texture.lean ====
section
/-! DEFINITION. Texture sampling, gathering and the texture adjoint (spec 15 R312, R315, 16 R329-R337). -/

namespace Sys2Proof.Machine

/-! ## What the instructions of major 0x32 share (spec 16 R331) -/

/-- What a lane reads and computes: the reads it has found it needs, the conditions they meet, its contributions as
(address, value), what it pushes and its flags. -/
structure TtLane where
  pre   : List Seg := []
  own   : List Cond := []
  conts : List (Nat × Nat) := []
  out   : LaneOut := {}

/-- A global read of `n` bytes. -/
def rdSeg (a n : Nat) : Seg := ⟨.global, BitVec.ofNat 64 a, n, .read, false⟩

/-- A global range that a helper lane cannot read reads as zero; in any other lane it is read, or asked for. -/
def State.ttBytes (s : State) (c : Inst) (l : Nat) (rep : W64) (g : Seg) : Option (List Byte) :=
  let L := (s.instGrp c).lane l
  if L.helper then
    let a := s.checkLane c l { pre := [g], rep := rep }
    if !a.conds.isEmpty || !a.pages.isEmpty then some (List.replicate g.len 0) else s.laneBytes c l false rep g
  else s.laneBytes c l false rep g

/-- The condition of a descriptor's address that leaves the address space (spec 11 Table 11-1 row 2, 10 R196). -/
def formCond (a rep : W64) : List Cond := if decide (2 ^ 57 ≤ a.toNat) then [⟨201, 7, 1, kindAux 0, rep⟩] else []

/-- The reads a lane asks for: a helper lane does not ask for what it cannot reach. -/
def State.ttAsk (s : State) (c : Inst) (l : Nat) (rep : W64) (gs : List Seg) : List Seg :=
  if ((s.instGrp c).lane l).helper then
    gs.filter fun g =>
      let a := s.checkLane c l { pre := [g], rep := rep }
      a.conds.isEmpty && a.pages.isEmpty
  else gs

/-- The words of a lane's contributions. -/
def contWords (ks : List (Nat × Bool)) : List Nat := (indexed ks).filterMap fun x => if x.1 % 4 == 0 then some x.2.1 else none

/-- An instruction of major 0x32 as a memory instruction (spec 16 R331): `lane` gives what each lane reads, sends and pushes,
`rep` its address operand, `key` its ordering key, `n` the slots pushed. (DEDUCED, log 64.) -/
def ttInst (n : Nat) (rep : Group → Nat → W64) (key : Group → Nat → W32) (lane : State → Inst → Nat → TtLane)
    (f : V4) (m : Mods) (s : State) : Res :=
  withInst s fun c =>
    let G := s.instGrp c
    let T := s.team c.team
    let ctx := s.ctxOf c.team
    let x (l : Nat) : TtLane := lane s c l
    let sent (l : Nat) : List (Nat × Nat) := if (G.lane l).helper then [] else (x l).conts
    let lid (l : Nat) : Nat := s.lid c.team c.group l
    let send (l : Nat) (ks : List (Nat × Bool)) (s : State) : State :=
      ((sent l).zip (contWords ks)).foldl (fun s y =>
        s.addContribution ⟨ctx, y.2, BitVec.ofNat 64 y.1.1, key G l, BitVec.ofNat 64 (lid l), 0, BitVec.ofNat 32 y.1.2,
          T.grid, T.core, c.team, c.group⟩) s
    memInst c m (activeOf s c f.g.toNat (guardNeg m))
      { req := fun l =>
          let y := x l
          { pre := y.pre, rep := rep G l, own := y.own
            segs := (sent l).map fun z => ⟨.global, BitVec.ofNat 64 z.1, 4, .scatter, false⟩ }
        pushes := n
        zero := fun _ => zeroPushes n
        helper := .reads
        perform := fun l ks s => (send l ks s, (x l).out)
        after := fun xs s =>
          let slices := ((xs.flatMap fun y => contWords y.2).map scatSlice).eraseDups
          if slices.isEmpty then s else s.scatUsed ctx slices
        late := fun xs =>
          -- a lane whose texels miss a page already tells the words it adds to
          let new := xs.flatMap fun y => (contWords y.2.keys).map fun k => (y.1, k)
          let all := new.map (·.2)
          (new.filter fun y => s.scatOver ctx all y.2).map fun y => (y.1, ⟨801, 15, 0, scatSlice y.2, rep G y.1⟩)
        plain := true } s

/-! ## Descriptors (spec 15 Table 15-1, 16 R332) -/

/-- A texture descriptor. -/
structure TexDesc where
  top   : Nat
  wrapv : Nat
  wrapu : Nat
  filt  : Nat
  ch    : Nat
  fmt   : Nat
  w     : Nat
  h     : Nat
  base  : Nat
  grad  : Nat

/-- Bytes of a channel. -/
def texBytes (fmt : Nat) : Nat := if fmt == 2 then 4 else if fmt == 0x14 then 1 else 2

/-- The descriptor that 64 bytes hold; none when it is invalid. -/
def parseTex (bs : List Byte) : Option TexDesc :=
  let f (off len : Nat) : Nat := fieldAt bs off len
  let c := f 4 4
  let bad (a : Nat) : Bool := a % 128 != 0 || decide (2 ^ 57 ≤ a)
  if f 0 4 != 0x54580100 || bitsOf c 20 12 != 0 || !((bs.drop 0x20).all fun b => b == 0) || bitsOf c 16 4 == 0 ||
    bitsOf c 10 2 == 3 || !([2, 3, 4, 0x14].contains (bitsOf c 0 8)) || outside (f 8 4) 1 65536 || outside (f 0xC 4) 1 65536 ||
    bad (f 0x10 8) || bad (f 0x18 8) then none
  else some ⟨bitsOf c 16 4 - 1, bitsOf c 14 2, bitsOf c 12 2, bitsOf c 10 2, bitsOf c 8 2 + 1, bitsOf c 0 8, f 8 4, f 0xC 4,
    f 0x10 8, f 0x18 8⟩
where
  /-- Whether a number lies outside limits. -/
  outside (x lo hi : Nat) : Bool := decide (x < lo) || decide (hi < x)

/-- Width and height of a level. -/
def TexDesc.dims (d : TexDesc) (n : Nat) : Nat × Nat := (max 1 (d.w / 2 ^ n), max 1 (d.h / 2 ^ n))

/-- The offset of a level, for texels of `t` bytes. -/
def TexDesc.levelAt (d : TexDesc) (n t : Nat) : Nat :=
  (List.range n).foldl (fun o k => ceilDiv (o + (d.dims k).1 * (d.dims k).2 * t) 128 * 128) 0

/-- Bytes of a texel. -/
def TexDesc.texel (d : TexDesc) : Nat := texBytes d.fmt * d.ch

/-! ## Footprints (spec 16 R333) -/

/-- An index reduced on an axis of extent `e`; none for a border entry. -/
def texWrap (mode e : Nat) (x : Int) : Option Nat :=
  match mode with
  | 0 => some (x.emod e).toNat
  | 1 => some (min (max x 0) ((e : Int) - 1)).toNat
  | 2 =>
    let y := (x.emod (2 * e)).toNat
    some (if y < e then y else 2 * e - 1 - y)
  | _ => if decide (0 ≤ x) && decide (x < e) then some x.toNat else none

/-- An entry: its texel (level, i, j) after wrapping, none for a border entry, and its weight within its level. -/
structure TexEntry where
  at_ : Option (Nat × Nat × Nat)
  w   : Q

/-- A level of a footprint: its weight, the fractions, and its entries in order. -/
structure TexLevel where
  n  : Nat
  lw : Q
  fi : Q
  fj : Q
  es : List TexEntry

/-- One half. -/
def qHalf : Q := ⟨1, 2⟩

/-- The entry of a texel index. -/
def TexDesc.entry (d : TexDesc) (n : Nat) (i j : Int) (w : Q) : TexEntry :=
  let e := d.dims n
  { at_ := match texWrap d.wrapv e.2 i, texWrap d.wrapu e.1 j with
      | some a, some b => some (n, a, b)
      | _, _ => none
    w := w }

/-- The four bilinear entries of a level. -/
def TexDesc.bilinear (d : TexDesc) (n : Nat) (lw u v : Q) : TexLevel :=
  let e := d.dims n
  let s := (u.mul (Q.ofInt e.1)).sub qHalf
  let t := (v.mul (Q.ofInt e.2)).sub qHalf
  let j := s.floor
  let i := t.floor
  let fj := s.sub (Q.ofInt j)
  let fi := t.sub (Q.ofInt i)
  let gj := Q.one.sub fj
  let gi := Q.one.sub fi
  { n := n, lw := lw, fi := fi, fj := fj
    es := [d.entry n i j (gi.mul gj), d.entry n i (j + 1) (gi.mul fj), d.entry n (i + 1) j (fi.mul gj),
      d.entry n (i + 1) (j + 1) (fi.mul fj)] }

/-- Level n0 and the blend f, for a level of detail. -/
def TexDesc.level (d : TexDesc) (lam : FVal) : Nat × Q :=
  match lam with
  | .nan _ _ => (0, Q.zero)
  | .inf n => (if n then 0 else d.top, Q.zero)
  | v =>
    let x := v.toQ
    let n0 := (min (max x.floor 0) d.top).toNat
    if x.lt Q.zero || d.filt != 2 then (n0, Q.zero)
    else if n0 < d.top then (n0, x.sub (Q.ofInt n0))
    else (n0, Q.zero)

/-- The flag of a level of detail that is a signalling NaN (spec 02 R40, R51). -/
def levelFlags (lam : FVal) : FlagBits := match lam with
  | .nan true _ => flIV
  | _ => 0

/-- The levels of a footprint, zero-weight entries kept. -/
def TexDesc.levels (d : TexDesc) (u v : Q) (lam : FVal) : List TexLevel :=
  let (n0, f) := d.level lam
  let e := d.dims n0
  if d.filt == 0 then
    [{ n := n0, lw := Q.one, fi := Q.zero, fj := Q.zero
       es := [d.entry n0 (v.mul (Q.ofInt e.2)).floor (u.mul (Q.ofInt e.1)).floor Q.one] }]
  else if f.isZero then [d.bilinear n0 Q.one u v]
  else [d.bilinear n0 (Q.one.sub f) u v, d.bilinear (n0 + 1) f u v]

/-- The footprint: entries of non-zero weight in order, with their weights. (DEDUCED, log 65.) -/
def footprint (ls : List TexLevel) : List (Option (Nat × Nat × Nat) × Q) :=
  ls.flatMap fun y => (y.es.map fun e => (e.at_, y.lw.mul e.w)).filter fun e => !e.2.isZero

/-! ## Texels (spec 16 R334) -/

/-- The bytes of texels that have been read. -/
abbrev Texels := List ((Nat × Nat × Nat) × List Byte)

/-- The address of a texel. -/
def TexDesc.addr (d : TexDesc) (p : Nat × Nat × Nat) : Nat :=
  d.base + d.levelAt p.1 d.texel + (p.2.1 * (d.dims p.1).1 + p.2.2) * d.texel

/-- The value of a channel in FP32's terms, with the coefficient that it carries (1 / 255 for INT8). -/
def texValue (fmt peer : Nat) (raw : Nat) : Q × FVal :=
  if fmt == 0x14 then (⟨1, 255⟩, .fin false raw 0)
  else
    let g := if fmt == 2 then fmt32 else if fmt == 3 then fmt16 else fmtBf
    match g.value raw with
    | .nan sig fr => (Q.one, .nan sig (convFrac g fmt32 fr peer))
    | v => (Q.one, v)

/-- A channel of an entry: a border entry reads as zero. -/
def TexDesc.chan (d : TexDesc) (peer : Nat) (ts : Texels) (p : Option (Nat × Nat × Nat)) (c : Nat) : Q × FVal :=
  match p.bind fun q => ts.find? fun t => t.1 == q with
  | some t => texValue d.fmt peer (fieldAt t.2 (texBytes d.fmt * c) (texBytes d.fmt))
  | none => (Q.one, .fin false 0 0)

/-- A term of a sum: a coefficient times values, one of them a channel. -/
def chanTerm (k : Q) (g : List FVal) (v : Q × FVal) : Q × List FVal := (k.mul v.1, g ++ [v.2])

/-! ## The instructions -/

/-- The texture instructions. -/
inductive TexKind where
  | sample
  | gather
  | adjoint
  deriving DecidableEq, Repr

/-- The generated NaN that stands for a result of coordinates that are no numbers. -/
def coordNan (peer : Nat) : W32 := BitVec.ofNat 32 (genNan fmt32 5 peer)

/-- TEXS: the sampled channels (spec 16 R335). -/
def texSample (d : TexDesc) (peer : Nat) (ls : List TexLevel) (ts : Texels) : List W32 × FlagBits :=
  let fp := footprint ls
  let rs := (List.range d.ch).map fun c => termSum peer (fp.map fun e => chanTerm e.2 [] (d.chan peer ts e.1 c))
  (rs.map fun r => BitVec.ofNat 32 r.1, rs.foldl (fun f r => f ||| r.2) 0)

/-- One gathered texel's channel (spec 16 R336). (DEDUCED, log 66.) -/
def texGathered (d : TexDesc) (peer : Nat) (ts : Texels) (p : Option (Nat × Nat × Nat)) (c : Nat) : Nat × FlagBits :=
  match p.bind fun q => ts.find? fun t => t.1 == q with
  | none => (0, 0)
  | some t =>
    let raw := fieldAt t.2 (texBytes d.fmt * c) (texBytes d.fmt)
    if d.fmt == 2 then (raw, 0)
    else if d.fmt == 0x14 then roundQ ⟨raw, 255⟩
    else fpConvert (if d.fmt == 3 then fmt16 else fmtBf) fmt32 .rne peer raw

/-- TEXADJ: the coordinate gradients; a product whose coefficient is zero, by its weight or by the upstream gradient, is absent
(spec 16 R337). -/
def texGrads (d : TexDesc) (peer : Nat) (ls : List TexLevel) (ts : Texels) (g : Nat → FVal) : List W32 × FlagBits :=
  let chs := (List.range d.ch).filter fun c => !(g c).isZero
  let part (sel : TexLevel → List (Q × Nat × Nat)) : Nat × FlagBits :=
    termSum peer (ls.flatMap fun y => chs.flatMap fun c =>
      let at_ (k : Nat) : Q × FVal := d.chan peer ts ((y.es[k]?).bind (·.at_)) c
      ((sel y).filter fun z => !z.1.isZero).flatMap fun z =>
        [chanTerm z.1 [g c] (at_ z.2.1), chanTerm z.1.neg [g c] (at_ z.2.2)])
  let one (a : Q) : Q := Q.one.sub a
  let du := part fun y =>
    let k := y.lw.mul (Q.ofInt (d.dims y.n).1)
    [(k.mul (one y.fi), 1, 0), (k.mul y.fi, 3, 2)]
  let dv := part fun y =>
    let k := y.lw.mul (Q.ofInt (d.dims y.n).2)
    [(k.mul (one y.fj), 2, 0), (k.mul y.fj, 3, 1)]
  let dl : Nat × FlagBits := match ls with
    | [_, _] => termSum peer ((indexed ls).flatMap fun y => chs.flatMap fun c =>
        (y.2.es.filter fun e => !e.w.isZero).map fun e =>
          chanTerm (if y.1 = 0 then e.w.neg else e.w) [g c] (d.chan peer ts e.at_ c))
    | _ => (0, 0)
  if d.filt == 0 then ([0, 0, 0, 0], 0)
  else ([BitVec.ofNat 32 du.1, BitVec.ofNat 32 dv.1, BitVec.ofNat 32 dl.1, 0], du.2 ||| dv.2 ||| dl.2)

/-- TEXADJ: the texel gradients as (address, value), with their flags. -/
def texConts (d : TexDesc) (peer : Nat) (ls : List TexLevel) (g : Nat → FVal) : List (Nat × Nat) × FlagBits :=
  if d.grad == 0 then ([], 0)
  else
    let t := 4 * d.ch
    let xs := (footprint ls).flatMap fun e => match e.1 with
      | none => []
      | some p => (List.range d.ch).map fun c =>
          let a := d.grad + d.levelAt p.1 t + (p.2.1 * (d.dims p.1).1 + p.2.2) * t + 4 * c
          (a, termProduct peer e.2 [g c])
    (xs.map fun x => (x.1, x.2.1), xs.foldl (fun f x => f ||| x.2.2) 0)

/-- Four words with those from `n` on zero. -/
def firstWords (n : Nat) (w : W32) : List W32 := (List.range 4).map fun i => if i < n then w else 0

/-- The index of an idle destination field. -/
def noDest : BitVec 6 := 63

/-- What a lane of a texture instruction reads and computes. -/
def texLane (k : TexKind) (f : V4) (m : Mods) (s : State) (c : Inst) (l : Nat) : TtLane :=
  let G := s.instGrp c
  let peer := s.peerNo
  let a := src G m l f.a .b64
  let bad : List Cond := [⟨306, 8, 10, 0, a⟩]
  let hd := rdSeg a.toNat 64
  if a.toNat % 64 != 0 then { own := formCond a a ++ bad }
  else
    match s.laneBytes c l false a hd with
    | none => { pre := [hd] }
    | some bs =>
      match parseTex bs with
      | none => { pre := [hd], own := bad }
      | some d =>
        let B := srcWords G l f.b 4
        let co (i : Nat) : FVal := fmt32.value (B.getD i 0).toNat
        let chn := (src32 G m l f.c).toNat % 4
        let up := srcWords G l f.c 4
        let g (i : Nat) : FVal := fmt32.value (up.getD i 0).toNat
        if !(co 0).isFin || !(co 1).isFin then
          let n := match k with
            | .sample => d.ch
            | .gather => if d.ch ≤ chn then 0 else 4
            | .adjoint => 3
          { pre := [hd], out := outWords noDest (firstWords n (coordNan peer)) flIV }
        else
          let sig : FlagBits := if k == .adjoint && (List.range d.ch).any fun c => (g c).isSig then flIV else 0
          let lf := levelFlags (co 2) ||| sig
          let u := (co 0).toQ
          let v := (co 1).toQ
          let ls : List TexLevel := match k with
            | .gather => [d.bilinear (d.level (co 2)).1 Q.one u v]
            | _ => d.levels u v (co 2)
          let all := ls.flatMap fun y => y.es.filterMap (·.at_)
          let want : List (Nat × Nat × Nat) := match k with
            | .sample => (footprint ls).filterMap (·.1)
            | .gather => all
            | .adjoint => if d.filt == 0 then (footprint ls).filterMap (·.1) else all
          let segs : List ((Nat × Nat × Nat) × Seg) := want.eraseDups.map fun p => (p, rdSeg (d.addr p) d.texel)
          let pre := hd :: s.ttAsk c l a (segs.map (·.2))
          let conts : List (Nat × Nat) × FlagBits := match k with
            | .adjoint => texConts d peer ls g
            | _ => ([], 0)
          match segs.mapM fun x => (s.ttBytes c l a x.2).map fun b => (x.1, b) with
          | none => { pre := pre, conts := conts.1 }
          | some ts =>
            match k with
            | .sample =>
              let r := texSample d peer ls ts
              { pre := pre, out := outWords noDest ((List.range 4).map fun i => r.1.getD i 0) (r.2 ||| lf) }
            | .gather =>
              let rs : List (Nat × FlagBits) := if d.ch ≤ chn then List.replicate 4 (0, 0) else all4 ls fun p => texGathered d peer ts p chn
              { pre := pre, out := outWords noDest (rs.map fun r => BitVec.ofNat 32 r.1) (rs.foldl (fun f r => f ||| r.2) lf) }
            | .adjoint =>
              let r := texGrads d peer ls ts g
              { pre := pre, conts := conts.1, out := outWords noDest r.1 (r.2 ||| conts.2 ||| lf) }
where
  /-- A function of the four entries of a gather. -/
  all4 (ls : List TexLevel) (f : Option (Nat × Nat × Nat) → Nat × FlagBits) : List (Nat × FlagBits) :=
    ls.flatMap fun y => y.es.map fun e => f e.at_

/-- A texture instruction. -/
def texInst (k : TexKind) (f : V4) (m : Mods) (s : State) : Res :=
  ttInst 2 (fun G l => src G m l f.a .b64) (fun G l => (srcWords G l f.b 4).getD 3 0) (texLane k f m) f m s

/-- TEXS. -/
def execTexs (f : V4) (m : Mods) (s : State) : Res := texInst .sample f m s
/-- TEXG. -/
def execTexg (f : V4) (m : Mods) (s : State) : Res := texInst .gather f m s
/-- TEXADJ. -/
def execTexadj (f : V4) (m : Mods) (s : State) : Res := texInst .adjoint f m s

end Sys2Proof.Machine
end

