-- ==== Sys2Proof/Machine/Traverse.lean ====
section
/-! DEFINITION. Ray traversal, its adjoint, and the read of boundary samples (spec 15 R313-R315, 16 R338-R342). -/

namespace Sys2Proof.Machine

/-! ## Structures (spec 15 R313, 16 R338) -/

/-- The header of a traversal structure. -/
structure BvhHead where
  nodes : Nat
  tris  : Nat
  nnode : Nat
  ntri  : Nat
  grad  : Nat

/-- The header that 64 bytes hold; none when it is invalid. -/
def parseBvh (bs : List Byte) : Option BvhHead :=
  let f (off len : Nat) : Nat := fieldAt bs off len
  let far (a : Nat) : Bool := decide (2 ^ 57 ≤ a)
  if f 0 4 != 0x42560100 || f 4 4 != 0 || !((bs.drop 0x28).all fun b => b == 0) || f 0x18 4 == 0 || f 8 8 % 64 != 0 ||
    f 0x10 8 % 16 != 0 || f 0x20 8 % 4 != 0 || far (f 8 8) || far (f 0x10 8) || far (f 0x20 8) then none
  else some ⟨f 8 8, f 0x10 8, f 0x18 4, f 0x1C 4, f 0x20 8⟩

/-- An FP32 field of bytes. -/
def f32At (bs : List Byte) (off : Nat) : FVal := fmt32.value (fieldAt bs off 4)

/-- Three FP32 fields. -/
def vecAt (bs : List Byte) (off : Nat) : List FVal := (List.range 3).map fun i => f32At bs (off + 4 * i)

/-- The vector of three finite values. -/
def vecOf (vs : List FVal) : Vec3 :=
  ⟨(vs.getD 0 (.fin false 0 0)).toQ, (vs.getD 1 (.fin false 0 0)).toQ, (vs.getD 2 (.fin false 0 0)).toQ⟩

/-- The ray operand: origin, direction, and the bounds of t. -/
structure Ray where
  o    : Vec3
  d    : Vec3
  tmin : FVal
  tmax : FVal

/-! ## Box tests (spec 16 R339) -/

/-- A set of ray parameters: a closed interval, unbounded where an end is none. -/
structure Span where
  lo : Option Q
  hi : Option Q

/-- The intersection of two closed intervals. -/
def Span.meet (a b : Span) : Span :=
  let pick (f : Q → Q → Q) : Option Q → Option Q → Option Q
    | some x, some y => some (f x y)
    | some x, none => some x
    | none, y => y
  ⟨pick Q.max a.lo b.lo, pick Q.min a.hi b.hi⟩

/-- Whether a closed interval holds a number. -/
def Span.inhabited (a : Span) : Bool := match a.lo, a.hi with
  | some x, some y => x.le y
  | _, _ => true

/-- The parameters from tmin to tmax; none when there is none. -/
def Ray.span (r : Ray) : Option Span :=
  match r.tmin, r.tmax with
  | .inf false, _ => none
  | _, .inf true => none
  | a, b => some ⟨if a.isInf then none else some a.toQ, if b.isInf then none else some b.toQ⟩

/-- The parameters for which o + t·d lies between two bounds; none when there is none. -/
def slab (o d : Q) (lo hi : FVal) : Option Span :=
  match lo, hi with
  | .inf false, _ => none
  | _, .inf true => none
  | _, _ =>
    let a : Option Q := if lo.isInf then none else some (lo.toQ.sub o)
    let b : Option Q := if hi.isInf then none else some (hi.toQ.sub o)
    if d.isZero then
      (if (match a with
          | some x => decide (x.num ≤ 0)
          | none => true) && (match b with
          | some y => decide (0 ≤ y.num)
          | none => true) then some ⟨none, none⟩ else none)
    else if decide (0 < d.num) then some ⟨a.map fun x => x.div d, b.map fun y => y.div d⟩
    else some ⟨b.map fun y => y.div d, a.map fun x => x.div d⟩

/-- Whether the ray's segment meets a box: a box with a NaN bound is met. (DEDUCED, log 189.) -/
def Ray.meets (r : Ray) (box : List FVal) : Bool :=
  if box.any (·.isNan) then true
  else
    match r.span with
    | none => false
    | some s0 =>
      let zero : FVal := .fin false 0 0
      let step (acc : Option Span) (k : Nat) : Option Span :=
        match acc, slab (r.o.at k) (r.d.at k) (box.getD k zero) (box.getD (k + 3) zero) with
        | some a, some b => some (a.meet b)
        | _, _ => none
      match (List.range 3).foldl step (some s0) with
      | some s => s.inhabited
      | none => false

/-! ## Triangles (spec 16 R339) -/

/-- The exact solution for a triangle: D, and t, b1, b2 when D is not zero. -/
structure TriSol where
  det : Q
  t   : Q
  b1  : Q
  b2  : Q

/-- The solution of R339 for a triangle with finite vertices. -/
def Ray.solve (r : Ray) (v0 v1 v2 : Vec3) : TriSol :=
  let e1 := v1.sub v0
  let e2 := v2.sub v0
  let w := r.o.sub v0
  let d := r.d.neg
  let D := det3 d e1 e2
  if D.isZero then ⟨D, Q.zero, Q.zero, Q.zero⟩
  else ⟨D, (det3 w e1 e2).div D, (det3 d w e2).div D, (det3 d e1 w).div D⟩

/-- Whether a number lies in the ray's closed interval. -/
def Ray.holds (r : Ray) (t : Q) : Bool :=
  match r.span with
  | none => false
  | some s => (match s.lo with
      | some x => x.le t
      | none => true) && (match s.hi with
      | some y => t.le y
      | none => true)

/-- Whether a solution is a hit. -/
def Ray.hits (r : Ray) (x : TriSol) : Bool :=
  !x.det.isZero && decide (0 ≤ x.b1.num) && decide (0 ≤ x.b2.num) && (x.b1.add x.b2).le Q.one && r.holds x.t

/-! ## The walk (spec 15 R314, 16 R338) -/

/-- A child reference that the ray meets. -/
inductive ChildRef where
  | none
  | bad
  | inner (n : Nat)
  | leaf (first count : Nat)
  deriving DecidableEq, Repr

/-- The reference that a child word holds. -/
def childRef (h : BvhHead) (w : Nat) : ChildRef :=
  if w == 2 ^ 64 - 1 then .none
  else if bitsOf w 63 1 == 1 then
    let n := bitsOf w 32 24
    let first := bitsOf w 0 32
    if n == 0 || decide (h.ntri < first + n) then .bad else .leaf first n
  else if bitsOf w 32 31 != 0 then .bad
  else if decide (h.nnode ≤ bitsOf w 0 32) then .bad
  else .inner (bitsOf w 0 32)

/-- The references of a node whose boxes the ray meets. -/
def Ray.refs (r : Ray) (h : BvhHead) (node : List Byte) : List ChildRef :=
  (List.range 2).filterMap fun i =>
    let x := childRef h (fieldAt node (48 + 8 * i) 8)
    if x != .none && r.meets (vecAt node (24 * i) ++ vecAt node (24 * i + 12)) then some x else none

/-- What a walk has found: the reads it needs, whether one of them is not to be had yet, and a bad reference. -/
structure WalkOut where
  segs   : List Seg := []
  waits  : Bool := false
  bad    : Bool := false

/-- A read whose bytes are on their way, or zero in a helper lane. -/
abbrev TtRead := Seg → Option (List Byte)

/-- The inner nodes of one depth after another by the references that `refs` takes of each, the root at depth 0: a reference met in a
node below which 64 inner nodes lie on the path is bad. (DEDUCED, log 68.) -/
def walkNodes (rd : TtRead) (h : BvhHead) (refs : List Byte → List ChildRef) : Nat → List Nat → WalkOut → WalkOut
  | _, [], w => w
  | 0, _, w => w
  | fuel + 1, ns, w =>
    let seg (n : Nat) : Seg := rdSeg (h.nodes + 64 * n) 64
    let got := ns.map fun n => rd (seg n)
    let met := got.flatMap fun b => match b with
      | some bs => refs bs
      | none => []
    let w := { w with
      segs := w.segs ++ ns.map seg
      waits := w.waits || got.any Option.isNone
      bad := w.bad || met.contains .bad || (fuel == 0 && !met.isEmpty) }
    walkNodes rd h refs fuel (met.filterMap fun x => match x with
      | .inner n => some n
      | _ => none).eraseDups w

/-- The bytes of a triangle record. (DEDUCED, log 67.) -/
def triSeg (h : BvhHead) (n : Nat) : Seg := rdSeg (h.tris + 48 * n) 48

/-- The vertices of a triangle record. -/
def triVerts (bs : List Byte) : List FVal := vecAt bs 0 ++ vecAt bs 12 ++ vecAt bs 24

/-- The solution for a triangle record, none when a vertex is not finite. -/
def Ray.solveTri (r : Ray) (bs : List Byte) : Option TriSol :=
  let vs := triVerts bs
  if vs.all (·.isFin) then some (r.solve (vecOf (vs.take 3)) (vecOf ((vs.drop 3).take 3)) (vecOf (vs.drop 6))) else none

/-- The nearest hit among triangles: smallest t, then lowest index. -/
def Ray.nearest (r : Ray) (ts : List (Nat × List Byte)) : Option (Nat × TriSol) :=
  ts.foldl (fun best x =>
    match r.solveTri x.2 with
    | none => best
    | some y =>
      if !r.hits y then best
      else
        match best with
        | none => some (x.1, y)
        | some (i, z) => if y.t.lt z.t || (!z.t.lt y.t && decide (x.1 < i)) then some (x.1, y) else best) none

/-! ## TRACE (spec 16 R340) -/

/-- The result of a miss. -/
def missOut (fl : FlagBits) : LaneOut := outWords noDest [BitVec.ofNat 32 fmt32.infCode, 0, 0, 0xFFFFFFFF] fl

/-- The result of a hit. -/
def hitOut (i : Nat) (x : TriSol) : LaneOut :=
  let t := roundQ x.t
  let a := roundQ x.b1
  let b := roundQ x.b2
  outWords noDest [BitVec.ofNat 32 t.1, BitVec.ofNat 32 a.1, BitVec.ofNat 32 b.1, BitVec.ofNat 32 i] (t.2 ||| a.2 ||| b.2)

/-- The eight words of the ray operand as values. -/
def rayWords (G : Group) (f : V4) (l : Nat) : List W32 := srcWords G l f.b 8

/-- What a lane of TRACE or TRACEADJ does once its header has been read: its pending reads are `pre`. -/
def bvhLane (f : V4) (m : Mods) (s : State) (c : Inst) (l : Nat) (k : BvhHead → List Seg → List Cond → TtLane) : TtLane :=
  let a := src (s.instGrp c) m l f.a .b64
  let bad : List Cond := [⟨307, 8, 11, 0, a⟩]
  let hd := rdSeg a.toNat 64
  if a.toNat % 64 != 0 then { own := formCond a a ++ bad }
  else
    match s.laneBytes c l false a hd with
    | none => { pre := [hd] }
    | some bs =>
      match parseBvh bs with
      | none => { pre := [hd], own := bad }
      | some h => k h [hd] bad

/-- A lane of TRACE: it checks the references whose boxes the ray meets, and the hit ranges over every triangle of the structure,
whatever the boxes say (spec 15 R314, 16 R338). (DEDUCED, log 184.) -/
def traceLane (f : V4) (m : Mods) (s : State) (c : Inst) (l : Nat) : TtLane :=
  let G := s.instGrp c
  let a := src G m l f.a .b64
  let w := (rayWords G f l).map fun x => fmt32.value x.toNat
  let at_ (i : Nat) : FVal := w.getD i (.fin false 0 0)
  bvhLane f m s c l fun h pre bad =>
    if !([0, 1, 2, 4, 5, 6].all fun i => (at_ i).isFin) || (at_ 3).isNan || (at_ 7).isNan then { pre := pre, out := missOut flIV }
    else
      let r : Ray := ⟨vecOf (w.take 3), vecOf ((w.drop 4).take 3), at_ 3, at_ 7⟩
      let rd : TtRead := fun g => s.ttBytes c l a g
      let x := walkNodes rd h (r.refs h) 64 [0] {}
      let pre := pre ++ s.ttAsk c l a (x.segs ++ (List.range h.ntri).map (triSeg h))
      let own : List Cond := if x.bad then bad else []
      let ts := (List.range h.ntri).filterMap fun n => (rd (triSeg h n)).map fun b => (n, b)
      { pre := pre, own := own
        out := match r.nearest ts with
          | some (i, y) => hitOut i y
          | none => missOut 0 }

/-- TRACE. -/
def execTrace (f : V4) (m : Mods) (s : State) : Res :=
  ttInst 2 (fun G l => src G m l f.a .b64) (fun _ _ => 0) (traceLane f m) f m s

/-! ## TRACEADJ (spec 16 R341) -/

/-- The gradient of a quantity: the upstream gradients times the partial derivatives of t, b1 and b2. -/
def gradOf (peer : Nat) (g : List FVal) (scale : Q) (col : List Q) : Nat × FlagBits :=
  termSum peer ((g.zip col).map fun x => (scale.mul x.2, [x.1]))

/-- Column k of the inverse of the system of R339: the derivatives of t, b1 and b2 by the origin's component k. -/
def invColumn (r : Ray) (v0 v1 v2 : Vec3) (D : Q) (k : Nat) : List Q :=
  let e1 := v1.sub v0
  let e2 := v2.sub v0
  let d := r.d.neg
  let u := axis3 k
  [(det3 u e1 e2).div D, (det3 d u e2).div D, (det3 d e1 u).div D]

/-- Every gradient of one triangle: of its nine vertex coordinates, of the origin and of the direction. -/
def triGrads (peer : Nat) (r : Ray) (vs : List FVal) (g : List FVal) :
    List (Nat × FlagBits) × List (Nat × FlagBits) × List (Nat × FlagBits) :=
  let v0 := vecOf (vs.take 3)
  let v1 := vecOf ((vs.drop 3).take 3)
  let v2 := vecOf (vs.drop 6)
  let x := r.solve v0 v1 v2
  let col (k : Nat) : List Q := invColumn r v0 v1 v2 x.det k
  let along (scale : Q) : List (Nat × FlagBits) := (List.range 3).map fun k => gradOf peer g scale (col k)
  (along ((x.b1.add x.b2).sub Q.one) ++ along x.b1.neg ++ along x.b2.neg, along Q.one, along x.t)

/-- A lane of TRACEADJ. (DEDUCED, log 69.) -/
def traceadjLane (f : V4) (m : Mods) (s : State) (c : Inst) (l : Nat) : TtLane :=
  let G := s.instGrp c
  let peer := s.peerNo
  let a := src G m l f.a .b64
  let ws := rayWords G f l
  let w := ws.map fun x => fmt32.value x.toNat
  let at_ (i : Nat) : FVal := w.getD i (.fin false 0 0)
  let n := (ws.getD 3 0).toNat
  let g := ((srcWords G l f.c 4).take 3).map fun x => fmt32.value x.toNat
  let flags (xs : List (Nat × FlagBits)) : FlagBits := xs.foldl (fun f x => f ||| x.2) 0
  let word (xs : List (Nat × FlagBits)) (i : Nat) : W32 := BitVec.ofNat 32 (xs.getD i (0, 0)).1
  bvhLane f m s c l fun h pre bad =>
    let sig : FlagBits := if g.any (·.isSig) then flIV else 0
    if decide (h.ntri ≤ n) then { pre := pre, own := bad }
    else
      let pre := pre ++ s.ttAsk c l a [triSeg h n]
      match s.ttBytes c l a (triSeg h n) with
      | none => { pre := pre }
      | some bs =>
        let vs := triVerts bs
        if !(vs.all (·.isFin)) || !([0, 1, 2, 4, 5, 6].all fun i => (at_ i).isFin) then
          { pre := pre, out := outWords noDest (List.replicate 8 (coordNan peer)) flIV }
        else
          let r : Ray := ⟨vecOf (w.take 3), vecOf ((w.drop 4).take 3), .fin false 0 0, .fin false 0 0⟩
          if (r.solve (vecOf (vs.take 3)) (vecOf ((vs.drop 3).take 3)) (vecOf (vs.drop 6))).det.isZero then
            { pre := pre, out := outWords noDest (List.replicate 8 0) sig }
          else
            let (gv, go, gd) := triGrads peer r vs g
            let out := outWords noDest [word go 0, word go 1, word go 2, 0, word gd 0, word gd 1, word gd 2, 0]
              (sig ||| flags go ||| flags gd ||| if h.grad == 0 then 0 else flags gv)
            { pre := pre, out := out
              conts := if h.grad == 0 then [] else (indexed gv).map fun x => (h.grad + 36 * n + 4 * x.1, x.2.1) }

/-- TRACEADJ. -/
def execTraceadj (f : V4) (m : Mods) (s : State) : Res :=
  ttInst 4 (fun G l => src G m l f.a .b64) (fun G l => (rayWords G f l).getD 7 0) (traceadjLane f m) f m s

/-! ## EDGEQ (spec 16 R342) -/

/-- A lane of EDGEQ. -/
def edgeqLane (f : V4) (m : Mods) (s : State) (c : Inst) (l : Nat) : TtLane :=
  let G := s.instGrp c
  let a := src G m l f.a .b64
  let i := src32 G m l f.b
  if decide ((src32 G m l f.c).toNat ≤ i.toNat) then { out := outWords noDest (0xFFFFFFFF :: List.replicate 7 0) }
  else if decide (2 ^ 57 ≤ a.toNat + 32 * i.toNat) then { own := [⟨201, 7, 1, kindAux 0, a⟩] }
  else if a.toNat % 32 != 0 then { own := [⟨304, 8, 4, 0, a⟩] }
  else
    let g : Seg := ⟨.global, a + 32 * i.zeroExtend 64, 32, .read, false⟩
    match s.laneBytes c l false a g with
    | none => { pre := [g] }
    | some bs => { pre := [g], out := outWords noDest ((List.range 8).map fun k => BitVec.ofNat 32 (fieldAt bs (4 * k) 4)) }

/-- EDGEQ. -/
def execEdgeq (f : V4) (m : Mods) (s : State) : Res :=
  ttInst 4 (fun G l => src G m l f.a .b64) (fun _ _ => 0) (edgeqLane f m) f m s

end Sys2Proof.Machine
end

