-- ==== Sys2Proof/Machine/Raster.lean ====
section
/-! DEFINITION. The raster and edge-sampling units: coverage, pixel launches, vertex gradients and boundary samples (spec 15
R304-R311, R316-R318, 17 R351). -/

namespace Sys2Proof.Machine

/-! ## Primitives (spec 15 R304, R305) -/

/-- A point in units of 1/256. -/
abbrev Pt := Int × Int

/-- A primitive's geometry: its snapped vertices, its depths, the sign that makes its area positive, and that area in units of
2^-16. -/
structure Prim where
  v    : List Pt
  z    : List Q
  flip : Bool
  area : Int

/-- The nearest multiple of 1/256 of a finite value, under RNE. -/
def snap (v : FVal) : Int :=
  match v with
  | .fin n m e =>
    let k : Int := (roundGrid .rne ⟨n, m, e, false⟩ (-8)).1
    if n then -k else k
  | _ => 0

def Pt.of (v : List Pt) (i : Nat) : Pt := v.getD i (0, 0)

/-- The doubled area of three points. -/
def orient (a b c : Pt) : Int := (b.1 - a.1) * (c.2 - a.2) - (b.2 - a.2) * (c.1 - a.1)

/-- What R304 makes of a primitive's nine words. -/
inductive PrimOut where
  | skipped
  | empty
  | prim (p : Prim)

/-- The primitive of nine FP32 words. -/
def primOf (ws : List W32) : PrimOut :=
  let vs := ws.map fun w => fmt32.value w.toNat
  let at_ (i : Nat) : FVal := vs.getD i (.fin false 0 0)
  let v : List Pt := (List.range 3).map fun k => (snap (at_ (3 * k)), snap (at_ (3 * k + 1)))
  let lim : Int := 16384 * 256
  let out (x : Int) : Bool := decide (x < -lim) || decide (lim ≤ x)
  if !(vs.all (·.isFin)) || v.any fun p => out p.1 || out p.2 then .skipped
  else
    let A := orient (Pt.of v 0) (Pt.of v 1) (Pt.of v 2)
    if A == 0 then .empty
    else .prim ⟨v, (List.range 3).map fun k => (at_ (3 * k + 2)).toQ, decide (A < 0), A.natAbs⟩

/-- The ends of the edge on which E_i is zero. -/
def edgeEnds (i : Nat) : Nat × Nat := if i = 0 then (1, 2) else if i = 1 then (2, 0) else (0, 1)

/-- The sample of pixel (x, y). -/
def sampleAt (x y : Nat) : Pt := (256 * x + 128, 256 * y + 128)

/-- E_i at a point, in units of 2^-16. -/
def Prim.edge (p : Prim) (i : Nat) (at_ : Pt) : Int :=
  let (a, b) := edgeEnds i
  let e := orient (Pt.of p.v a) (Pt.of p.v b) at_
  if p.flip then -e else e

/-- Whether a sample is covered (R305). -/
def Prim.covers (p : Prim) (at_ : Pt) : Bool :=
  (List.range 3).all fun i =>
    let e := p.edge i at_
    let (a, b) := edgeEnds i
    let sg : Int := if p.flip then -1 else 1
    let nx := sg * ((Pt.of p.v a).2 - (Pt.of p.v b).2)
    let ny := sg * ((Pt.of p.v b).1 - (Pt.of p.v a).1)
    decide (0 < e) || (e == 0 && (decide (0 < nx) || (nx == 0 && decide (0 < ny))))

/-! ## Blocks (spec 15 R306, R308, R309) -/

/-- The exact barycentrics and depth at a point. -/
def Prim.inputs (p : Prim) (at_ : Pt) : Q × Q × Q :=
  let A := p.area.natAbs
  let b1 := Q.mk' (p.edge 1 at_) A
  let b2 := Q.mk' (p.edge 2 at_) A
  let z (i : Nat) : Q := p.z.getD i Q.zero
  (b1, b2, ((z 0).add (b1.mul ((z 1).sub (z 0)))).add (b2.mul ((z 2).sub (z 0))))

/-- The sixteen input bytes of a lane. -/
def Prim.laneInput (p : Prim) (index : Nat) (at_ : Pt) : List Byte :=
  let (a, b, z) := p.inputs at_
  leBytes 4 index ++ leBytes 4 (roundQ a).1 ++ leBytes 4 (roundQ b).1 ++ leBytes 4 (plusZero fmt32 false (roundQ z)).1

/-- The block (bx, by) of a primitive on a target of w by h pixels. -/
def Prim.block (p : Prim) (index w h bx by_ : Nat) (words : List W32) : PixelBlock :=
  let bare : PixelBlock := { prim := index, bx := bx, by_ := by_, words := words }
  let cover := laneMask fun l =>
    let xy := lanePixel bare l
    decide (xy.1 < w) && decide (xy.2 < h) && p.covers (sampleAt xy.1 xy.2)
  let used (l : Nat) : Bool := (List.range 4).any fun i => cover.getLsbD (l / 4 * 4 + i)
  { bare with
    cover := cover
    input := if cover == 0 then [] else (List.range 32).flatMap fun l =>
      let xy := lanePixel bare l
      if used l then p.laneInput index (sampleAt xy.1 xy.2) else List.replicate 16 0 }

/-- The blocks of a primitive that hold a covered pixel, in order. -/
def Prim.blocks (p : Prim) (index w h : Nat) (words : List W32) : List PixelBlock :=
  let xs := p.v.map (·.1)
  let ys := p.v.map (·.2)
  let lo (vs : List Int) (k : Int) : Nat := (max 0 (Int.fdiv (vs.foldl min (vs.headD 0)) k)).toNat
  let hi (vs : List Int) (k : Int) (top : Nat) : Nat := (min (top : Int) (Int.fdiv (vs.foldl max (vs.headD 0)) k) + 1).toNat
  let x0 := lo xs 2048
  let y0 := lo ys 1024
  let nx := hi xs 2048 ((w - 1) / 8) - x0
  let ny := hi ys 1024 ((h - 1) / 4) - y0
  ((List.range ny).flatMap fun j => (List.range nx).map fun i => p.block index w h (x0 + i) (y0 + j) words).filter
    fun b => b.cover != 0

/-! ## The pixel launch (spec 15 R306, R307, R309) -/

/-- Whether a card is a raster card. -/
def Card.isRaster (C : Card) : Bool := C.kind == kRast || C.kind == kRastAdj
/-- Width and height of the target. -/
def Card.targetW (C : Card) : Nat := C.f 0x38 2
def Card.targetH (C : Card) : Nat := C.f 0x3A 2
/-- PIOFF. -/
def Card.pioff (C : Card) : Nat := 128 * C.f 0x3C 2

/-- The grid that stands for a card's pixel launch. (DEDUCED, log 103.) -/
def State.pixelGrid (s : State) (n : Nat) (K : Kernel) : Grid :=
  let C := s.card n
  let I := s.grid C.grid
  let allowed := (coresOf (s.ctxCores C.ctx)).filter fun c => c / 8 == C.core / 8
  { par :=
      { ctx := C.ctx, queue := I.par.queue, order := I.par.order, kernels := [K], gx := 0, seed := BitVec.ofNat 64 (C.f 0x30 8)
        te := I.par.te, det := I.par.det, prio := I.par.prio, allowed := allowed, card := some n
        issuer := some (s.recordGrid C.grid), pioff := C.pioff, replay := I.par.replay }
    status := .dispatching, released := true, place := { allowed := allowed } }

/-- The kernel of a raster card, read before its first item; the pixel launch it opens. A missing page of the descriptor is waited for
(spec 10 R211); one that is unresolvable cannot be read, check 1 of Table 1-4. (DEDUCED, log 201.) -/
def State.fetchPixelKernel (s : State) (n : Nat) : CardFetch :=
  let C := s.card n
  let w := s.cardUnit n
  let addr := C.f 0x20 8 % 2 ^ 57
  let missing : List Nat := match s.engRange w C.ctx addr 64 .read false with
    | .pages ps => if addr % 64 != 0 || ps.any C.bad.contains then [] else ps
    | _ => []
  if !missing.isEmpty then .pages missing
  else match s.readKernel w addr (BitVec.ofNat 64 (C.f 0x28 8)) 1 true with
  | .wait s' => .wait s'
  | .bad s' _ => .got s' fun C => { C with kfail := some 11 }
  | .ok s' K =>
    if K.setSize != 1 then .got s' fun C => { C with kfail := some 11 }
    else if decide (32768 * ceilDiv K.scratch 32768 < C.pioff + 512 * K.groups) then .got s' fun C => { C with kfail := some 12 }
    else
      let g := s'.grids.length
      .got { s' with grids := s'.grids ++ [s'.pixelGrid n K] } fun C => { C with pixGrid := some g }

/-- The primitive list of a card. -/
def Card.prims (C : Card) : Nat := C.f (if C.kind == kEdge then 0x20 else 0x18) 8

/-- The nine words of a primitive's record. -/
def primWords (bs : List Byte) : List W32 := (List.range 9).map fun i => BitVec.ofNat 32 (fieldAt bs (4 * i) 4)

/-- A raster card whose last primitive has been walked: its pixel launch gains no further group. -/
def State.markWalked (s : State) (n : Nat) : State :=
  let C := s.card n
  match C.pixGrid with
  | some g => if C.cur.isNone && decide (C.nitem ≤ C.nextItem) then s.modGrid g fun G => { G with walked := true } else s
  | none => s

/-- RASTER_WALK: the primitive at hand is read, and its blocks become pixel groups in order. (DEDUCED, log 104.) -/
def execRasterWalk (n : Nat) (s : State) : Res :=
  let C := s.card n
  match C.cur, C.pixGrid with
  | some p, some g =>
    if !C.isRaster || C.fail.isSome || !C.pages.isEmpty || !s.cardRuns n || (s.grid g).halted then
      notDue s
    else
      match s.readLines n (fun _ => false) [(C.ctx, C.prims + 48 * p, 48)] with
      | .bad f => .next (s.failItem n f.status)
      | .pages ps => .next (s.waitItem n ps)
      | .wait s' => .next s'
      | .got s0 x =>
        let ws := primWords x.bytes.flatten
        let s' := (s0.keepLines n x).clearAnswers fun w => w == (n, 255, 0)
        if !x.sick.isEmpty then .next (s0.failItem n 5)
        else
        match primOf ws with
        | .skipped => .next (s'.failItem n 10)
        | x =>
          let blocks := match x with
            | .prim q => q.blocks p C.targetW C.targetH ws
            | _ => []
          let s1 := s'.modGrid g fun G => { G with pixels := G.pixels ++ blocks }
          .next ((s1.modCard n fun C => { C with cur := none }).markWalked n)
  | _, _ => notDue s

/-- Whether a pixel group, by its number in the card, has ended, its contributions made and its stores performed. -/
def State.pixelEnded (s : State) (g k : Nat) : Bool :=
  let K := (s.grid g).kernel
  let i := k / max 1 K.groups
  match (indexed s.teams).find? fun x => x.2.grid == g && x.2.idx == i with
  | none => false
  | some (t, T) =>
    let G := T.groups.getD (k % max 1 K.groups) {}
    let adj := match (s.grid g).par.card with
      | some n => (s.card n).kind == kRastAdj
      | none => false
    G.ended && (!adj || G.vgradDone) && !s.teamPending t

/-- Whether every pixel group of a primitive has ended. -/
def State.primEnded (s : State) (g p : Nat) : Bool :=
  (indexed (s.grid g).pixels).all fun b => b.2.prim != p || s.pixelEnded g b.1

/-- Whether the pixel launch of a card has no team, and no card kicked by one, that has not ended: their flags have all arrived. -/
def State.pixelsQuiet (s : State) (g : Nat) : Bool :=
  s.teams.all (fun T => T.grid != g || T.status == .ended || T.status == .discarded) &&
    s.eng.cards.all fun C => C.grid != g || C.ended || C.detach

/-- Whether a raster card's last item waits for the flags of its pixel launch. -/
def State.pixelsHold (s : State) (n : Nat) : Bool := match (s.card n).pixGrid with
  | some g => !s.pixelsQuiet g
  | none => false

/-- The lowest primitive of a raster card that has been walked, has not ended and whose pixel groups have ended; the last one ends
when the flags of the whole pixel launch are in the record (spec 15 R307). -/
def State.primDone (s : State) (n : Nat) : Option Nat :=
  let C := s.card n
  match C.pixGrid with
  | none => none
  | some g =>
    if C.done.length + 1 == C.nitem && s.pixelsHold n then none
    else (List.range C.nextItem).find? fun p =>
      C.cur != some p && !(C.done.any fun d => d.1 == p) && s.primEnded g p

/-! ## Vertex gradients (spec 15 R311) -/

/-- The derivatives of a doubled area by the x and y of its points, as (point, dx, dy). -/
def orientGrad (a b c : Nat) (pt : Nat → Pt) : List (Nat × Int × Int) :=
  let A := pt a
  let B := pt b
  let C := pt c
  [(a, B.2 - C.2, C.1 - B.1), (b, C.2 - A.2, A.1 - C.1), (c, A.2 - B.2, B.1 - A.1)]

/-- The partial derivatives of b1, b2 and z by word `w` of a primitive, at a sample. -/
def Prim.partials (p : Prim) (at_ : Pt) (w : Nat) : List Q :=
  let k := w / 3
  let pt (i : Nat) : Pt := if i = 3 then at_ else Pt.of p.v i
  let A := orient (pt 0) (pt 1) (pt 2)
  let d (a b c : Nat) : Int :=
    match (orientGrad a b c pt).find? fun x => x.1 == k with
    | some x => if w % 3 = 0 then x.2.1 else x.2.2
    | none => 0
  let z (i : Nat) : Q := p.z.getD i Q.zero
  let quot (e de : Int) : Q := Q.mk' (256 * (de * A - e * d 0 1 2)) (A * A).natAbs
  if w % 3 = 2 then
    let (b1, b2, _) := p.inputs at_
    [Q.zero, Q.zero, if k = 0 then (Q.one.sub b1).sub b2 else if k = 1 then b1 else b2]
  else
    let g1 := quot (orient (pt 2) (pt 0) at_) (d 2 0 3)
    let g2 := quot (orient (pt 0) (pt 1) at_) (d 0 1 3)
    [g1, g2, (((z 1).sub (z 0)).mul g1).add (((z 2).sub (z 0)).mul g2)]

/-- The contributions of a group: (lane, word address, value) in order, and their flags. -/
def State.groupGrads (s : State) (t g : Nat) (C : Card) (b : PixelBlock) : List (Nat × Nat × Nat) × FlagBits :=
  match primOf b.words with
  | .prim p =>
    let entry := scratchKey t (C.pioff + 512 * g)
    let xs := (maskLanes b.cover).flatMap fun l =>
      let xy := lanePixel b l
      let up := (List.range 3).map fun i => fmt32.value (s.rdNat (entry + 16 * l + 4 + 4 * i) 4)
      (List.range 9).map fun w =>
        let r := termSum s.peerNo (((p.partials (sampleAt xy.1 xy.2) w).zip up).map fun x => (x.1, [x.2]))
        (l, C.f 0x10 8 + 36 * b.prim + 4 * w, r.1, r.2)
    (xs.map fun x => (x.1, x.2.1, x.2.2.1), xs.foldl (fun f x => f ||| x.2.2.2) 0)
  | _ => ([], 0)

/-- How a word of the vertex-gradient array is found: its key, a missing page, a line of a table that another package holds, the
status of a refusal, or a refusal without one. -/
inductive GradWord where
  | key (k : Nat)
  | page (p : Nat)
  | busy (line : Nat)
  | status (st : Nat)
  | refused

/-- A word of the vertex-gradient array, for a card, under the checks of R238. R311 states no status for a word whose address has no
form or is no multiple of 4. (DEDUCED, log 183.) -/
def State.gradWord (s : State) (C : Card) (a : Nat) : GradWord :=
  if decide (2 ^ 57 ≤ a) || a % 4 != 0 then .refused
  else match s.unitAt C.ctx a { w := true } 5 with
    | .bad 1 => .status 2
    | .bad _ => .status 3
    | .busy l => .busy l
    | .missing p _ => if C.bad.contains p then .status 2 else .page p
    | .ok k m => if m || keyPeer k != ownPeer then .status 3 else .key k

/-- One vertex-gradient contribution: held, or refused with its primitive's item failing. (DEDUCED, log 105.) -/
def State.sendGrad (s : State) (n t g : Nat) (prim : Nat) (x : Nat × Nat × Nat) : State :=
  let C := s.card n
  let fail (st : Nat) (s : State) : State := s.modCard n fun C =>
    if C.itemFail.any fun y => y.1 == prim then C else { C with itemFail := C.itemFail ++ [(prim, st)] }
  match s.gradWord C x.2.1 with
  | .status st => fail st s
  | .refused => fail (2 + (Config.unstated s.sched.freeCtr).toNat % 16) s.tick
  | .page _ => s
  | .busy _ => s
  | .key k =>
    if s.scatOver C.ctx [k] k then fail 17 s
    else
      let lid := s.lid t g x.1
      (s.addContribution ⟨C.ctx, k, BitVec.ofNat 64 x.2.1, BitVec.ofNat 32 lid, BitVec.ofNat 64 lid, 0, BitVec.ofNat 32 x.2.2,
        (s.team t).grid, (s.team t).core, t, g⟩).scatUsed C.ctx [scatSlice k]

/-- VERTEX_GRADIENT_CONTRIB: the entries of a pixel group that has ended are read and its contributions sent; they wait for
missing pages. -/
def execVertexGradientContrib (t g : Nat) (s : State) : Res :=
  let G := s.grp t g
  match (s.grid (s.team t).grid).par.card, G.pixel with
  | some n, some b =>
    let C := s.card n
    if C.kind != kRastAdj || !G.ended || G.vgradDone || !(s.team t).live || !C.pages.isEmpty then
      notDue s
    else
      let (xs, fl) := s.groupGrads t g C b
      let pages := (xs.filterMap fun x => match s.gradWord C x.2.1 with
        | .page p => some p
        | _ => none).eraseDups
      let tables := xs.filterMap fun x => match s.gradWord C x.2.1 with
        | .busy l => some l
        | _ => none
      if !tables.isEmpty then .next (s.recallLines tables)
      else if !pages.isEmpty then
        .next ((s.engFaults C.ctx pages).modCard n fun C => { C with pages := (C.pages ++ pages).eraseDups })
      else
        let s1 := xs.foldl (fun s x => s.sendGrad n t g b.prim x) s
        let s2 := s1.modCard n fun C => { C with flags := C.flags ||| fl }
        .next (s2.modGroup t g fun G => { G with vgradDone := true })
  | _, _ => notDue s

/-! ## Boundary samples (spec 15 R316-R318) -/

/-- The signed doubled area of a face, none for one that R304 skips. -/
def faceArea (ws : List W32) : Option Int :=
  match primOf ws with
  | .skipped => none
  | .empty => some 0
  | .prim p => some (if p.flip then -p.area else p.area)

/-- Whether an edge beside faces is a silhouette (R316): `f1` is none for an edge with one face. (DEDUCED, log 107.) -/
def silhouette (f0 : Option Int) (f1 : Option (Option Int)) : Bool :=
  match f0, f1 with
  | none, _ => false
  | some _, none => true
  | some _, some none => false
  | some a, some (some b) => decide (a * b < 0)

/-- The part of a segment from `a` along `d` that lies in the target: parameters of its ends. -/
def clipSegment (ax ay dx dy : Q) (w h : Nat) : Option (Q × Q) :=
  let axis (o d : Q) (top : Nat) : Option Span :=
    if d.isZero then (if decide (0 ≤ o.num) && o.le (Q.ofInt top) then some ⟨none, none⟩ else none)
    else
      let p := o.neg.div d
      let q := ((Q.ofInt top).sub o).div d
      some ⟨some (p.min q), some (p.max q)⟩
  match axis ax dx w, axis ay dy h with
  | some x, some y =>
    let z := ((⟨some Q.zero, some Q.one⟩ : Span).meet x).meet y
    (match z.lo, z.hi with
      | some a, some b => if a.le b then some (a, b) else none
      | _, _ => none)
  | _, _ => none

/-- A clamped pixel coordinate. -/
def clampPix (v : Q) (n : Nat) : Nat := (max 0 (min v.floor ((n : Int) - 1))).toNat

/-- The sample records of a silhouette edge (Table 15-2) and their flags. `side` is the sign that turns the normal away from
FACE0's interior; the normal of a segment of no length is a free value. -/
def sampleRecords (e count w h : Nat) (seed : W64) (salt : Nat) (ax ay dx dy : Q) (side : Bool) (free : Nat) :
    List Byte × FlagBits :=
  match clipSegment ax ay dx dy w h with
  | none => ([], 0)
  | some (lo, hi) =>
    let len2 := (dx.mul dx).add (dy.mul dy)
    let span := hi.sub lo
    let normal (v : Q) (neg : Bool) (ctr : Nat) : Nat × FlagBits :=
      if len2.isZero then ((Config.unstated ctr).toNat % 2 ^ 32, 0)
      else roundSqrtQ ((decide (v.num < 0)) != neg) ((v.mul v).div len2)
    -- (dy, -dx) turned by the side
    let nx := normal dy side free
    let ny := normal dx (!side) (free + 1)
    let wgt := roundSqrtQ false (((len2.mul span).mul span).div (Q.ofInt (count * count)))
    let one (k : Nat) : List Byte × FlagBits :=
      let u : Nat := (pg64 seed (BitVec.ofNat 64 (salt * 2 ^ 48 + 64 * e + k))).toNat % 2 ^ 32
      let t := Q.mk' ((k * 2 ^ 32 + u : Nat) : Int) (count * 2 ^ 32)
      let r := lo.add (t.mul span)
      let x := ax.add (r.mul dx)
      let y := ay.add (r.mul dy)
      let sx := roundQ x
      let sy := roundQ y
      (leBytes 4 e ++ leBytes 4 k ++ leBytes 4 (clampPix y h * 65536 + clampPix x w) ++ leBytes 4 sx.1 ++ leBytes 4 sy.1 ++
        leBytes 4 nx.1 ++ leBytes 4 ny.1 ++ leBytes 4 wgt.1, sx.2 ||| sy.2 ||| nx.2 ||| ny.2 ||| wgt.2)
    let rs := (List.range count).map one
    (rs.flatMap (·.1), rs.foldl (fun f r => f ||| r.2) 0)

/-- Twice the sum of a face's vertices' distances from the line through `a` along `d`: its sign says on which side of the line
FACE0 lies. -/
def faceSide (ws : List W32) (ax ay dx dy : Q) : Int :=
  match primOf ws with
  | .prim p =>
    (p.v.foldl (fun acc v =>
      let px := (Q.mk' v.1 256).sub ax
      let py := (Q.mk' v.2 256).sub ay
      acc.add ((dx.mul py).sub (dy.mul px))) Q.zero).sign
  | _ => 0

/-- The records of a candidate edge, their flags, and a status when the edge is none that R316 speaks of. (DESIGN CHOICE, log 106.) -/
def State.edgeRecords (s : State) (C : Card) (e : Nat) (edge : List Byte) (face0 : List W32) (face1 : Option (List W32)) :
    List Byte × FlagBits :=
  let vs := (List.range 4).map fun i => f32At edge (4 * i)
  let at_ (i : Nat) : Q := (vs.getD i (.fin false 0 0)).toQ
  if !silhouette (faceArea face0) (face1.map faceArea) then ([], 0)
  else
    let dx := (at_ 2).sub (at_ 0)
    let dy := (at_ 3).sub (at_ 1)
    let free := s.sched.freeCtr
    -- FACE0 to the left of a → b (positive) is left by (dy, -dx)
    let side := match faceSide face0 (at_ 0) (at_ 1) dx dy with
      | 0 => (Config.unstated (free + 2)).getLsbD 0
      | k => decide (k < 0)
    sampleRecords e (C.f 0x34 4 % 128) C.targetW C.targetH (BitVec.ofNat 64 (C.f 0x28 8)) (C.f 0x3C 2) (at_ 0) (at_ 1) dx dy
      side free

/-- The records of an edge written after those of the edges before it. -/
def State.writeSamples (s : State) (n : Nat) (r : List Byte × FlagBits) : State :=
  let C := s.card n
  let w := s.cardUnit n
  let finish (s : State) : State :=
    (s.clearAnswers fun w => w == (n, 255, 0)).modCard n fun C =>
      { C with pos := 1, sent := false, count := C.count + r.1.length / 32, flags := C.flags ||| r.2 }
  if r.1.isEmpty then finish s
  else
    match s.engRange w C.ctx (C.f 0x10 8 + 32 * C.count) r.1.length .write true with
    | .bad f => s.failItem n f.status
    | .pages ps => s.waitItem n ps
    | .wait s' => s'
    | .ok s' ps =>
      let s1 := s'.engStore w ps r.1
      if s1.unitPending w.who then s1.modCard n fun C => { C with sent := true, flags := C.flags ||| r.2 } else finish s1

/-- EDGE_SAMPLE: the candidate edge at hand is sampled. An edge with an endpoint that is no number, or a face beyond the list, is
one of which the manual says nothing: it has no samples, and a free value decides whether its item fails with "range". -/
def execEdgeSample (n : Nat) (s : State) : Res :=
  let C := s.card n
  match C.cur with
  | none => notDue s
  | some e =>
    if C.kind != kEdge || C.fail.isSome || C.pos != 0 || !C.pages.isEmpty || !s.cardRuns n then
      notDue s
    else if C.sent then
      if s.unitFailed (n, 255, 0) then .next (s.failItem n 4)
      else if s.unitPending (n, 255, 0) then notDue s
      else .next (s.modCard n fun C => { C with sent := false, pos := 1, count := C.count + C.f 0x34 4 % 128 })
    else
      match s.readLines n (fun _ => true) [(C.ctx, C.f 0x18 8 + 32 * e, 32)] with
      | .bad f => .next (s.failItem n f.status)
      | .pages ps => .next (s.waitItem n ps)
      | .wait s' => .next s'
      | .got s0 x =>
        let s1 := s0.keepLines n x
        let edge := x.bytes.flatten
        let f0 := fieldAt edge 16 4
        let f1 := fieldAt edge 20 4
        let none1 := f1 == 0xFFFFFFFF
        let faces := if none1 then [f0] else [f0, f1]
        if !x.sick.isEmpty then .next (s0.failItem n 5)
        else if !((List.range 4).all fun i => (f32At edge (4 * i)).isFin) || faces.any fun i => decide (C.nprim ≤ i) then
          (if (Config.unstated s1.sched.freeCtr).getLsbD 0 then .next (s1.tick.failItem n 10)
           else .next (s1.tick.modCard n fun C => { C with pos := 1 }))
        else
          match s1.readLines n (fun _ => true) (faces.map fun i => (C.ctx, C.prims + 48 * i, 48)) with
          | .bad f => .next (s1.failItem n f.status)
          | .pages ps => .next (s1.waitItem n ps)
          | .wait s' => .next s'
          | .got s' y =>
            let s2 := s'.keepLines n y
            let bs := y.bytes.flatten
            if !y.sick.isEmpty then .next (s'.failItem n 5)
            else
            let r := s2.edgeRecords C e edge (primWords bs) (if none1 then none else some (primWords (bs.drop 48)))
            .next (s2.tick.tick.tick.writeSamples n r)

end Sys2Proof.Machine
end

