-- ==== Sys2Proof/Machine/CardEvents.lean ====
section
/-! DEFINITION. The events of job cards and bulk prefetches: items begun, lines written, items ended, release times reached
(spec 10 R216, 11 R239, 17 R356-R361). -/

namespace Sys2Proof.Machine

/-- Whether a card is a collective. -/
def Card.isColl (C : Card) : Bool := C.kind == kAllRed || C.kind == kAllGath || C.kind == kRedScat

/-- What a card must fetch before its first item: a ragged copy's record, a collective's rank table, a raster card's kernel. -/
def State.itemNeeds (s : State) (n : Nat) : Option CardFetch :=
  let C := s.card n
  if C.cancel.isSome || C.kfail.isSome then none
  else if C.isColl then s.collNeeds n
  else if C.isRaster then (if C.pixGrid.isNone then some (s.fetchPixelKernel n) else none)
  else s.cardNeeds n

/-- A card waits for pages before its first item; with one of them unresolvable, every item fails (spec 10 R211). -/
def State.waitCard (s : State) (n : Nat) (ps : List Nat) : State :=
  if ps.any (s.card n).bad.contains then s.modCard n fun C => { C with kfail := some 2, bad := [] } else s.waitItem n ps

/-- CARD_ITEM_START: the next item of a card is passed to an engine, once what the card needs has been fetched. -/
def execCardItemStart (n : Nat) (s : State) : Res :=
  if !s.itemReady n then notDue s
  else
    match s.itemNeeds n with
    | none => .next (s.beginItem n)
    | some (.wait s') => .next s'
    | some (.pages ps) => .next (s.waitCard n ps)
    | some (.got s' f) =>
      let s1 := (s'.modCard n f).clearAnswers fun w => w.1 == n && w.2.1 == 255
      .next (if (s1.itemNeeds n).isNone then s1.beginItem n else s1)

/-- CARD_LINE_WRITE: a destination line of the item under way is written and its bytes subtracted. A rank of a collective that does not
join fails every item, a line that cannot be reached its own (spec 12 R248, 17 R352). -/
def execCardLineWrite (n : Nat) (s : State) : Res :=
  let C := s.card n
  match C.cur with
  | none => notDue s
  | some i =>
    if !C.isBytes || C.fail.isSome || !C.pages.isEmpty || !s.cardRuns n || !C.relDue || decide (C.written i ≤ C.pos) then
      notDue s
    else if C.isColl && s.unitFailed (n, 255, 3) then .next ((s.modCard n fun C => { C with kfail := some 4 }).failItem n 4)
    else if C.sent && s.unitFailed (n, 255, 0) then .next (s.failItem n 4)
    else if C.sent then
      if s.unitPending (n, 255, 0) then notDue s
      else
        let len := if C.isColl then min (C.share i - C.pos) (128 - (C.f 0x20 8 + 65536 * i + C.pos) % 128)
          else ((s.itemDest n i).map fun x => x.2.2).getD 0
        .next (s.passLine n len true)
    else .next (if C.isColl then s.collLine n i else s.copyLine n i)

/-- How the item under way of a card ends now, if it does. -/
def State.itemOutcome (s : State) (n i : Nat) : Option Nat :=
  let C := s.card n
  match C.fail with
  | some st => some st
  | none =>
    if C.isBytes then
      (if decide (C.written i ≤ C.pos) && !C.sent && !s.unitPending (n, 255, 0) then some (if C.sick then 5 else 1) else none)
    else if C.kind == kEdge then (if C.pos != 0 then some 1 else none)
    else none

/-- The pixel launch of a card that will not go on is stopped. -/
def State.stopPixels (s : State) (n : Nat) : State :=
  match (s.card n).pixGrid with
  | some g => (s.stopGrid g).modGrid g fun G => { G with halted := true, walked := true }
  | none => s

/-- CARD_ITEM_END: an item has completed or failed; writes of the record still owed are made; the last decrement of a card follows
them. The last item of a raster card ends when the flags of its pixel launch have arrived (spec 15 R307). -/
def execCardItemEnd (n : Nat) (s : State) : Res :=
  let C := s.card n
  if decide (s.eng.cards.length ≤ n) || C.ended then notDue s
  else if C.lastDue.isSome then .next (s.tryLast n)
  else if C.isRaster && C.cancel.isSome then
    let s1 := s.stopPixels n
    .next ((s1.endAllItems n (C.cancel.getD 15) (s1.pixelsHold n)).payAll n)
  else if C.isRaster && (match C.pixGrid with
      | some g => (s.grid g).halted
      | none => false) then .next ((s.endAllItems n 16 (s.pixelsHold n)).payAll n)
  else
    match C.cur.bind fun i => (s.itemOutcome n i).map fun st => (i, st) with
    | some (i, st) =>
      if C.done.length + 1 == C.nitem && s.pixelsHold n then .next (s.payAll n)
      else .next ((s.endItem n i st).markWalked n)
    | none =>
      match s.primDone n with
      | some p => .next (s.endItem n p (assocGet C.itemFail p 1))
      | none => .next (s.payAll n)

/-- CARD_RELTIME_REACHED. -/
def execCardReltimeReached (n : Nat) (s : State) : Res :=
  let C := s.card n
  if decide (s.eng.cards.length ≤ n) || !C.rel || C.relDue || C.ended then notDue s
  else .next ((s.timeAtLeast C.reltime).modCard n fun C => { C with relDue := true })

/-- The line of a prefetch at hand is done: the barrier object is decremented, or the token counts the line. (DEDUCED, log 41.) -/
def State.prefetchLine (s : State) (i : Nat) (P : Prefetch) (skipped : Bool) : State :=
  let P' := { P with next := P.next + 1, left := P.left - 1, skips := if skipped then P.skips + 1 else P.skips }
  let list := if P'.left = 0 then s.eng.prefetches.filter fun x => x.id != P.id else modNth s.eng.prefetches i fun _ => P'
  let s := { s with eng := { s.eng with prefetches := list } }
  let s := match P.token with
    | some k =>
      if P'.left != 0 then s
      else
        let done (T : Token) : Token := { T with busy := false, skipped := BitVec.ofNat 32 P'.skips }
        s.modGroup P.team P.group fun G => { G with tokens := modNth G.tokens k done }
    | none => s
  match P.bo with
  | some off =>
    (match s.engScratch P.team off 8 true with
      | .ok _ _ =>
        let key := scratchKey P.team off
        s.wr key (leBytes 8 ((s.rdNat key 8 + 2 ^ 64 - 1) % 2 ^ 64))
      | _ => s)
  | none => s

/-- BULK_PREFETCH_LINE: the next line of a prefetch is brought in, or skipped when its translation ends otherwise than in a
permitted leaf. A line brought in changes timing only. -/
def execBulkPrefetchLine (prefetch : Nat) (s : State) : Res :=
  match s.eng.prefetches[prefetch]? with
  | none => notDue s
  | some P =>
    match s.unitAt P.ctx (P.next * 128) { rd := true } 0 with
    | .busy l => .next (s.recallLine l)
    | .ok _ _ => .next (s.prefetchLine prefetch P false)
    | _ => .next (s.prefetchLine prefetch P true)

end Sys2Proof.Machine
end

