-- ==== Sys2Proof/Machine/Control.lean ====
section
/-! DEFINITION. Control: branches, calls, returns, indirect jumps, rejoin barriers and exit, NOP and the hints (spec 08
R165-R174, 07 R137). -/

namespace Sys2Proof.Machine

/-- Active() of a B-format word (spec 05 R102). -/
def activeB (s : State) (c : Inst) (f : FB) : LaneMask := activeOf s c f.g.toNat (f.gn == 1)

/-- The code byte offset `k` packets from the packet of an instance (spec 05 R101). -/
def packetTarget (c : Inst) (k : W32) : W32 := BitVec.ofNat 32 (packetOf c.pc) + 12 * k

/-- The end of a control word: the lanes of `act` go to their targets, a helper lane whose target lies outside the code and
every other lane to the next word. (DEDUCED, log 20.) -/
def transfer (c : Inst) (m : Mods) (act : LaneMask) (target : Nat → W32) (s0 s1 : State) : Res :=
  let G := s0.instGrp c
  let size := (s0.instKernel c).codeSize
  finish c m (fun l =>
    if act.getLsbD l && !((G.lane l).helper && decide (size ≤ (target l).toNat)) then some (target l)
    else some (afterUnit c.pc m)) s0 s1

/-- BR. -/
def execBr (f : FB) (m : Mods) (s : State) : Res :=
  withInst s fun c => transfer c m (activeB s c f) (fun _ => packetTarget c (f.off.signExtend 32)) s s

/-- BRS: every lane of the instance branches, or none does (spec 08 R171). -/
def branchScalar (z : Bool) (f : FBrs) (m : Mods) (s : State) : Res :=
  withInst s fun c =>
    let taken := ((s.instGrp c).sreg f.sa.toNat == 0) == z
    transfer c m (if taken then c.mask else 0) (fun _ => packetTarget c (f.off.signExtend 32)) s s

/-- BRS.z. -/
def execBrsZ (f : FBrs) (m : Mods) (s : State) : Res := branchScalar true f m s
/-- BRS.nz. -/
def execBrsNz (f : FBrs) (m : Mods) (s : State) : Res := branchScalar false f m s

/-- The link register's number (spec 08 R172). -/
def linkReg (s : State) (c : Inst) : Nat := (s.instKernel c).regs - 1

/-- CALL. -/
def execCall (f : FB) (m : Mods) (s : State) : Res :=
  withInst s fun c =>
    let act := activeB s c f
    let t := packetTarget c (f.off.signExtend 32)
    let size := (s.instKernel c).codeSize
    let link := linkReg s c
    transfer c m act (fun _ => t) s (s.modGroup c.team c.group fun G => G.mapLanes fun l L =>
      if act.getLsbD l && !(L.helper && decide (size ≤ t.toNat)) then L.setReg link (packetTarget c 1) else L)

/-- A transfer to a register's offset: misaligned targets trap first, then those outside the code (spec 08 R172). -/
def indirectJump (c : Inst) (m : Mods) (act : LaneMask) (target : Nat → W32) (s : State) : Res :=
  let G := s.instGrp c
  let odd (l : Nat) : Bool := (target l).toNat % 12 != 0
  let bad := laneMask fun l => act.getLsbD l && odd l && !(G.lane l).helper
  match maskLanes bad with
  | l :: _ => trapRes s c m (trapOf 8 l 6 0x20 (target l) 0 bad)
  | [] => transfer c m (act &&& ~~~(laneMask fun l => (G.lane l).helper && odd l)) target s s

/-- RET. -/
def execRet (f : FB) (m : Mods) (s : State) : Res :=
  withInst s fun c => indirectJump c m (activeB s c f) (fun l => ((s.instGrp c).lane l).reg (linkReg s c)) s

/-- JMPI: the target selector stands in bits [20:15] of the word. -/
def execJmpi (f : FB) (m : Mods) (s : State) : Res :=
  withInst s fun c => indirectJump c m (activeB s c f) (fun l => src32 (s.instGrp c) m l (f.off.extractLsb' 11 6)) s

/-! ## Rejoin barriers (spec 07 R137, R138) -/

/-- J, bits [20:18] of the word. -/
def maskNo (f : FB) : Nat := (f.off.extractLsb' 14 3).toNat

/-- ENROL. -/
def execEnrol (f : FB) (m : Mods) (s : State) : Res :=
  withInst s fun c =>
    let act := activeB s c f
    finishSeq c m 0 s (s.modGroup c.team c.group fun G =>
      let j := G.masks.getD (maskNo f) 0
      G.setMask (maskNo f) (maskOf (arrOf j &&& ~~~act) (enrOf j ||| act)))

/-- REJOIN: enrolled lanes wait; the mask releases them all when the last has arrived. -/
def execRejoin (f : FB) (m : Mods) (s : State) : Res :=
  withInst s fun c =>
    let n := maskNo f
    let j := (s.instGrp c).masks.getD n 0
    let wait := activeB s c f &&& enrOf j
    let arrive (G : Group) : Group :=
      (G.mapLanes fun l L =>
        if wait.getLsbD l then { L with status := .rejoin n, resume := afterUnit c.pc m, stall := none, bad := [] } else L).setMask
        n (maskOf (arrOf j ||| wait) (enrOf j))
    finishWait c m wait s (s.modGroup c.team c.group fun G => (arrive G).release G.inh n)

/-- EXIT. -/
def execExit (f : FB) (m : Mods) (s : State) : Res :=
  withInst s fun c =>
    let act := activeB s c f
    finishSeq c m act s (s.exitLanes c.team c.group act)

/-! ## Words that change only the program counter (spec 08 R165, R174) -/

/-- An instruction that retires and does nothing else. -/
def retire (m : Mods) (s : State) : Res := withInst s fun c => finishSeq c m 0 s s

/-- NOP. -/
def execNop (_ : FY) (m : Mods) (s : State) : Res := retire m s
/-- The hint minors. -/
def execHint (_ : BitVec 2) (_ : FY) (m : Mods) (s : State) : Res := retire m s
/-- REGN: a hint to the register file. -/
def execRegn (_ : FY) (m : Mods) (s : State) : Res := retire m s

end Sys2Proof.Machine
end

