-- ==== Sys2Proof/Machine/IntOps.lean ====
section
/-! DEFINITION. Integer results: exact arithmetic narrowed at the end, shifts, bit fields and logic (spec 08 R146-R156). -/

namespace Sys2Proof.Machine

/-- The value of an operand in the signedness of its type (spec 08 Table 8-1). -/
def ival {w : Nat} (sg : Bool) (a : BitVec w) : Int := if sg then a.toInt else (a.toNat : Int)

/-- The range of a type. -/
def irange (w : Nat) (sg : Bool) : Int × Int :=
  if sg then (-(2 ^ (w - 1) : Int), 2 ^ (w - 1) - 1) else (0, 2 ^ w - 1)

/-- An exact result narrowed: wrapped, or saturated with OF where that changes it (spec 08 R146, R148). -/
def inarrow (w : Nat) (sg sat : Bool) (x : Int) : BitVec w × FlagBits :=
  if sat then
    let lo := (irange w sg).1
    let hi := (irange w sg).2
    let y := if x < lo then lo else if hi < x then hi else x
    (BitVec.ofInt w y, if y = x then 0 else flOF)
  else (BitVec.ofInt w x, 0)

/-- IADD, ISUB, IMUL, IABS, INEG (spec 08 Table 8-2). -/
def iadd {w : Nat} (sg sat : Bool) (a b : BitVec w) : BitVec w × FlagBits := inarrow w sg sat (ival sg a + ival sg b)
def isub {w : Nat} (sg sat : Bool) (a b : BitVec w) : BitVec w × FlagBits := inarrow w sg sat (ival sg a - ival sg b)
def imul {w : Nat} (sg : Bool) (a b : BitVec w) : BitVec w × FlagBits := inarrow w sg false (ival sg a * ival sg b)
def iabs {w : Nat} (sat : Bool) (a : BitVec w) : BitVec w × FlagBits := inarrow w true sat (ival true a).natAbs
def ineg {w : Nat} (sg sat : Bool) (a : BitVec w) : BitVec w × FlagBits := inarrow w sg sat (-(ival sg a))

/-- IMULH: bits [2w-1:w] of the exact product. -/
def imulh {w : Nat} (sg : Bool) (a b : BitVec w) : BitVec w × FlagBits :=
  (BitVec.ofInt w (Int.fdiv (ival sg a * ival sg b) (2 ^ w)), 0)

/-- IMIN and IMAX. -/
def imin {w : Nat} (sg : Bool) (a b : BitVec w) : BitVec w × FlagBits := (if ival sg b < ival sg a then b else a, 0)
def imax {w : Nat} (sg : Bool) (a b : BitVec w) : BitVec w × FlagBits := (if ival sg a < ival sg b then b else a, 0)

/-- Whether a signed division overflows: the most negative value by -1. -/
def divOver {w : Nat} (sg : Bool) (a b : BitVec w) : Bool :=
  sg && ival true a == (irange w true).1 && ival true b == -1

/-- IDIV (spec 08 R149, Table 8-3). -/
def idiv {w : Nat} (sg : Bool) (a b : BitVec w) : BitVec w × FlagBits :=
  if b.toNat = 0 then
    (BitVec.ofInt w (if !sg || decide (0 ≤ ival sg a) then (irange w sg).2 else (irange w sg).1), flDZ)
  else if divOver sg a b then (a, flOF)
  else (BitVec.ofInt w (Int.tdiv (ival sg a) (ival sg b)), 0)

/-- IREM (spec 08 R149, Table 8-3). -/
def irem {w : Nat} (sg : Bool) (a b : BitVec w) : BitVec w × FlagBits :=
  if b.toNat = 0 then (a, flDZ)
  else if divOver sg a b then (0, 0)
  else (BitVec.ofInt w (Int.tmod (ival sg a) (ival sg b)), 0)

/-- SHL, SHR, SAR (spec 08 R151). -/
def ishl {w : Nat} (a b : BitVec w) : BitVec w × FlagBits := (if w ≤ b.toNat then 0 else a <<< b.toNat, 0)
def ishr {w : Nat} (a b : BitVec w) : BitVec w × FlagBits := (if w ≤ b.toNat then 0 else a >>> b.toNat, 0)
def isar {w : Nat} (a b : BitVec w) : BitVec w × FlagBits := (a.sshiftRight (min b.toNat w), 0)

/-- POPC, CLZ, BREV (spec 08 R153). -/
def ipopc {w : Nat} (a : BitVec w) : BitVec w × FlagBits := (BitVec.ofNat w (popCount a), 0)
def iclz {w : Nat} (a : BitVec w) : BitVec w × FlagBits := (BitVec.ofNat w (leadingZeros a), 0)
def ibrev {w : Nat} (a : BitVec w) : BitVec w × FlagBits := (bitReverse a, 0)

/-- An operation on each 16-bit half, the flags ORed (spec 08 R150). -/
def halves (op : W16 → W16 → W16 × FlagBits) (a b : W32) : W32 × FlagBits :=
  let lo := op (a.extractLsb' 0 16) (b.extractLsb' 0 16)
  let hi := op (a.extractLsb' 16 16) (b.extractLsb' 16 16)
  (hi.1 ++ lo.1, hi.2 ||| lo.2)

/-- Position and clipped length of a bit field; length 0 when the field is empty (spec 08 R154). -/
def fieldOf (w : Nat) (ctl : W32) : Nat × Nat :=
  let pos := (ctl.extractLsb' 0 8).toNat
  let len := (ctl.extractLsb' 8 8).toNat
  if w ≤ pos then (pos, 0) else (pos, min len (w - pos))

/-- BFX (spec 08 R154). -/
def bfx {w : Nat} (sg : Bool) (a : BitVec w) (ctl : W32) : BitVec w :=
  let p := fieldOf w ctl
  if p.2 = 0 then 0
  else
    let v := bitsOf a.toNat p.1 p.2
    if sg && Nat.testBit v (p.2 - 1) then BitVec.ofInt w ((v : Int) - 2 ^ p.2) else BitVec.ofNat w v

/-- BFI (spec 08 R155). -/
def bfi {w : Nat} (a b : BitVec w) (ctl : W32) : BitVec w :=
  let p := fieldOf w ctl
  if p.2 = 0 then a else BitVec.ofNat w (setBits a.toNat p.1 p.2 b.toNat)

/-- FSHF.l and FSHF.r (spec 08 R152). -/
def fshf (left : Bool) (a b c : W32) : W32 :=
  let h : W64 := a ++ b
  let n := c.toNat % 32
  if left then (h <<< n).extractLsb' 32 32 else (h >>> n).extractLsb' 0 32

/-- LOGIC3 (spec 08 R156): bit i of the result is the truth table's bit 4 a[i] + 2 b[i] + c[i]. -/
def logic3 {w : Nat} (n : BitVec 8) (a b c : BitVec w) : BitVec w :=
  let sel (k : Nat) (x : BitVec w) (j : Nat) : BitVec w := if Nat.testBit k j then x else ~~~x
  (List.range 8).foldl (fun r k =>
    if n.getLsbD k then r ||| (sel k a 2 &&& sel k b 1 &&& sel k c 0) else r) 0

/-- A compare condition on two operands (spec 05 Table 5-13, 08 R158, R169). -/
def icond {w : Nat} (cond : Nat) (a b : BitVec w) : Bool :=
  match cond with
  | 0 => a == b
  | 1 => a != b
  | 2 => decide (a.toInt < b.toInt)
  | 3 => decide (a.toInt ≤ b.toInt)
  | 4 => decide (b.toInt < a.toInt)
  | 5 => decide (b.toInt ≤ a.toInt)
  | 6 => decide (a.toNat < b.toNat)
  | 7 => decide (a.toNat ≤ b.toNat)
  | 8 => decide (b.toNat < a.toNat)
  | 9 => decide (b.toNat ≤ a.toNat)
  | _ => false

end Sys2Proof.Machine
end

