-- ==== Sys2Proof/Machine/IntArith.lean ====
section
/-! DEFINITION. The integer instructions of majors 0x01 to 0x05 (spec 08 R145-R153). -/

namespace Sys2Proof.Machine

/-- .sat of the extension (spec 08 R148). -/
def satOf (m : Mods) : Bool := mod1Of m

/-- A 32-bit integer instruction of two operands; a unary one leaves its second idle (spec 08 R145). -/
def intOp32 (f : V3) (m : Mods) (op : W32 → W32 → W32 × FlagBits) (s : State) : Res :=
  valueOp m f.g (fun G l =>
    let r := op (src32 G m l f.a) (src32 G m l f.b)
    out32 f.d r.1 r.2) s

/-- A 64-bit integer instruction, its literals widened as type `t` says. -/
def intOp64 (t : Ty) (f : V3) (m : Mods) (op : W64 → W64 → W64 × FlagBits) (s : State) : Res :=
  valueOp m f.g (fun G l =>
    let r := op (src G m l f.a t) (src G m l f.b t)
    out64 f.d r.1 r.2) s

/-- IADD.s32 (spec 08 R147). -/
def execIaddS32 (f : V3) (m : Mods) (s : State) : Res := intOp32 f m (iadd true (satOf m)) s
/-- ISUB.s32 (spec 08 R147). -/
def execIsubS32 (f : V3) (m : Mods) (s : State) : Res := intOp32 f m (isub true (satOf m)) s
/-- IMUL.s32 (spec 08 R147). -/
def execImulS32 (f : V3) (m : Mods) (s : State) : Res := intOp32 f m (imul true) s
/-- IMULH.s32 (spec 08 R147). -/
def execImulhS32 (f : V3) (m : Mods) (s : State) : Res := intOp32 f m (imulh true) s
/-- IDIV.s32 (spec 08 R149). -/
def execIdivS32 (f : V3) (m : Mods) (s : State) : Res := intOp32 f m (idiv true) s
/-- IREM.s32 (spec 08 R149). -/
def execIremS32 (f : V3) (m : Mods) (s : State) : Res := intOp32 f m (irem true) s
/-- IMIN.s32 (spec 08 R147). -/
def execIminS32 (f : V3) (m : Mods) (s : State) : Res := intOp32 f m (imin true) s
/-- IMAX.s32 (spec 08 R147). -/
def execImaxS32 (f : V3) (m : Mods) (s : State) : Res := intOp32 f m (imax true) s
/-- IABS.s32 (spec 08 R147). -/
def execIabsS32 (f : V3) (m : Mods) (s : State) : Res := intOp32 f m (fun a _ => iabs (satOf m) a) s
/-- INEG.s32 (spec 08 R147). -/
def execInegS32 (f : V3) (m : Mods) (s : State) : Res := intOp32 f m (fun a _ => ineg true (satOf m) a) s
/-- SHL.s32 (spec 08 R151). -/
def execShlS32 (f : V3) (m : Mods) (s : State) : Res := intOp32 f m (ishl) s
/-- SHR.s32 (spec 08 R151). -/
def execShrS32 (f : V3) (m : Mods) (s : State) : Res := intOp32 f m (ishr) s
/-- SAR.s32 (spec 08 R151). -/
def execSarS32 (f : V3) (m : Mods) (s : State) : Res := intOp32 f m (isar) s
/-- POPC.s32 (spec 08 R153). -/
def execPopcS32 (f : V3) (m : Mods) (s : State) : Res := intOp32 f m (fun a _ => ipopc a) s
/-- CLZ.s32 (spec 08 R153). -/
def execClzS32 (f : V3) (m : Mods) (s : State) : Res := intOp32 f m (fun a _ => iclz a) s
/-- BREV.s32 (spec 08 R153). -/
def execBrevS32 (f : V3) (m : Mods) (s : State) : Res := intOp32 f m (fun a _ => ibrev a) s
/-- IADD.n32 (spec 08 R147). -/
def execIaddN32 (f : V3) (m : Mods) (s : State) : Res := intOp32 f m (iadd false (satOf m)) s
/-- ISUB.n32 (spec 08 R147). -/
def execIsubN32 (f : V3) (m : Mods) (s : State) : Res := intOp32 f m (isub false (satOf m)) s
/-- IMUL.n32 (spec 08 R147). -/
def execImulN32 (f : V3) (m : Mods) (s : State) : Res := intOp32 f m (imul false) s
/-- IMULH.n32 (spec 08 R147). -/
def execImulhN32 (f : V3) (m : Mods) (s : State) : Res := intOp32 f m (imulh false) s
/-- IDIV.n32 (spec 08 R149). -/
def execIdivN32 (f : V3) (m : Mods) (s : State) : Res := intOp32 f m (idiv false) s
/-- IREM.n32 (spec 08 R149). -/
def execIremN32 (f : V3) (m : Mods) (s : State) : Res := intOp32 f m (irem false) s
/-- IMIN.n32 (spec 08 R147). -/
def execIminN32 (f : V3) (m : Mods) (s : State) : Res := intOp32 f m (imin false) s
/-- IMAX.n32 (spec 08 R147). -/
def execImaxN32 (f : V3) (m : Mods) (s : State) : Res := intOp32 f m (imax false) s
/-- INEG.n32 (spec 08 R147). -/
def execInegN32 (f : V3) (m : Mods) (s : State) : Res := intOp32 f m (fun a _ => ineg false (satOf m) a) s
/-- SHL.n32 (spec 08 R151). -/
def execShlN32 (f : V3) (m : Mods) (s : State) : Res := intOp32 f m (ishl) s
/-- SHR.n32 (spec 08 R151). -/
def execShrN32 (f : V3) (m : Mods) (s : State) : Res := intOp32 f m (ishr) s
/-- POPC.n32 (spec 08 R153). -/
def execPopcN32 (f : V3) (m : Mods) (s : State) : Res := intOp32 f m (fun a _ => ipopc a) s
/-- CLZ.n32 (spec 08 R153). -/
def execClzN32 (f : V3) (m : Mods) (s : State) : Res := intOp32 f m (fun a _ => iclz a) s
/-- BREV.n32 (spec 08 R153). -/
def execBrevN32 (f : V3) (m : Mods) (s : State) : Res := intOp32 f m (fun a _ => ibrev a) s
/-- IADD.s64 (spec 08 R147). -/
def execIaddS64 (f : V3) (m : Mods) (s : State) : Res := intOp64 .s64 f m (iadd true (satOf m)) s
/-- ISUB.s64 (spec 08 R147). -/
def execIsubS64 (f : V3) (m : Mods) (s : State) : Res := intOp64 .s64 f m (isub true (satOf m)) s
/-- IMUL.s64 (spec 08 R147). -/
def execImulS64 (f : V3) (m : Mods) (s : State) : Res := intOp64 .s64 f m (imul true) s
/-- IMULH.s64 (spec 08 R147). -/
def execImulhS64 (f : V3) (m : Mods) (s : State) : Res := intOp64 .s64 f m (imulh true) s
/-- IDIV.s64 (spec 08 R149). -/
def execIdivS64 (f : V3) (m : Mods) (s : State) : Res := intOp64 .s64 f m (idiv true) s
/-- IREM.s64 (spec 08 R149). -/
def execIremS64 (f : V3) (m : Mods) (s : State) : Res := intOp64 .s64 f m (irem true) s
/-- IMIN.s64 (spec 08 R147). -/
def execIminS64 (f : V3) (m : Mods) (s : State) : Res := intOp64 .s64 f m (imin true) s
/-- IMAX.s64 (spec 08 R147). -/
def execImaxS64 (f : V3) (m : Mods) (s : State) : Res := intOp64 .s64 f m (imax true) s
/-- IABS.s64 (spec 08 R147). -/
def execIabsS64 (f : V3) (m : Mods) (s : State) : Res := intOp64 .s64 f m (fun a _ => iabs (satOf m) a) s
/-- INEG.s64 (spec 08 R147). -/
def execInegS64 (f : V3) (m : Mods) (s : State) : Res := intOp64 .s64 f m (fun a _ => ineg true (satOf m) a) s
/-- SHL.s64 (spec 08 R151). -/
def execShlS64 (f : V3) (m : Mods) (s : State) : Res := intOp64 .s64 f m (ishl) s
/-- SHR.s64 (spec 08 R151). -/
def execShrS64 (f : V3) (m : Mods) (s : State) : Res := intOp64 .s64 f m (ishr) s
/-- SAR.s64 (spec 08 R151). -/
def execSarS64 (f : V3) (m : Mods) (s : State) : Res := intOp64 .s64 f m (isar) s
/-- POPC.s64 (spec 08 R153). -/
def execPopcS64 (f : V3) (m : Mods) (s : State) : Res := intOp64 .s64 f m (fun a _ => ipopc a) s
/-- CLZ.s64 (spec 08 R153). -/
def execClzS64 (f : V3) (m : Mods) (s : State) : Res := intOp64 .s64 f m (fun a _ => iclz a) s
/-- BREV.s64 (spec 08 R153). -/
def execBrevS64 (f : V3) (m : Mods) (s : State) : Res := intOp64 .s64 f m (fun a _ => ibrev a) s
/-- IADD.n64 (spec 08 R147). -/
def execIaddN64 (f : V3) (m : Mods) (s : State) : Res := intOp64 .b64 f m (iadd false (satOf m)) s
/-- ISUB.n64 (spec 08 R147). -/
def execIsubN64 (f : V3) (m : Mods) (s : State) : Res := intOp64 .b64 f m (isub false (satOf m)) s
/-- IMUL.n64 (spec 08 R147). -/
def execImulN64 (f : V3) (m : Mods) (s : State) : Res := intOp64 .b64 f m (imul false) s
/-- IMULH.n64 (spec 08 R147). -/
def execImulhN64 (f : V3) (m : Mods) (s : State) : Res := intOp64 .b64 f m (imulh false) s
/-- IDIV.n64 (spec 08 R149). -/
def execIdivN64 (f : V3) (m : Mods) (s : State) : Res := intOp64 .b64 f m (idiv false) s
/-- IREM.n64 (spec 08 R149). -/
def execIremN64 (f : V3) (m : Mods) (s : State) : Res := intOp64 .b64 f m (irem false) s
/-- IMIN.n64 (spec 08 R147). -/
def execIminN64 (f : V3) (m : Mods) (s : State) : Res := intOp64 .b64 f m (imin false) s
/-- IMAX.n64 (spec 08 R147). -/
def execImaxN64 (f : V3) (m : Mods) (s : State) : Res := intOp64 .b64 f m (imax false) s
/-- INEG.n64 (spec 08 R147). -/
def execInegN64 (f : V3) (m : Mods) (s : State) : Res := intOp64 .b64 f m (fun a _ => ineg false (satOf m) a) s
/-- SHL.n64 (spec 08 R151). -/
def execShlN64 (f : V3) (m : Mods) (s : State) : Res := intOp64 .b64 f m (ishl) s
/-- SHR.n64 (spec 08 R151). -/
def execShrN64 (f : V3) (m : Mods) (s : State) : Res := intOp64 .b64 f m (ishr) s
/-- POPC.n64 (spec 08 R153). -/
def execPopcN64 (f : V3) (m : Mods) (s : State) : Res := intOp64 .b64 f m (fun a _ => ipopc a) s
/-- CLZ.n64 (spec 08 R153). -/
def execClzN64 (f : V3) (m : Mods) (s : State) : Res := intOp64 .b64 f m (fun a _ => iclz a) s
/-- BREV.n64 (spec 08 R153). -/
def execBrevN64 (f : V3) (m : Mods) (s : State) : Res := intOp64 .b64 f m (fun a _ => ibrev a) s
/-- IADD.s16.x2 (spec 08 R150). -/
def execIaddS16X2 (f : V3) (m : Mods) (s : State) : Res := intOp32 f m (halves (iadd true (satOf m))) s
/-- ISUB.s16.x2 (spec 08 R150). -/
def execIsubS16X2 (f : V3) (m : Mods) (s : State) : Res := intOp32 f m (halves (isub true (satOf m))) s
/-- IMUL.s16.x2 (spec 08 R150). -/
def execImulS16X2 (f : V3) (m : Mods) (s : State) : Res := intOp32 f m (halves (imul true)) s
/-- IMIN.s16.x2 (spec 08 R150). -/
def execIminS16X2 (f : V3) (m : Mods) (s : State) : Res := intOp32 f m (halves (imin true)) s
/-- IMIN.n16.x2 (spec 08 R150). -/
def execIminN16X2 (f : V3) (m : Mods) (s : State) : Res := intOp32 f m (halves (imin false)) s
/-- IMAX.s16.x2 (spec 08 R150). -/
def execImaxS16X2 (f : V3) (m : Mods) (s : State) : Res := intOp32 f m (halves (imax true)) s
/-- IMAX.n16.x2 (spec 08 R150). -/
def execImaxN16X2 (f : V3) (m : Mods) (s : State) : Res := intOp32 f m (halves (imax false)) s
/-- IABS.s16.x2 (spec 08 R150). -/
def execIabsS16X2 (f : V3) (m : Mods) (s : State) : Res := intOp32 f m (halves (fun a _ => iabs (satOf m) a)) s
/-- INEG.s16.x2 (spec 08 R150). -/
def execInegS16X2 (f : V3) (m : Mods) (s : State) : Res := intOp32 f m (halves (fun a _ => ineg true (satOf m) a)) s
/-- SHL.b16.x2 (spec 08 R150). -/
def execShlB16X2 (f : V3) (m : Mods) (s : State) : Res := intOp32 f m (halves ishl) s
/-- SHR.b16.x2 (spec 08 R150). -/
def execShrB16X2 (f : V3) (m : Mods) (s : State) : Res := intOp32 f m (halves ishr) s
/-- SAR.s16.x2 (spec 08 R150). -/
def execSarS16X2 (f : V3) (m : Mods) (s : State) : Res := intOp32 f m (halves isar) s

end Sys2Proof.Machine
end

