-- ==== Sys2Proof/Machine/MoveLogic.lean ====
section
/-! DEFINITION. Compares, moves, bit fields, three-operand integer instructions, predicate logic and votes: majors 0x06 to
0x0A (spec 08 R152-R164). -/

namespace Sys2Proof.Machine

/-- A number held in the high or low three bits of a six-bit field. -/
def hi3 (d : BitVec 6) : Nat := (d.extractLsb' 3 3).toNat
def lo3 (d : BitVec 6) : Nat := (d.extractLsb' 0 3).toNat
/-- The register base held in bits [4:0] of a six-bit field (spec 08 R164). -/
def baseOf (d : BitVec 6) : Nat := (d.extractLsb' 0 5).toNat

/-! ## Compares (spec 08 R158) -/

/-- The type of a 64-bit compare: signed conditions widen literals with their sign. -/
def icmpTy (cond : BitVec 4) : Ty := if cond == 2 || cond == 3 || cond == 4 || cond == 5 then .s64 else .b64

/-- ICMP on 32-bit operands. -/
def execIcmp32 (cond : BitVec 4) (f : V3) (m : Mods) (s : State) : Res :=
  valueOp m f.g (fun G l => outPred (hi3 f.d) (icond cond.toNat (src32 G m l f.a) (src32 G m l f.b))) s

/-- ICMP on 64-bit operands. -/
def execIcmp64 (cond : BitVec 4) (f : V3) (m : Mods) (s : State) : Res :=
  valueOp m f.g (fun G l =>
    outPred (hi3 f.d) (icond cond.toNat (src G m l f.a (icmpTy cond)) (src G m l f.b (icmpTy cond)))) s

/-! ## Moves (spec 08 R161-R163) -/

/-- MOV.b32. -/
def execMovB32 (f : V3) (m : Mods) (s : State) : Res := intOp32 f m (fun a _ => (a, 0)) s
/-- MOV.b64. -/
def execMovB64 (f : V3) (m : Mods) (s : State) : Res := intOp64 .b64 f m (fun a _ => (a, 0)) s

/-- A copy of the elected lane's value into a scalar register; nothing is pushed (spec 08 R162). -/
def scalarCopy (f : V3) (m : Mods) (t : Ty) (s : State) : Res :=
  withInst s fun c =>
    let G := s.instGrp c
    match electLane G (activeOf s c f.g.toNat (guardNeg m)) with
    | none => finishSeq c m 0 s s
    | some e => finishSeq c m 0 s (s.modGroup c.team c.group fun G => G.setS (baseOf f.d) (src G m e f.a t))

/-- MOVS.b32. -/
def execMovsB32 (f : V3) (m : Mods) (s : State) : Res := scalarCopy f m .b32 s
/-- MOVS.b64. -/
def execMovsB64 (f : V3) (m : Mods) (s : State) : Res := scalarCopy f m .b64 s

/-- The result of LEA (spec 08 R163). -/
def lea (n : Nat) (a : W64) (b : W32) : W64 := a + ((b.signExtend 64) <<< n)

/-- LEA with a shift. -/
def leaOp (n : Nat) (f : V3) (m : Mods) (s : State) : Res :=
  valueOp m f.g (fun G l => out64 f.d (lea n (src G m l f.a .b64) (src32 G m l f.b))) s

/-- LEA.sh0. -/
def execLeaSh0 (f : V3) (m : Mods) (s : State) : Res := leaOp 0 f m s
/-- LEA.sh1. -/
def execLeaSh1 (f : V3) (m : Mods) (s : State) : Res := leaOp 1 f m s
/-- LEA.sh2. -/
def execLeaSh2 (f : V3) (m : Mods) (s : State) : Res := leaOp 2 f m s
/-- LEA.sh3. -/
def execLeaSh3 (f : V3) (m : Mods) (s : State) : Res := leaOp 3 f m s

/-! ## Bit fields (spec 08 R154) -/

/-- BFX.s32. -/
def execBfxS32 (f : V3) (m : Mods) (s : State) : Res := intOp32 f m (fun a b => (bfx true a b, 0)) s
/-- BFX.n32. -/
def execBfxN32 (f : V3) (m : Mods) (s : State) : Res := intOp32 f m (fun a b => (bfx false a b, 0)) s

/-- A 64-bit extraction, whose control is a 32-bit operand. -/
def bfx64 (sg : Bool) (t : Ty) (f : V3) (m : Mods) (s : State) : Res :=
  valueOp m f.g (fun G l => out64 f.d (bfx sg (src G m l f.a t) (src32 G m l f.b))) s

/-- BFX.s64. -/
def execBfxS64 (f : V3) (m : Mods) (s : State) : Res := bfx64 true .s64 f m s
/-- BFX.n64. -/
def execBfxN64 (f : V3) (m : Mods) (s : State) : Res := bfx64 false .b64 f m s

/-! ## Move-indirect (spec 08 R164) -/

/-- The exact register number a lane names. -/
def indirect (base : Nat) (x : W32) : Int := (base : Int) + x.toInt

/-- The trap of a register number outside the allotment: lane and index of the lowest failing lane. -/
def indirectTrap (c : Inst) (regs source : Nat) (bad : LaneMask) (x : Nat → Int) (l : Nat) : TrapInfo :=
  trapOf 3 l 0 (source * 2 ^ 16 + regs * 256 + c.pc.toNat % 12 / 4) (BitVec.ofInt 32 (x l)) 0 bad

/-- A move-indirect: the lanes whose number fails trap, unless they are helper lanes, which receive a push of zero. -/
def indirectOp (m : Mods) (g : BitVec 3) (source base : Nat) (x : Group → Nat → W32)
    (res : Group → Nat → Nat → LaneOut) (s : State) : Res :=
  withInst s fun c =>
    let G := s.instGrp c
    let act := activeOf s c g.toNat (guardNeg m)
    let regs := (s.instKernel c).regs
    let n (l : Nat) : Int := indirect base (x G l)
    let fails (l : Nat) : Bool := decide (n l < 0) || decide ((regs : Int) ≤ n l)
    let bad := laneMask fun l => act.getLsbD l && fails l && !(G.lane l).helper
    match maskLanes bad with
    | l :: _ => trapRes s c m (indirectTrap c regs source bad n l)
    | [] => finishSeq c m 0 s (s.commitLanes c act 0 1 fun l => if fails l then zeroPushes 1 else res G l (n l).toNat)

/-- MVRD. -/
def execMvrd (f : V3) (m : Mods) (s : State) : Res :=
  indirectOp m f.g 1 (baseOf f.b) (fun G l => src32 G m l f.a) (fun G l k => out32 f.d ((G.lane l).reg k)) s

/-- MVWR. -/
def execMvwr (f : V4) (m : Mods) (s : State) : Res :=
  indirectOp m f.g 2 (baseOf f.c) (fun G l => src32 G m l f.b)
    (fun G l k =>
      let v := src32 G m l f.a
      { pushes := [v.zeroExtend 64], named := [(k, v)] }) s

/-! ## Three operands, queue only (spec 08 R147, R152, R155, R156, R159) -/

/-- A 32-bit result of three operands, pushed only. -/
def triOp32 (f : V4) (m : Mods) (op : W32 → W32 → W32 → W32) (s : State) : Res :=
  valueOp m f.g (fun G l =>
    { pushes := [(op (src32 G m l f.a) (src32 G m l f.b) (src32 G m l f.c)).zeroExtend 64] }) s

/-- A 64-bit result of three operands, pushed only. -/
def triOp64 (t tc : Ty) (f : V4) (m : Mods) (op : W64 → W64 → W64 → W64) (s : State) : Res :=
  valueOp m f.g (fun G l => { pushes := [op (src G m l f.a t) (src G m l f.b t) (src G m l f.c tc)] }) s

/-- IMAD.s32. -/
def execImadS32 (f : V4) (m : Mods) (s : State) : Res := triOp32 f m (fun a b c => a * b + c) s
/-- IMAD.n32. -/
def execImadN32 (f : V4) (m : Mods) (s : State) : Res := triOp32 f m (fun a b c => a * b + c) s
/-- IMAD.s64. -/
def execImadS64 (f : V4) (m : Mods) (s : State) : Res := triOp64 .s64 .s64 f m (fun a b c => a * b + c) s
/-- IMAD.n64. -/
def execImadN64 (f : V4) (m : Mods) (s : State) : Res := triOp64 .b64 .b64 f m (fun a b c => a * b + c) s

/-- The truth table in IMM16 (spec 08 R156, R157). -/
def tableOf (m : Mods) : BitVec 8 := (immOf m).extractLsb' 0 8

/-- LOGIC3.b32. -/
def execLogic3B32 (f : V4) (m : Mods) (s : State) : Res := triOp32 f m (fun a b c => logic3 (tableOf m) a b c) s
/-- LOGIC3.b64. -/
def execLogic3B64 (f : V4) (m : Mods) (s : State) : Res := triOp64 .b64 .b64 f m (fun a b c => logic3 (tableOf m) a b c) s
/-- FSHF.l.b32. -/
def execFshfLB32 (f : V4) (m : Mods) (s : State) : Res := triOp32 f m (fshf true) s
/-- FSHF.r.b32. -/
def execFshfRB32 (f : V4) (m : Mods) (s : State) : Res := triOp32 f m (fshf false) s
/-- BFI.b32. -/
def execBfiB32 (f : V4) (m : Mods) (s : State) : Res := triOp32 f m (fun a b c => bfi a b c) s
/-- BFI.b64, whose control is a 32-bit operand. -/
def execBfiB64 (f : V4) (m : Mods) (s : State) : Res :=
  triOp64 .b64 .b32 f m (fun a b c => bfi a b (c.extractLsb' 0 32)) s

/-- A selection by the predicate in C[9:7] (spec 08 R159). -/
def selOp (t : Ty) (f : V4) (m : Mods) (s : State) : Res :=
  valueOp m f.g (fun G l => { pushes := [src G m l (if (G.lane l).pred (lo3 f.c) then f.a else f.b) t] }) s

/-- SEL.b32. -/
def execSelB32 (f : V4) (m : Mods) (s : State) : Res := selOp .b32 f m s
/-- SEL.b64. -/
def execSelB64 (f : V4) (m : Mods) (s : State) : Res := selOp .b64 f m s

/-! ## Predicates (spec 08 R157, R160) -/

/-- PLOGIC. -/
def execPlogic (f : V3) (m : Mods) (s : State) : Res :=
  valueOp m f.g (fun G l =>
    let L := G.lane l
    let bit (n : Nat) : Nat := if L.pred n then 1 else 0
    outPred (hi3 f.d) ((tableOf m).getLsbD (4 * bit (hi3 f.a) + 2 * bit (lo3 f.a) + bit (hi3 f.b)))) s

/-- A vote over Active(): what each lane of it receives is a function of the mask of lanes whose predicate holds. -/
def voteOp (f : V3) (m : Mods) (res : LaneMask → LaneMask → LaneOut) (s : State) : Res :=
  withInst s fun c =>
    let act := activeOf s c f.g.toNat (guardNeg m)
    valueInst c m f.g 1 (fun G _ =>
      res act (laneMask fun i => act.getLsbD i && (G.lane i).pred (hi3 f.a))) s

/-- VOTE.any. -/
def execVoteAny (f : V3) (m : Mods) (s : State) : Res := voteOp f m (fun _ v => outPred (hi3 f.d) (v != 0)) s
/-- VOTE.all. -/
def execVoteAll (f : V3) (m : Mods) (s : State) : Res := voteOp f m (fun act v => outPred (hi3 f.d) (v == act)) s
/-- VOTE.ballot. -/
def execVoteBallot (f : V3) (m : Mods) (s : State) : Res := voteOp f m (fun _ v => out32 f.d v) s

end Sys2Proof.Machine
end

