-- ==== Sys2Proof/Machine/FloatArith.lean ====
section
/-! DEFINITION. Floating-point arithmetic, compares and special functions: majors 0x10 to 0x16 (spec 09 R175-R183). -/

namespace Sys2Proof.Machine

/-- The rounding mode of an instruction in a lane for element `j` of its operand, with the word drawn for stochastic
rounding (spec 02 R49, 09 R175): E is four times the lane's logical identifier, plus j. -/
def laneMode (s : State) (c : Inst) (m : Mods) (code : Nat) (l j : Nat) : RMode :=
  rmodeOf code (drawWord (s.grid (s.team c.team).grid).par.seed (immOf m) (s.lid c.team c.group l * 4 + j))

/-- A floating-point operation on codes: rounding mode, own peer number, two codes. -/
abbrev FpOp := RMode → Nat → Nat → Nat → Nat × FlagBits

/-- A 32-bit form of two operands; a unary one leaves its second idle. -/
def floatOp32 (f : V3) (m : Mods) (op : FpOp) (s : State) : Res :=
  withInst s fun c => valueInst c m f.g 1 (fun G l =>
    let r := op (laneMode s c m (mod3Of m) l 0) s.peerNo (src32 G m l f.a).toNat (src32 G m l f.b).toNat
    out32 f.d (BitVec.ofNat 32 r.1) r.2) s

/-- A 64-bit form. -/
def floatOp64 (f : V3) (m : Mods) (op : FpOp) (s : State) : Res :=
  withInst s fun c => valueInst c m f.g 1 (fun G l =>
    let r := op (laneMode s c m (mod3Of m) l 0) s.peerNo (src G m l f.a .f64).toNat (src G m l f.b .f64).toNat
    out64 f.d (BitVec.ofNat 64 r.1) r.2) s

/-- An operation on the low and the high element, the flags ORed (spec 09 R177); `op` takes the element's position. -/
def pairOf (op : Nat → W16 → W16 → Nat × FlagBits) (a b : W32) : W32 × FlagBits :=
  let lo := op 0 (a.extractLsb' 0 16) (b.extractLsb' 0 16)
  let hi := op 1 (a.extractLsb' 16 16) (b.extractLsb' 16 16)
  (BitVec.ofNat 16 hi.1 ++ BitVec.ofNat 16 lo.1, lo.2 ||| hi.2)

/-- An .x2 form. -/
def floatOpX2 (f : V3) (m : Mods) (op : FpOp) (s : State) : Res :=
  withInst s fun c => valueInst c m f.g 1 (fun G l =>
    let r := pairOf (fun j a b => op (laneMode s c m (mod3Of m) l j) s.peerNo a.toNat b.toNat)
      (src32 G m l f.a) (src32 G m l f.b)
    out32 f.d r.1 r.2) s

/-- FADD.f32 (spec 09 R176). -/
def execFaddF32 (f : V3) (m : Mods) (s : State) : Res := floatOp32 f m (fpAdd fmt32) s
/-- FSUB.f32 (spec 09 R176). -/
def execFsubF32 (f : V3) (m : Mods) (s : State) : Res := floatOp32 f m (fpSub fmt32) s
/-- FMUL.f32 (spec 09 R176). -/
def execFmulF32 (f : V3) (m : Mods) (s : State) : Res := floatOp32 f m (fpMul fmt32) s
/-- FMIN.f32 (spec 09 R179). -/
def execFminF32 (f : V3) (m : Mods) (s : State) : Res := floatOp32 f m (fun _ _ a b => fpMinMax fmt32 false a b) s
/-- FMAX.f32 (spec 09 R179). -/
def execFmaxF32 (f : V3) (m : Mods) (s : State) : Res := floatOp32 f m (fun _ _ a b => fpMinMax fmt32 true a b) s
/-- FRND.f32 (spec 09 R180). -/
def execFrndF32 (f : V3) (m : Mods) (s : State) : Res := floatOp32 f m (fun r _ a _ => fpRnd fmt32 r a) s
/-- FADD.f64 (spec 09 R176). -/
def execFaddF64 (f : V3) (m : Mods) (s : State) : Res := floatOp64 f m (fpAdd fmt64) s
/-- FSUB.f64 (spec 09 R176). -/
def execFsubF64 (f : V3) (m : Mods) (s : State) : Res := floatOp64 f m (fpSub fmt64) s
/-- FMUL.f64 (spec 09 R176). -/
def execFmulF64 (f : V3) (m : Mods) (s : State) : Res := floatOp64 f m (fpMul fmt64) s
/-- FMIN.f64 (spec 09 R179). -/
def execFminF64 (f : V3) (m : Mods) (s : State) : Res := floatOp64 f m (fun _ _ a b => fpMinMax fmt64 false a b) s
/-- FMAX.f64 (spec 09 R179). -/
def execFmaxF64 (f : V3) (m : Mods) (s : State) : Res := floatOp64 f m (fun _ _ a b => fpMinMax fmt64 true a b) s
/-- FRND.f64 (spec 09 R180). -/
def execFrndF64 (f : V3) (m : Mods) (s : State) : Res := floatOp64 f m (fun r _ a _ => fpRnd fmt64 r a) s
/-- FADD.f16.x2 (spec 09 R176). -/
def execFaddF16X2 (f : V3) (m : Mods) (s : State) : Res := floatOpX2 f m (fpAdd fmt16) s
/-- FSUB.f16.x2 (spec 09 R176). -/
def execFsubF16X2 (f : V3) (m : Mods) (s : State) : Res := floatOpX2 f m (fpSub fmt16) s
/-- FMUL.f16.x2 (spec 09 R176). -/
def execFmulF16X2 (f : V3) (m : Mods) (s : State) : Res := floatOpX2 f m (fpMul fmt16) s
/-- FMIN.f16.x2 (spec 09 R179). -/
def execFminF16X2 (f : V3) (m : Mods) (s : State) : Res := floatOpX2 f m (fun _ _ a b => fpMinMax fmt16 false a b) s
/-- FMAX.f16.x2 (spec 09 R179). -/
def execFmaxF16X2 (f : V3) (m : Mods) (s : State) : Res := floatOpX2 f m (fun _ _ a b => fpMinMax fmt16 true a b) s
/-- FRND.f16.x2 (spec 09 R180). -/
def execFrndF16X2 (f : V3) (m : Mods) (s : State) : Res := floatOpX2 f m (fun r _ a _ => fpRnd fmt16 r a) s
/-- FADD.bf16.x2 (spec 09 R176). -/
def execFaddBf16X2 (f : V3) (m : Mods) (s : State) : Res := floatOpX2 f m (fpAdd fmtBf) s
/-- FSUB.bf16.x2 (spec 09 R176). -/
def execFsubBf16X2 (f : V3) (m : Mods) (s : State) : Res := floatOpX2 f m (fpSub fmtBf) s
/-- FMUL.bf16.x2 (spec 09 R176). -/
def execFmulBf16X2 (f : V3) (m : Mods) (s : State) : Res := floatOpX2 f m (fpMul fmtBf) s
/-- FMIN.bf16.x2 (spec 09 R179). -/
def execFminBf16X2 (f : V3) (m : Mods) (s : State) : Res := floatOpX2 f m (fun _ _ a b => fpMinMax fmtBf false a b) s
/-- FMAX.bf16.x2 (spec 09 R179). -/
def execFmaxBf16X2 (f : V3) (m : Mods) (s : State) : Res := floatOpX2 f m (fun _ _ a b => fpMinMax fmtBf true a b) s
/-- FRND.bf16.x2 (spec 09 R180). -/
def execFrndBf16X2 (f : V3) (m : Mods) (s : State) : Res := floatOpX2 f m (fun r _ a _ => fpRnd fmtBf r a) s

/-! ## FCLASS (spec 09 R181): a 32-bit mask, no flag -/

/-- FCLASS.f32. -/
def execFclassF32 (f : V3) (m : Mods) (s : State) : Res :=
  valueOp m f.g (fun G l => out32 f.d (fpClass fmt32 (src32 G m l f.a).toNat)) s
/-- FCLASS.f64. -/
def execFclassF64 (f : V3) (m : Mods) (s : State) : Res :=
  valueOp m f.g (fun G l => out32 f.d (fpClass fmt64 (src G m l f.a .f64).toNat)) s

/-! ## FFMA (spec 09 R178): pushed only -/

/-- FFMA.f32. -/
def execFfmaF32 (f : V4) (m : Mods) (s : State) : Res :=
  withInst s fun c => valueInst c m f.g 1 (fun G l =>
    let r := fpFma fmt32 (laneMode s c m (mod3Of m) l 0) s.peerNo (src32 G m l f.a).toNat (src32 G m l f.b).toNat
      (src32 G m l f.c).toNat
    { pushes := [BitVec.ofNat 64 r.1], flags := r.2 }) s
/-- FFMA.f64. -/
def execFfmaF64 (f : V4) (m : Mods) (s : State) : Res :=
  withInst s fun c => valueInst c m f.g 1 (fun G l =>
    let r := fpFma fmt64 (laneMode s c m (mod3Of m) l 0) s.peerNo (src G m l f.a .f64).toNat (src G m l f.b .f64).toNat
      (src G m l f.c .f64).toNat
    { pushes := [BitVec.ofNat 64 r.1], flags := r.2 }) s

/-- An .x2 form of FFMA. -/
def fmaX2 (fm : Fmt) (f : V4) (m : Mods) (s : State) : Res :=
  withInst s fun c => valueInst c m f.g 1 (fun G l =>
    let a := src32 G m l f.a
    let b := src32 G m l f.b
    let c3 := src32 G m l f.c
    let el (x : W32) (j : Nat) : Nat := bitsOf x.toNat (16 * j) 16
    let one (j : Nat) : Nat × FlagBits :=
      fpFma fm (laneMode s c m (mod3Of m) l j) s.peerNo (el a j) (el b j) (el c3 j)
    let lo := one 0
    let hi := one 1
    { pushes := [BitVec.ofNat 64 (hi.1 * 2 ^ 16 + lo.1)], flags := lo.2 ||| hi.2 }) s

/-- FFMA.f16.x2. -/
def execFfmaF16X2 (f : V4) (m : Mods) (s : State) : Res := fmaX2 fmt16 f m s
/-- FFMA.bf16.x2. -/
def execFfmaBf16X2 (f : V4) (m : Mods) (s : State) : Res := fmaX2 fmtBf f m s

/-! ## FCMP (spec 09 R182) -/

/-- A compare's outcome in a lane. -/
def fcmpOut (d : BitVec 6) (r : Bool × FlagBits) : LaneOut := { outPred (hi3 d) r.1 with flags := r.2 }

/-- FCMP.f32. -/
def execFcmpF32 (cond : BitVec 3) (f : V3) (m : Mods) (s : State) : Res :=
  valueOp m f.g (fun G l =>
    fcmpOut f.d (fpCompare fmt32 cond.toNat (src32 G m l f.a).toNat (src32 G m l f.b).toNat)) s
/-- FCMP.f64. -/
def execFcmpF64 (cond : BitVec 3) (f : V3) (m : Mods) (s : State) : Res :=
  valueOp m f.g (fun G l =>
    fcmpOut f.d (fpCompare fmt64 cond.toNat (src G m l f.a .f64).toNat (src G m l f.b .f64).toNat)) s

/-! ## Special functions (spec 09 R183) -/

/-- FDIV.f32. -/
def execFdivF32 (f : V3) (m : Mods) (s : State) : Res := floatOp32 f m (fpDiv fmt32) s
/-- FSQRT.f32. -/
def execFsqrtF32 (f : V3) (m : Mods) (s : State) : Res := floatOp32 f m (fun r p a _ => fpSqrt fmt32 r p a) s
/-- FRCP.f32. -/
def execFrcpF32 (f : V3) (m : Mods) (s : State) : Res := floatOp32 f m (fun _ _ a _ => fpRcp fmt32 a) s
/-- FRSQ.f32. -/
def execFrsqF32 (f : V3) (m : Mods) (s : State) : Res := floatOp32 f m (fun _ p a _ => fpRsq fmt32 p a) s
/-- FDIV.f64. -/
def execFdivF64 (f : V3) (m : Mods) (s : State) : Res := floatOp64 f m (fpDiv fmt64) s
/-- FSQRT.f64. -/
def execFsqrtF64 (f : V3) (m : Mods) (s : State) : Res := floatOp64 f m (fun r p a _ => fpSqrt fmt64 r p a) s
/-- FRCP.f64. -/
def execFrcpF64 (f : V3) (m : Mods) (s : State) : Res := floatOp64 f m (fun _ _ a _ => fpRcp fmt64 a) s
/-- FRSQ.f64. -/
def execFrsqF64 (f : V3) (m : Mods) (s : State) : Res := floatOp64 f m (fun _ p a _ => fpRsq fmt64 p a) s
/-- FEXP2.f32. -/
def execFexp2F32 (f : V3) (m : Mods) (s : State) : Res := floatOp32 f m (fun _ _ a _ => fpExp2 a) s
/-- FLOG2.f32. -/
def execFlog2F32 (f : V3) (m : Mods) (s : State) : Res := floatOp32 f m (fun _ p a _ => fpLog2 p a) s
/-- FSIN.f32. -/
def execFsinF32 (f : V3) (m : Mods) (s : State) : Res := floatOp32 f m (fun _ p a _ => fpTrig false p a) s
/-- FCOS.f32. -/
def execFcosF32 (f : V3) (m : Mods) (s : State) : Res := floatOp32 f m (fun _ p a _ => fpTrig true p a) s

end Sys2Proof.Machine
end

