-- ==== Sys2Proof/Machine/Convert.lean ====
section
/-! DEFINITION. Conversions and block formats: majors 0x17 to 0x19 (spec 09 R184-R188). -/

namespace Sys2Proof.Machine

/-- A result of 64 or fewer bits, at the width of its destination type. -/
def outTy (t : Ty) (d : BitVec 6) (v : Nat) (fl : FlagBits) : LaneOut :=
  if tyBits t = 64 then out64 d (BitVec.ofNat 64 v) fl else out32 d (BitVec.ofNat 32 v) fl

/-- A conversion under a rounding mode code (spec 09 R184). -/
def cvtOp (code : Nat) (from4 : BitVec 4) (f : V3) (m : Mods) (s : State) : Res :=
  withInst s fun c => valueInst c m f.g 1 (fun G l =>
    let dst := cvtTo f.b
    let from_ := cvtFrom f.b from4
    let r := convert dst from_ (laneMode s c m code l 0) s.peerNo (src G m l f.a (cvtSrcTy from_)).toNat
    outTy (cvtDstTy dst) f.d r.1 r.2) s

/-- CVT. -/
def execCvt (from4 : BitVec 4) (f : V3) (m : Mods) (s : State) : Res := cvtOp (mod3Of m) from4 f m s
/-- CVTSR: mode RS (spec 09 R185). -/
def execCvtsr (from4 : BitVec 4) (f : V3) (m : Mods) (s : State) : Res := cvtOp 4 from4 f m s

/-! ## CVTMX (spec 09 R187) -/

/-- A block packed from the values of Active(): element format, source format and type. -/
def packOp (ef sf : Fmt) (t : Ty) (f : V3) (m : Mods) (s : State) : Res :=
  withInst s fun c =>
    let act := activeOf s c f.g.toNat (guardNeg m)
    valueInst c m f.g 1 (fun G l =>
      let value (i : Nat) : FVal := sf.value (src G m i f.a t).toNat
      let vs := (maskLanes act).map value
      let b := mxScale ef vs
      let v := value l
      let e := mxElement ef (laneMode s c m (mod3Of m) l 0) b.1 b.2.1 v
      out32 f.d (BitVec.ofNat 32 (b.1 * 256 + e.1))
        (e.2 ||| (if v.isSig || (b.2.1 && !vs.any (·.isNan)) then flIV else 0))) s

/-- CVTMX.mxe4m3.f32. -/
def execCvtmxMxe4m3F32 (f : V3) (m : Mods) (s : State) : Res := packOp fmtE4m3 fmt32 .b32 f m s
/-- CVTMX.mxe5m2.f32. -/
def execCvtmxMxe5m2F32 (f : V3) (m : Mods) (s : State) : Res := packOp fmtE5m2 fmt32 .b32 f m s
/-- CVTMX.mxe2m1.f32. -/
def execCvtmxMxe2m1F32 (f : V3) (m : Mods) (s : State) : Res := packOp fmtE2m1 fmt32 .b32 f m s
/-- CVTMX.mxe4m3.bf16. -/
def execCvtmxMxe4m3Bf16 (f : V3) (m : Mods) (s : State) : Res := packOp fmtE4m3 fmtBf .b16 f m s
/-- CVTMX.mxe5m2.bf16. -/
def execCvtmxMxe5m2Bf16 (f : V3) (m : Mods) (s : State) : Res := packOp fmtE5m2 fmtBf .b16 f m s
/-- CVTMX.mxe2m1.bf16. -/
def execCvtmxMxe2m1Bf16 (f : V3) (m : Mods) (s : State) : Res := packOp fmtE2m1 fmtBf .b16 f m s

/-! ## EXPAND (spec 09 R186) -/

/-- The element codes of `n` elements of `w` bits from the bottom of a word, carried into bytes. -/
def expandBytes (conv : Nat → Nat) (n w : Nat) (a : W32) : Nat :=
  (List.range n).foldl (fun r i => r + conv (bitsOf a.toNat (w * i) w) * 2 ^ (8 * i)) 0

/-- An INT4 as E4M3 (spec 02 R45). -/
def int4ToE4m3 (x : Nat) : Nat :=
  let v : Int := if 8 ≤ x then (x : Int) - 16 else x
  (fmtE4m3.roundInt .rne v 0 false).1

/-- EXPAND.e4m3.i4: eight elements, 64 bits. -/
def execExpandE4m3I4 (f : V3) (m : Mods) (s : State) : Res :=
  valueOp m f.g (fun G l => out64 f.d (BitVec.ofNat 64 (expandBytes int4ToE4m3 8 4 (src32 G m l f.a)))) s

/-- A widening of four six-bit elements. -/
def expand6 (g h : Fmt) (f : V3) (m : Mods) (s : State) : Res :=
  valueOp m f.g (fun G l => out32 f.d (BitVec.ofNat 32 (expandBytes (expandElem g h) 4 6 (src32 G m l f.a)))) s

/-- EXPAND.e4m3.e2m3. -/
def execExpandE4m3E2m3 (f : V3) (m : Mods) (s : State) : Res := expand6 fmtE2m3 fmtE4m3 f m s
/-- EXPAND.e4m3.e3m2. -/
def execExpandE4m3E3m2 (f : V3) (m : Mods) (s : State) : Res := expand6 fmtE3m2 fmtE4m3 f m s
/-- EXPAND.e5m2.e3m2. -/
def execExpandE5m2E3m2 (f : V3) (m : Mods) (s : State) : Res := expand6 fmtE3m2 fmtE5m2 f m s

/-! ## BLKSCALE (spec 09 R188) -/

/-- One element of a block decoded to FP32. -/
def blkScale (ef : Fmt) (peer elem scale : Nat) : Nat × FlagBits :=
  match mxValue ef fmt32 peer elem scale with
  | .nan sg fr => (fmt32.nanCode fr, if sg then flIV else 0)
  | .inf n => (fmt32.signed n fmt32.infCode, 0)
  | .fin n x e => fmt32.round .rne ⟨n, x, e, false⟩

/-- A decoding of the element in the low bits of A by the scale in B. -/
def blkOp (ef : Fmt) (f : V3) (m : Mods) (s : State) : Res :=
  valueOp m f.g (fun G l =>
    let r := blkScale ef s.peerNo ((src32 G m l f.a).toNat % 2 ^ ef.width) ((src32 G m l f.b).toNat % 256)
    out32 f.d (BitVec.ofNat 32 r.1) r.2) s

/-- BLKSCALE.mxe4m3. -/
def execBlkscaleMxe4m3 (f : V3) (m : Mods) (s : State) : Res := blkOp fmtE4m3 f m s
/-- BLKSCALE.mxe5m2. -/
def execBlkscaleMxe5m2 (f : V3) (m : Mods) (s : State) : Res := blkOp fmtE5m2 f m s
/-- BLKSCALE.mxe2m1. -/
def execBlkscaleMxe2m1 (f : V3) (m : Mods) (s : State) : Res := blkOp fmtE2m1 f m s

end Sys2Proof.Machine
end

