-- ==== Sys2Proof/Machine/Tape.lean ====
section
/-! DEFINITION. Medlar, the tape engine: descriptors, streams, recompute spans, and TREC, TPOP, TMARK and TSEAL (spec 15
R319-R325, 16 R343-R348). -/

namespace Sys2Proof.Machine

/-! ## Descriptors (spec 15 Table 15-3) -/

/-- A tape descriptor as Medlar reads it. -/
structure TapeDesc where
  count  : Nat
  base   : Nat
  region : Nat
  size   : Nat
  used   : Nat
  stat   : Nat
  deriving DecidableEq, Repr

/-- The descriptor that 64 bytes hold, if its magic, version and reserved fields are right. Reserved bits 7:0 of TDHDR may also hold 1,
the status byte that a raster card's record whose item 0 ended leaves there in the run of spec 25 (R444-R446, which R10 puts over the
general rule). (DEDUCED, log 198.) -/
def parseTape (bs : List Byte) : Option TapeDesc :=
  let f (off len : Nat) : Nat := fieldAt bs off len
  if !(f 0 4 == 0x54440100 || f 0 4 == 0x54440101) || decide (2 ^ 57 ≤ f 0x10 8) || decide (4 ≤ f 0x28 4) ||
    !((bs.drop 0x2C).all fun b => b == 0) then none
  else some ⟨f 4 4, f 8 8, f 0x10 8, f 0x18 8, f 0x20 8, f 0x28 4⟩

/-- The bytes of the region that `bytes` raw bytes and `spans` spans take, the directory included (spec 15 R321, R323). -/
def tapeUse (d : TapeDesc) (bytes spans : Nat) : Nat :=
  max (16 * d.count) (min (Config.tapeUse bytes d.count) (ceilDiv (17 * bytes) 16 + 128 * d.count)) + 16 * spans

/-! ## Streams -/

/-- Whether a stream belongs to a tape. -/
def TapeStream.ofTape (x : TapeStream) (ctx desc : Nat) : Bool := x.ctx == ctx && x.desc == desc

/-- The place of a stream in the list of streams. -/
def State.streamAt (s : State) (ctx desc idx : Nat) : Option Nat :=
  s.eng.streams.findIdx? fun x => x.ofTape ctx desc && x.idx == idx

/-- A stream; one that nothing has touched is open and empty. (DEDUCED, log 70.) -/
def State.stream (s : State) (ctx desc idx : Nat) : TapeStream :=
  match s.streamAt ctx desc idx with
  | some i => s.eng.streams.getD i { ctx := ctx, desc := desc, idx := idx }
  | none => { ctx := ctx, desc := desc, idx := idx }

/-- A stream changed. -/
def State.modStream (s : State) (ctx desc idx : Nat) (f : TapeStream → TapeStream) : State :=
  let xs := match s.streamAt ctx desc idx with
    | some i => modNth s.eng.streams i f
    | none => s.eng.streams ++ [f { ctx := ctx, desc := desc, idx := idx }]
  { s with eng := { s.eng with streams := xs } }

/-- Every stream changed. -/
def State.mapStreams (s : State) (f : TapeStream → TapeStream) : State :=
  { s with eng := { s.eng with streams := s.eng.streams.map f } }

/-- A tape created again: its streams are open and empty (spec 15 R319). -/
def State.freshTape (s : State) (ctx desc : Nat) : State :=
  s.mapStreams fun x => if x.ofTape ctx desc then { ctx := ctx, desc := desc, idx := x.idx, fills := x.fills } else x

/-- Raw bytes recorded and spans opened over the streams of a tape. -/
def State.tapeTotals (s : State) (ctx desc : Nat) : Nat × Nat :=
  s.eng.streams.foldl (fun a x => if x.ofTape ctx desc then (a.1 + x.bytes, a.2 + x.spans) else a) (0, 0)

/-- The open span of a stream. -/
def TapeStream.openSpan (x : TapeStream) : Option SpanRec := match x.recs with
  | .span p :: _ => if p.closed then none else some p
  | _ => none

/-- The stream with its open span closed; one that holds no record counts no more. -/
def TapeStream.closeSpan (x : TapeStream) : TapeStream := match x.recs with
  | .span p :: rest => { x with recs := .span { p with closed := true, counted := p.counted && !p.widths.isEmpty } :: rest }
  | _ => x

/-- The segment of the open span of a stream, when the span is counted and holds no record: its count drops as it is closed (spec 15
R325). -/
def TapeStream.emptySpan (x : TapeStream) : List Nat := match x.openSpan with
  | some p => if p.counted && p.widths.isEmpty then [p.seg] else []
  | none => []

/-- What the next TPOP of a stream finds: nothing, a record and the address it is kept at, or a record of an unfilled span. -/
inductive NextRec where
  | none
  | value (wide : Bool) (v : W64) (place : Nat)
  | unfilled (seg : Nat) (wide : Bool)

/-- The most recently recorded record still in a stream. -/
def nextRec : List TapeRec → NextRec
  | [] => .none
  | .raw w v a :: _ => .value w v a
  | .span p :: rest =>
    if p.isFilled then
      (match p.filled with
        | (w, v) :: _ => .value w v p.place
        | [] => nextRec rest)
    else
      (match p.widths with
        | w :: _ => .unfilled p.seg w
        | [] => nextRec rest)

/-- The records after that record is removed, and the counted spans whose last record is gone, by segment. -/
def popRec : List TapeRec → List TapeRec × List Nat
  | [] => ([], [])
  | .raw _ _ _ :: rest => (rest, [])
  | .span p :: rest =>
    let gone := if p.counted then [p.seg] else []
    match p.isFilled, p.filled with
    | true, [_] => (rest, gone)
    | true, _ :: more => (.span { p with filled := more, widths := p.widths.drop 1 } :: rest, [])
    | _, _ =>
      let r := popRec rest
      (r.1, gone ++ r.2)

/-- The span count of segment `n` moved by one, if the segment is there. (DEDUCED, log 77.) -/
def State.countSpan (s : State) (n : Nat) (up : Bool) : State :=
  s.mapSegments fun x => if x.name == n then { x with spans := if up then x.spans + 1 else x.spans - 1 } else x

/-- The span counts of a list of segments dropped by one each; a segment let go is released (spec 15 R325). -/
def State.dropSpans (s : State) (ns : List Nat) : State :=
  if ns.isEmpty then s else (ns.foldl (fun s n => s.countSpan n false) s).releaseSegments

/-! ## What replayed grids do to a stream (spec 15 R324) -/

/-- The place, from the newest record, of the `k`-th span of a segment counted from the oldest. -/
def TapeStream.spanPlace (x : TapeStream) (n k : Nat) : Option Nat :=
  let hits := (indexed x.recs).filter fun y => match y.2 with
    | .span p => p.seg == n
    | _ => false
  (hits.reverse[k]?).map (·.1)

/-- A record's span changed. (DEDUCED, log 76.) -/
def TapeRec.modSpan (f : SpanRec → SpanRec) : TapeRec → TapeRec
  | .span p => .span (f p)
  | r => r

/-- TMARK `n` of a lane replayed for segment `n`: the next span of the segment is filled from now on. -/
def TapeStream.fillMark (x : TapeStream) (n : Nat) : TapeStream :=
  let old := ((x.fills.find? fun y => y.1 == n).map (·.2)).getD (0, false)
  if old.2 then x
  else
    let x := match x.spanPlace n old.1 with
      | some i => { x with recs := modNth x.recs i fun r => r.modSpan fun p => if p.isFilled then p else { p with filled := [] } }
      | none => x
    { x with fills := (n, old.1 + 1, true) :: x.fills.filter fun y => y.1 != n }

/-- The closing TMARK of a replayed lane. -/
def TapeStream.fillStop (x : TapeStream) (n : Nat) : TapeStream :=
  { x with fills := x.fills.map fun y => if y.1 == n then (n, y.2.1, false) else y }

/-- A TREC of a replayed lane: a record of the span being filled. -/
def TapeStream.fillRec (x : TapeStream) (n : Nat) (wide : Bool) (v : W64) : TapeStream :=
  match x.fills.find? fun y => y.1 == n with
  | some (_, k, true) =>
    (match x.spanPlace n (k - 1) with
      | some i =>
        { x with recs := modNth x.recs i fun r => r.modSpan fun p =>
            if p.isFilled then p else { p with filled := (wide, v) :: p.filled } }
      | none => x)
  | _ => x

/-! ## The tape instructions -/

/-- A tape instruction. -/
inductive TapeKind where
  | trec (wide : Bool)
  | tpop (wide : Bool)
  | tmark
  | tseal
  deriving DecidableEq, Repr

/-- The name that closes a span. -/
def spanEnd : Nat := 0xFFFFFFFF

/-- Whether a span opened or closed by TMARK carries a name that Table 16-2 refuses. -/
def badName (n : Nat) : Bool := n != spanEnd && decide (64 * 65536 ≤ n)

/-- A cause 12 trap over the lanes of one reason: the lowest of the lanes that failed names it. -/
def tapeTrap (s : State) (c : Inst) (m : Mods) (bad : List (Nat × Nat)) (addr : Nat) : Res :=
  match bad with
  | [] => finishSeq c m 0 s s
  | (l, r) :: _ =>
    memTrap s c m (trapAddr 12 l r 0 (BitVec.ofNat 64 addr) (laneMask fun i => bad.any fun y => y.1 == i && y.2 == r))

/-- What a lane's instruction carries: its stream, its value or name, and the address that Medlar keeps what it records at. -/
structure TapeLane where
  lane  : Nat
  idx   : Nat
  v     : W64
  place : Nat := 0

/-- Rows 5 and 6 of Table 16-2 for a lane: row and reason. (DEDUCED, log 75.) -/
def tapeRow (x : TapeStream) (k : TapeKind) (v : W64) : Option (Nat × Nat) :=
  match k with
  | .trec _ => if x.sealed then some (5, 5) else none
  | .tseal => if x.sealed then some (5, 5) else none
  | .tmark =>
    if x.sealed then some (5, 5)
    else if v.toNat == spanEnd then (if x.openSpan.isNone then some (5, 8) else none)
    else if x.openSpan.isSome then some (5, 7)
    else none
  | .tpop wide =>
    if !x.sealed then some (5, 6)
    else
      match nextRec x.recs with
      | .none => some (6, 9)
      | .value w _ _ => if w != wide then some (6, 10) else none
      | .unfilled _ w => if w != wide then some (6, 10) else none

/-- The lanes of TREC whose record would carry use beyond RSIZE, taken in ascending order (row 7). -/
def fullLanes (d : TapeDesc) (spans n : Nat) (inSpan : Nat → Bool) : Nat → List TapeLane → List Nat
  | _, [] => []
  | bytes, t :: ts =>
    if inSpan t.idx then fullLanes d spans n inSpan bytes ts
    else if decide (d.size < tapeUse d (bytes + n) spans) then t.lane :: fullLanes d spans n inSpan bytes ts
    else fullLanes d spans n inSpan (bytes + n) ts

/-- Bytes of a record. -/
def recBytes (wide : Bool) : Nat := if wide then 8 else 4

/-- The segment under replay that a lane's grid is replayed for. -/
def State.replayOf (s : State) (t : Nat) : Option Nat := (s.grid (s.team t).grid).par.replay

/-- Rows 3 to 7 of Table 16-2: (row, lane, reason) of every failing lane. (DEDUCED, log 72.) -/
def State.tapeRows (s : State) (c : Inst) (k : TapeKind) (desc : Nat) (d : TapeDesc) (lids : List (Nat × Nat × W64)) :
    List (Nat × Nat × Nat) :=
  let ctx := s.ctxOf c.team
  let away (x : Nat × Nat × W64) : Bool := decide (x.2.1 < d.base) || decide (d.base + d.count ≤ x.2.1)
  let here := lids.filter fun x => !away x
  let named := here.filter fun x => !(k == .tmark && badName x.2.2.toNat)
  let replayed := (s.replayOf c.team).isSome && (match k with
    | .tpop _ => false
    | _ => true)
  let rows : List (Nat × Nat × Nat) := if replayed then [] else named.filterMap fun x =>
    (tapeRow (s.stream ctx desc (x.2.1 - d.base)) k x.2.2).map fun r => (r.1, x.1, r.2)
  let ok := named.filter fun x => !rows.any fun r => r.2.1 == x.1
  let full : List Nat := match k with
    | .trec wide =>
      if replayed then []
      else
        let tot := s.tapeTotals ctx desc
        fullLanes d tot.2 (recBytes wide) (fun i => (s.stream ctx desc i).openSpan.isSome) tot.1
          (ok.map fun x => ⟨x.1, x.2.1 - d.base, x.2.2, 0⟩)
    | _ => []
  let lost := lids.filter away
  let misnamed := here.filter fun x => k == .tmark && badName x.2.2.toNat
  lost.map (fun x => (3, x.1, 3)) ++ misnamed.map (fun x => (4, x.1, 4)) ++ rows ++ full.map fun l => (7, l, 11)

/-- A lane's access to the region (rows 8 and 9): a failure, missing pages, a wait, or the pieces. -/
inductive RegionAcc where
  | bad
  | pages (ps : List Nat)
  | wait (s : State)
  | ok (s : State) (ps : List (Nat × Nat × Bool))

/-- The region access of a lane to ranges (address, bytes). (DEDUCED, log 74.) -/
def State.regionAcc (s : State) (w : Unit) (L : Lane) (rs : List (Nat × Nat)) (t : EngTouch) : RegionAcc :=
  match s.engRanges w t false (rs.map fun r => (w.ctx, r.1, r.2)) with
  | .bad _ => .bad
  | .pages ps => if ps.any L.bad.contains then .bad else .pages ps
  | .wait s' => .wait s'
  | .ok s' ps => .ok s' ps

/-- Medlar as it works for a lane of an instance. (DEDUCED, log 73.) -/
def State.tapeUnit (s : State) (c : Inst) (l : Nat) : Unit :=
  { who := unitOf c l, grid := (s.team c.team).grid, ctx := s.ctxOf c.team }

/-- Medlar as it writes the tape of a team: its writes are performed after the instruction has retired (spec 15 R321). -/
def State.tapeWriter (s : State) (t : Nat) : Unit := { who := (t, 251, 0), grid := (s.team t).grid, ctx := s.ctxOf t }

/-- Where Medlar keeps what is recorded after `bytes` raw bytes and `spans` spans: after the directory, within the region. -/
def tapePlace (d : TapeDesc) (bytes spans : Nat) : Nat := d.region + min (16 * d.count + bytes + 16 * spans) (d.size - 16)

/-- The lanes of an instance with the places of what they record, in ascending order; `n` bytes each but those inside a span. -/
def placeLanes (d : TapeDesc) (k : TapeKind) (inSpan : Nat → Bool) (n : Nat) : Nat → Nat → List TapeLane → List TapeLane
  | _, _, [] => []
  | bytes, spans, x :: xs =>
    let y := { x with place := tapePlace d bytes spans }
    match k with
    | .trec _ => y :: placeLanes d k inSpan n (if inSpan x.idx then bytes else bytes + n) spans xs
    | .tmark => y :: placeLanes d k inSpan n bytes (if x.v.toNat == spanEnd then spans else spans + 1) xs
    | _ => y :: placeLanes d k inSpan n bytes spans xs

/-- The region's ranges that a lane's instruction accesses: the directory entry, the record, or the span. A replayed lane records
nothing. -/
def State.tapeRanges (s : State) (c : Inst) (k : TapeKind) (desc : Nat) (d : TapeDesc) (x : TapeLane) : List (Nat × Nat) :=
  let dir := (d.region + 16 * x.idx, 16)
  let y := s.stream (s.ctxOf c.team) desc x.idx
  match k, s.replayOf c.team with
  | .tpop wide, _ => match nextRec y.recs with
    | .value _ _ a => [dir, (a, recBytes wide)]
    | _ => [dir]
  | _, some _ => []
  | .tseal, none => [dir]
  | .trec wide, none => if y.openSpan.isSome then [] else [(x.place, recBytes wide)]
  | .tmark, none => if x.v.toNat == spanEnd then [] else [(x.place, 16)]

/-- What one lane's instruction does to its stream, and what it pushes. -/
def State.tapeDo (s : State) (c : Inst) (k : TapeKind) (desc : Nat) (x : TapeLane) : State :=
  let ctx := s.ctxOf c.team
  let on (f : TapeStream → TapeStream) : State := s.modStream ctx desc x.idx f
  match s.replayOf c.team, k with
  | some n, .trec wide => on fun y => y.fillRec n wide x.v
  | some n, .tmark => on fun y => if x.v.toNat == spanEnd then y.fillStop n else if x.v.toNat == n then y.fillMark n else y
  | some _, .tseal => s
  | none, .trec wide =>
    on fun y => match y.recs with
      | .span p :: rest =>
        if p.closed then { y with recs := .raw wide x.v x.place :: y.recs, bytes := y.bytes + recBytes wide }
        else { y with recs := .span { p with widths := wide :: p.widths } :: rest }
      | _ => { y with recs := .raw wide x.v x.place :: y.recs, bytes := y.bytes + recBytes wide }
  | none, .tmark =>
    if x.v.toNat == spanEnd then (on TapeStream.closeSpan).dropSpans (s.stream ctx desc x.idx).emptySpan
    else
      let n := x.v.toNat
      let there := s.cp.segments.any fun y => y.name == n
      let new : SpanRec := { seg := n, counted := there, place := x.place }
      (on fun y => { y with recs := .span new :: y.recs, spans := y.spans + 1 }).countSpan n true
  | none, .tseal =>
    (on fun y => { y.closeSpan with sealed := true }).dropSpans (s.stream ctx desc x.idx).emptySpan
  | _, .tpop _ =>
    let r := popRec (s.stream ctx desc x.idx).recs
    (on fun y => { y with recs := r.1 }).dropSpans r.2

/-- What a lane's TPOP pushes. -/
def State.tapeValue (s : State) (c : Inst) (desc : Nat) (x : TapeLane) : LaneOut :=
  match nextRec (s.stream (s.ctxOf c.team) desc x.idx).recs with
  | .value _ v _ => { pushes := [v] }
  | _ => zeroPushes 1

/-- The segment whose replay a lane's TPOP waits for, with its stream. -/
def State.tapeSpan (s : State) (c : Inst) (k : TapeKind) (desc : Nat) (x : TapeLane) : Option (Nat × Nat) :=
  let ctx := s.ctxOf c.team
  match k, nextRec (s.stream ctx desc x.idx).recs with
  | .tpop _, .unfilled n _ => some (n, (s.streamAt ctx desc x.idx).getD 0)
  | _, _ => none

/-- A replay of a segment requested: one under way is joined (spec 03 R77). (DEDUCED, log 78.) -/
def State.askReplay (s : State) (n : Nat) : State :=
  if s.cp.replays.any fun r => r.name == n && !r.ended then s
  else
    let new : Replay := { name := n }
    { s with cp := { s.cp with replays := s.cp.replays ++ [new] } }

/-- A field of the descriptor written by Medlar; a write that fails is remembered (spec 15 R321). -/
def State.tapeWrite (s : State) (team a : Nat) (bs : List Byte) : State :=
  let w := s.tapeWriter team
  match s.engGlobal w a bs.length .write with
  | .ok s' ps => s'.engStore w ps bs
  | _ => s.modTeam team fun T => { T with tapeFail := T.tapeFail ++ [BitVec.ofNat 64 a] }

/-- What a field of the descriptor that an instruction is about to write waits for: its line here, or its page. -/
def State.tapeWait (s : State) (w : Unit) (a n : Nat) : Option State :=
  match s.engGlobal w a n .write with
  | .wait s' => some s'
  | .pages ps => some (s.engFaults w.ctx ps)
  | _ => none

/-- What Medlar leaves in `n` bytes of the region: its contents are not architectural. -/
def regionBytes (ctr n : Nat) : List Byte := (leBytes 8 (Config.unstated ctr).toNat ++ leBytes 8 (Config.unstated (ctr + 1)).toNat).take n

/-- What a tape instruction does to the region. -/
def TapeKind.touch : TapeKind → EngTouch
  | .tpop _ => .read
  | _ => .write

/-- The lanes of an instance, given with their logical identifiers and values, with their streams and the places of what they record. -/
def State.tapeLanes (s : State) (c : Inst) (k : TapeKind) (desc : Nat) (d : TapeDesc) (lids : List (Nat × Nat × W64)) :
    List TapeLane :=
  let ctx := s.ctxOf c.team
  let tot := s.tapeTotals ctx desc
  let n := match k with
    | .trec wide => recBytes wide
    | _ => 0
  placeLanes d k (fun i => (s.stream ctx desc i).openSpan.isSome) n tot.1 tot.2
    (lids.map fun x => ⟨x.1, x.2.1 - d.base, x.2.2, 0⟩)

/-- Medlar's writes to the region, of what several lanes record. -/
def State.tapePut (s : State) (team : Nat) (pss : List (List (Nat × Nat × Bool))) : State :=
  pss.foldl (fun s ps =>
    (s.engStore (s.tapeWriter team) ps (regionBytes s.sched.freeCtr (ps.foldl (fun n p => n + p.2.1) 0))).tick.tick) s

/-- A tape instruction none of whose lanes traps: lanes that wait park as one sub-group, the others are performed. -/
def tapeProceed (c : Inst) (m : Mods) (act : LaneMask) (k : TapeKind) (desc : Nat) (d : TapeDesc)
    (xs : List TapeLane) (regs : List (Nat × RegionAcc)) (s0 s : State) : Res :=
  let ctx := s.ctxOf c.team
  let core := (s.team c.team).core
  let pages := (regs.flatMap fun r => match r.2 with
    | .pages ps => ps
    | _ => []).eraseDups
  let spans := (xs.filterMap fun x => s.tapeSpan c k desc x).eraseDups
  let parked (x : TapeLane) : Bool := (s.tapeSpan c k desc x).isSome || regs.any fun r => r.1 == x.lane && (match r.2 with
    | .pages _ => true
    | _ => false)
  let stay := laneMask fun l => xs.any fun x => x.lane == l && parked x
  let go := xs.filter fun x => !parked x
  let s1 := pages.foldl (fun s p => s.ensureFault ctx p (s.faultKind ctx p 5) core) s
  let s1 := spans.foldl (fun s n => s.askReplay n.1) s1
  let s1 := if stay == 0 then s1 else s1.park c.team c.group stay { id := 0, pages := pages, segs := spans }
  let out (l : Nat) : LaneOut := match k, go.find? fun x => x.lane == l with
    | .tpop _, some x => s.tapeValue c desc x
    | .tpop _, none => zeroPushes 1
    | _, _ => {}
  let s2 := go.foldl (fun s x => s.tapeDo c k desc x) s1
  let s2 := if k.touch == .write then
      s2.tapePut c.team (go.filterMap fun x => (regs.find? fun r => r.1 == x.lane).bind fun r => match r.2 with
        | .ok _ ps => some ps
        | _ => none)
    else s2
  let tot := s2.tapeTotals ctx desc
  let use := tapeUse d tot.1 tot.2
  let s2 := if go.isEmpty || use == d.used then s2 else s2.tapeWrite c.team (desc + 0x20) (leBytes 8 use)
  let n := match k with
    | .tpop _ => 1
    | _ => 0
  finishSeq c m stay s0 ((s2.commitLanes c act stay n out).clearAnswers c.owns)

/-- The rows from 3 on of Table 16-2, on a descriptor that has been read. -/
def tapeChecked (c : Inst) (m : Mods) (act : LaneMask) (k : TapeKind) (desc : Nat) (d : TapeDesc) (e : Nat)
    (lids : List (Nat × Nat × W64)) (s0 s : State) : Res :=
  let G := s.instGrp c
  let rows := s.tapeRows c k desc d lids
  match (rows.map (·.1)).min? with
  | some row =>
    let bad := sortBy (fun a b => decide (a.1 < b.1)) ((rows.filter fun r => r.1 == row).map (·.2))
    if row == 7 then
      match s.tapeWait (s.tapeUnit c e) (desc + 0x28) 4 with
      | some s' => stallRes s' c
      | none => tapeTrap (s.tapeWrite c.team (desc + 0x28) (leBytes 4 (d.stat / 2 * 2 + 1))) c m bad desc
    else tapeTrap s c m bad desc
  | none =>
    let xs := s.tapeLanes c k desc d lids
    let regs := xs.map fun x =>
      (x.lane, s.regionAcc (s.tapeUnit c x.lane) (G.lane x.lane) (s.tapeRanges c k desc d x) k.touch)
    let late := (s.team c.team).tapeFail
    let waits := regs.filterMap fun r => match r.2 with
      | .wait s' => some s'
      | _ => none
    let bad := xs.filter fun x => !late.isEmpty || regs.any fun r => r.1 == x.lane && (match r.2 with
      | .bad => true
      | _ => false)
    match (if late.isEmpty then waits else []), bad with
    -- which lanes fail is known once every lane's walk has its lines
    | s' :: _, _ => stallRes s' c
    | [], x :: _ =>
      let a := match late with
        | f :: _ => f.toNat
        | [] => match s.tapeRanges c k desc d x with
          | r :: _ => r.1
          | [] => d.region
      tapeTrap (s.modTeam c.team fun T => { T with tapeFail := [] }) c m (bad.map fun x => (x.lane, 12)) a
    | [], [] =>
      -- a seal waits until the records have been performed
      if k == .tseal && s.unitPending (s.tapeWriter c.team).who then stallRes s c
      else match s.tapeWait (s.tapeUnit c e) (desc + 0x20) 8 with
        | some s' => stallRes s' c
        | none => tapeProceed c m act k desc d xs regs s0 s

/-- A tape instruction (spec 16 R343); `val` gives a lane's value or name. -/
def tapeInst (k : TapeKind) (val : Group → Nat → W64) (f : V4) (m : Mods) (s : State) : Res :=
  withInst s fun c =>
    let G := s.instGrp c
    let act := activeOf s c f.g.toNat (guardNeg m)
    let lanes := (maskLanes act).filter fun l => !(G.lane l).helper
    match lanes with
    | [] =>
      let n := match k with
        | .tpop _ => 1
        | _ => 0
      finishSeq c m 0 s (s.commitLanes c act 0 n fun _ => zeroPushes n)
    | e :: _ =>
      match lanes.filterMap fun l => (G.lane l).segFail.map fun x => (l, x) with
      | (l, r, n) :: more =>
        -- the replay that these lanes waited for has failed
        memTrap s c m (trapOf 12 l r 0 (BitVec.ofNat 32 n) 0 (laneMask fun i => i == l || more.any fun y => y == (i, r, n)))
      | [] =>
        let desc := (s.team c.team).tapeDesc.toNat
        let all (r : Nat) : List (Nat × Nat) := lanes.map fun l => (l, r)
        if desc == 0 then tapeTrap s c m (all 1) desc
        else if desc % 64 != 0 then tapeTrap s c m (all 2) desc
        else
          let va : W64 := BitVec.ofNat 64 desc
          let L : Lane := { bad := lanes.flatMap fun l => (G.lane l).bad }
          let x := s.checkSeg c.team L va ⟨.global, va, 64, .read, false⟩
          if !x.busy.isEmpty then stallRes (s.recallLines x.busy) c
          else if !x.conds.isEmpty || !(s.fabricConds (unitOf c e) va x.keys).isEmpty then tapeTrap s c m (all 2) desc
          else if !x.pages.isEmpty then .next (s.parkLanes c ((maskLanes c.mask).map fun l => (l, x)) [])
          else
            let r := s.reachAll (unitOf c e) (s.gridOpt c.team) .read (keyRuns x.keys)
            if !r.2 then stallRes r.1 c
            else
              let s1 := x.keys.foldl (fun s k => if s.isPeerKey k.1 then s.useAnswer (unitOf c e) false k.1 else s) r.1
              match parseTape (x.keys.map fun k => memRead s1.mem k.1) with
              | none => tapeTrap s1 c m (all 2) desc
              | some d =>
                let s2 := if d.used == 0 then s1.freshTape (s.ctxOf c.team) desc else s1
                let lids := lanes.map fun l => (l, s.lid c.team c.group l, val G l)
                tapeChecked c m act k desc d e lids s s2

/-- TREC.b32. -/
def execTrecB32 (f : V4) (m : Mods) (s : State) : Res := tapeInst (.trec false) (fun G l => src G m l f.a .b32) f m s
/-- TREC.b64. -/
def execTrecB64 (f : V4) (m : Mods) (s : State) : Res := tapeInst (.trec true) (fun G l => src G m l f.a .b64) f m s
/-- TPOP.b32. -/
def execTpopB32 (f : V4) (m : Mods) (s : State) : Res := tapeInst (.tpop false) (fun _ _ => 0) f m s
/-- TPOP.b64. -/
def execTpopB64 (f : V4) (m : Mods) (s : State) : Res := tapeInst (.tpop true) (fun _ _ => 0) f m s
/-- TMARK. -/
def execTmark (f : V4) (m : Mods) (s : State) : Res := tapeInst .tmark (fun G l => src G m l f.a .b32) f m s
/-- TSEAL. -/
def execTseal (f : V4) (m : Mods) (s : State) : Res := tapeInst .tseal (fun _ _ => 0) f m s

end Sys2Proof.Machine
end

