-- ==== Sys2Proof/Machine/Replay.lean ====
section
/-! DEFINITION. Replays of recorded segments (spec 03 R77, 04 R89, 15 R324). -/

namespace Sys2Proof.Machine

/-- The sub-groups that wait for a segment's replay wait no longer; with a reason, their lanes take its trap. -/
def State.endWait (s : State) (n : Nat) (reason : Option Nat) : State :=
  let waits (p : Park) : Bool := p.segs.any fun x => x.1 == n
  let tell (G : Group) (L : Lane) : Lane :=
    match L.status, reason with
    | .parked id, some r => if G.parks.any fun p => p.id == id && waits p then { L with segFail := some (r, n) } else L
    | _, _ => L
  let rest (p : Park) : Park := { p with segs := p.segs.filter fun x => x.1 != n }
  let free (G : Group) : Group :=
    if G.parks.any waits then { G with lanes := G.lanes.map (tell G), parks := G.parks.map rest } else G
  State.wakeParks { s with teams := s.teams.map fun T => { T with groups := T.groups.map free } }

/-- The spans of a segment in a list of records after its replay: filled, or empty again. -/
def settleSpan (n : Nat) (good : Bool) (p : SpanRec) : SpanRec :=
  if p.seg != n || p.isFilled then p
  else if good && !p.widths.isEmpty && p.filled.map (·.1) == p.widths then { p with isFilled := true }
  else { p with filled := [] }

/-- The unfilled span that the next TPOP of a stream finds. -/
def waitingSpan : List TapeRec → Option SpanRec
  | [] => none
  | .raw _ _ _ :: _ => none
  | .span p :: rest =>
    if p.isFilled then (if p.filled.isEmpty then waitingSpan rest else none)
    else if p.widths.isEmpty then waitingSpan rest
    else some p

/-- The streams on which parked lanes wait for a segment. -/
def State.waitingStreams (s : State) (n : Nat) : List Nat :=
  (s.teams.flatMap fun T => T.groups.flatMap fun G => G.parks.flatMap fun p =>
    p.segs.filterMap fun x => if x.1 == n then some x.2 else none).eraseDups

/-- Whether a stream's span of a segment does not hold exactly its counted records. -/
def TapeStream.mismatch (x : TapeStream) (n : Nat) : Bool :=
  match waitingSpan x.recs with
  | some p => p.seg == n && p.filled.map (·.1) != p.widths
  | none => false

/-- The command processor as it marks the descriptors of a replay's tapes, in a context. -/
def markUnit (r ctx : Nat) : Unit := { who := (r, 249, 0), grid := noGrid, ctx := ctx }

/-- TDSTAT's span-mismatch bit set in the descriptor of each of a list of streams, one after the other: a descriptor whose line or page
is still to come is waited for, one that cannot be written is passed over. -/
def State.markMismatch (s : State) (r : Nat) : List TapeStream → RecWrite
  | [] => .done s
  | x :: xs =>
    let w := markUnit r x.ctx
    match s.engGlobal w (x.desc + 0x28) 4 .merge with
    | .ok s' ps => (s'.engStore w ps (leBytes 4 (Nat.lor (leNat (s'.rdPieces ps)) 2))).markMismatch r xs
    | .wait s' => .wait s'
    | .pages ps => if s.pagesFailed w.who x.ctx ps then s.markMismatch r xs else .wait (s.waitPages w.who x.ctx ps)
    | .bad _ => s.markMismatch r xs

/-- The streams whose span of a segment, that a parked lane waits on, does not hold exactly its counted records. -/
def State.mismatches (s : State) (n : Nat) : List TapeStream :=
  ((s.waitingStreams n).filterMap fun i => s.eng.streams[i]?).filter fun x => x.mismatch n

/-- The end of a replay: with a reason, every group parked on it takes the trap; else the spans are filled if every one of them matches. -/
def State.settleReplay (s : State) (r n : Nat) (reason : Option Nat) : State :=
  let good := reason.isNone && (s.mismatches n).isEmpty
  let s := s.mapStreams fun x =>
    { x with recs := x.recs.map (TapeRec.modSpan (settleSpan n good)), fills := x.fills.filter fun y => y.1 != n }
  let s := { s with cp := { s.cp with replays := modNth s.cp.replays r fun R => { R with ended := true, current := none } } }
  s.endWait n (match reason with
    | some k => some k
    | none => if good then none else some 15)

/-- A replay that is to end: the mismatched spans are marked first, and the end waits for that (spec 15 R324). (DEDUCED, log 79.) -/
def State.endReplay (s : State) (r n : Nat) (reason : Option Nat) : State :=
  match s.markMismatch r (if reason.isNone then s.mismatches n else []) with
  | .wait s' => s'
  | .no s' | .done s' => ((s'.engDone (markUnit r 0)).endPages (markUnit r 0).who).settleReplay r n reason

/-- The re-keys recorded for a grid. -/
inductive Rekeys where
  | got (ks : List Rekey)
  | wait (s : State)
  | no

/-- The re-keys that the entries at some places hold, in order. -/
def State.rekeysAt (s : State) (w : Unit) (Q : Queue) : List Nat → Rekeys
  | [] => .got []
  | p :: ps =>
    match s.cpRead w (Q.entryAt p) 128 with
    | .wait s' => .wait s'
    | .no => .no
    | .got _ bs =>
      match s.rekeysAt w Q ps with
      | .got ks => .got (⟨fieldAt bs 4 4 % 2 ^ 24, fieldAt bs 8 8, coresOf (fieldAt bs 0x20 32)⟩ :: ks)
      | r => r

/-- The re-keys recorded for a grid, in order. -/
def State.rekeysOf (s : State) (w : Unit) (Q : Queue) (x : Segment) (g : Nat) : Rekeys :=
  s.rekeysAt w Q ((x.items.filter fun i => i.2.1 == g && i.2.2).map (·.1))

/-- Whether a replayed grid, or one of its cards' items, has failed. -/
def State.replayFailed (s : State) (g : Nat) : Bool :=
  (s.grid g).report.status != 0 || s.eng.cards.any fun C => C.grid == g && C.done.any fun d => d.2 != 1

/-- The grid of a recorded copy of a packet. -/
def replayGrid (n : Nat) (par : LaunchPar) (rung : Nat) (ks : List Rekey) : Grid :=
  { par := { par with replay := some n, compl := none, release := none, deadline := none, dlTrap := false, deps := [] }
    released := true, rung := rung, place := { allowed := par.allowed, rekeys := ks } }

/-- The next recorded packet of a replay launched. (DEDUCED, log 80.) -/
def State.replayNext (s : State) (r : Nat) (R : Replay) (x : Segment) (todo : List (Nat × Nat)) : Res :=
  match todo with
  | [] => .next (s.endReplay r R.name none)
  | (pos, g) :: rest =>
    let Q := s.queue x.queue
    let w := cpFor x.queue (s.grid g).par.ctx
    let failed (s : State) : Res := .next ((s.engDone w).endReplay r R.name (some 14))
    match s.cpRead w (Q.entryAt pos) 128 with
    | .wait s' => .next s'
    | .no => failed s
    | .got s1 bs =>
      match s1.checkPacket w x.queue bs true with
      | .wait s2 => .next s2
      | .reject s2 _ _ _ _ => failed s2
      | .accept s2 par =>
        let rung := fieldAt bs 0x74 1 % 4
        (match s2.rekeysOf w Q x g with
          | .wait s3 => .next s3
          | .no => failed s2
          | .got ks =>
            if decide (par.kernels.length ≤ rung) then failed s2
            else
              let new := s2.grids.length
              let s3 := { s2 with
                grids := s2.grids ++ [replayGrid R.name par rung ks]
                cp := { s2.cp with replays := modNth s2.cp.replays r fun R =>
                  { R with started := true, todo := rest, current := some new } } }
              .next (s3.engDone w))

/-- REPLAY_LAUNCH_PACKET: the step of a replay that is due: a segment of which a packet still to be launched is gone, the first packet
once the original run has completed and its entries are written, the next packet after the previous one has completed, or the end. -/
def execReplayLaunchPacket (replay : Nat) (s : State) : Res :=
  match s.cp.replays[replay]? with
  | none => notDue s
  | some R =>
    let lost : Res := .next (s.endReplay replay R.name (some 13))
    let launch (todo : List (Nat × Nat)) (s : State) : Res :=
      match todo, s.cp.segments.find? (fun x => x.name == R.name && !x.lost) with
      | [], _ => .next (s.endReplay replay R.name none)
      | _, some x => if s.entriesOwed x.queue then notDue s else s.replayNext replay R x todo
      | _, none => lost
    if R.ended then notDue s
    else if !R.started then
      match s.cp.segments.find? fun x => x.name == R.name && !x.lost with
      | none => lost
      | some x =>
        if x.items.any fun i => !(s.grid i.2.1).over then notDue s
        else
          let s1 := s.mapStreams fun y => { y with fills := (R.name, 0, false) :: y.fills.filter fun z => z.1 != R.name }
          launch ((x.items.filter fun i => !i.2.2).map fun i => (i.1, i.2.1)) s1
    else
      match R.current with
      | some g =>
        if !(s.grid g).over then notDue s
        else if s.replayFailed g then .next (s.endReplay replay R.name (some 14))
        else launch R.todo s
      | none => launch R.todo s

end Sys2Proof.Machine
end

