-- ==== Sys2Proof/Machine/Preempt.lean ====
section
/-! DEFINITION. Spatial pre-emption, context switch and the end of a context (spec 04 R88, R89, 07 R138, 20 R412-R415). -/

namespace Sys2Proof.Machine

/-! ## Stopping a team (spec 20 R412, 13 R274, 17 R363) -/

/-- The running multiplications of a team stop at their K-group (spec 13 R274). -/
def State.stopTiles (s : State) (t : Nat) : State :=
  (List.range (s.team t).tiles.length).foldl (fun s i =>
    match (s.tile t i).ops with
    | o :: _ => if o.started then s.writeProgress t o o.next 0 2 else s
    | [] => s) s

/-- The item under way of a card that touches its team's scratchpad is abandoned, to be performed again from its start. -/
def Card.abandon (C : Card) : Card :=
  if C.cur.isSome then
    { C with pos := 0, sent := false, sick := false, pages := [], ahead := [], fail := match C.cancel with
      | some x => some x
      | none => C.kfail }
  else C

/-- A team leaves its core. -/
def State.leaveCore (s : State) (t : Nat) (st : TeamStatus) : State :=
  let s := s.stopTiles t
  let hit (n : Nat) (C : Card) : Bool := C.team == t && !C.ended && !s.cardGlobal (s.card n)
  let cards := mapIdx (fun n C => if hit n C then C.abandon else C) s.eng.cards
  let halt (G : Group) : Group := { G with sel := [], lanes := G.lanes.map fun L => { L with stall := none } }
  (({ s with eng := { s.eng with cards := cards } }).modTeam t fun T => { T with status := st, groups := T.groups.map halt }).wakeParks

/-! ## Vacates (spec 20 R412-R414) -/

/-- The cores that VACMASK names. -/
def State.vacCores (s : State) : List Nat :=
  (indexed s.regs.vacMask).flatMap fun x => (List.range 64).filterMap fun i =>
    if x.2.getLsbD i then some (64 * x.1 + i) else none

/-- VACCMD_GO: the host requests a vacate; a write while BUSY is ignored. -/
def execVaccmdGo (v : W32) (s : State) : Res :=
  if !v.getLsbD 0 then notDue s
  else if s.regs.vacCmd.getLsbD 31 then .next s
  else
    let q : VacReq := ⟨bitsOf v.toNat 16 8, s.vacCores, true, none⟩
    .next { s with
      regs := { s.regs with vacCmd := (v &&& 0x00FF0000) ||| 0x80000000 }
      cp := { s.cp with vacs := s.cp.vacs ++ [q] } }

/-- Whether a vacate removes cores from a grid that has no team there: the grid is of the context, dispatching, and, for a request
of the command processor, of lower effective priority than the grid it is made for. (DEDUCED, log 81.) -/
def State.vacates (s : State) (q : VacReq) (g : Nat) : Bool :=
  let G := s.grid g
  G.par.ctx == q.ctx && G.status == .dispatching && (match q.grid with
    | none => true
    | some h => decide (s.effPrio g < s.effPrio h))

/-- The teams that a vacate removes: those of the context on the named cores, and the other members of their sets. -/
def State.victims (s : State) (q : VacReq) : List Nat :=
  let on (T : Team) : Bool := T.status == .running && q.cores.contains T.core && (s.grid T.grid).par.ctx == q.ctx
  let hit := s.teams.filter on
  let setOf (T : Team) : Nat × Nat := (T.grid, T.idx / max 1 (s.grid T.grid).kernel.setSize)
  (indexed s.teams).filterMap fun x =>
    if x.2.status == .running && hit.any fun T => setOf T == setOf x.2 then some x.1 else none

/-- The re-key entry of a grid (spec 04 R89). -/
def rekeyEntry (P : Placement) (now : W64) (vict : Nat) : List Byte :=
  leBytes 4 0x524B0100 ++ leBytes 4 (P.epoch % 2 ^ 24) ++ leBytes 8 P.firstU ++ leBytes 8 now.toNat ++ leBytes 4 vict ++
    leBytes 4 0 ++ leBytes 32 (P.allowed.foldl (fun m c => Nat.lor m (2 ^ c)) 0) ++ List.replicate 64 0

/-- A grid loses cores: its allowed set shrinks, and in seeded mode a new epoch is opened and recorded.
(DEDUCED, log 159; DEDUCED, log 192.) -/
def State.shrinkGrid (s : State) (g : Nat) (cores : List Nat) (vict : Nat) : State :=
  let P := (s.grid g).place
  let gone := P.allowed.filter cores.contains
  if gone.isEmpty then s
  else
    let seeded := !(s.grid g).par.mapMode
    let P' := { P with
      allowed := P.allowed.filter fun c => !cores.contains c
      removed := P.removed ++ gone
      epoch := if seeded then P.epoch + 1 else P.epoch
      firstU := if seeded then P.next else P.firstU }
    let s := s.modGrid g fun G => { G with place := P' }
    let (now, s) := s.lookTime
    let par := (s.grid g).par
    if seeded && par.recorded && par.replay.isNone then s.recordEntry par.queue g true (rekeyEntry P' now vict) else s

/-- VACATE: the first request waiting is served: its teams are saved, its cores freed, and the grids but the one it is made for lose
them; the teams are re-placed by DISPATCH_TEAM. (DESIGN CHOICE, log 83.) -/
def execVacate (s : State) : Res :=
  match s.cp.vacs with
  | [] => notDue s
  | q :: rest =>
    let vs := s.victims q
    let count (g : Nat) : Nat := (vs.filter fun t => (s.team t).grid == g).length
    let grids := (List.range s.grids.length).filter fun g =>
      some g != q.grid && (s.vacates q g || decide (0 < count g))
    let served (s : State) : State := match q.grid with
      | some h => if rest.any fun x => x.grid == some h then s else s.modGrid h fun G => { G with preempted := false }
      | none => s
    let s1 := vs.foldl (fun s t => s.leaveCore t .vacated) { s with cp := { s.cp with vacs := rest } }
    let s2 := served (grids.foldl (fun s g => s.shrinkGrid g q.cores (count g)) s1)
    let bound := 12000 * ceilDiv q.cores.length 64
    let time := min (Config.vacateNs s2.sched.freeCtr) bound
    let cmd : W32 := if q.fromHost then s2.regs.vacCmd &&& 0x7FFFFFFF else s2.regs.vacCmd
    .next { s2.tick with regs := { s2.regs with vacTime := BitVec.ofNat 32 time, vacCmd := cmd } }

/-! ## Context switch (spec 20 R415, 10 R205) -/

/-- What is saved for a context. -/
def State.ctxSave (s : State) (ctx : Nat) : CtxSave := (s.cp.ctxs.find? fun c => c.ctx == ctx).getD ⟨ctx, false, []⟩
def State.setCtxSave (s : State) (c : CtxSave) : State :=
  { s with cp := { s.cp with ctxs := c :: s.cp.ctxs.filter fun x => x.ctx != c.ctx } }

/-- The AMAX registers of a core. -/
def State.amaxRow (s : State) (core : Nat) : List W32 := assocGet s.eng.amax core (List.replicate 16 0)

/-- Steps 1 and 2: the outgoing context stops, its teams are saved and bound to their cores, its AMAX registers are saved. -/
def State.switchCtxOut (s : State) (ctx : Nat) : State :=
  let ts := (indexed s.teams).filterMap fun x =>
    if x.2.status == .running && (s.grid x.2.grid).par.ctx == ctx then some x.1 else none
  let s := ts.foldl (fun s t => s.leaveCore t .switchedOut) s
  s.setCtxSave ⟨ctx, true, (coresOf (s.ctxCores ctx)).map fun c => (c, s.amaxRow c)⟩

/-- Every held contribution flushed, as by a SCATFLUSH at system scope; its flags and errors go to the grid of the word's
first contribution. -/
def State.flushAll (s : State) : State :=
  let all := s.eng.scatter
  let words := sortBy (fun a b => decide (a < b)) (all.map (·.pa)).eraseDups
  let grid (k : Nat) : Nat := ((sortBy Contribution.before (all.filter fun x => x.pa == k)).head?.map (·.grid)).getD noGrid
  words.foldl (fun s k => s.flushKey (grid k) all k) { s with eng := { s.eng with scatter := [] } }

/-- Whether a mode of the last-level cache other than the one in force has been asked for (spec 10 R205). -/
def State.modeDue (s : State) : Bool := s.regs.llcctl.extractLsb' 0 2 != s.regs.llcctl.extractLsb' 2 2

/-- LLCCTL.BUSY. -/
def State.setLlcBusy (s : State) (b : Bool) : State :=
  { s with regs := { s.regs with llcctl := BitVec.ofNat 32 (setBits s.regs.llcctl.toNat 31 1 (if b then 1 else 0)) } }

/-- The lines of other packages held here leave: those in M are written back, the others' homes are told (spec 12 R245). -/
def State.evictAll (s : State) : State :=
  s.fab.proxies.foldl (fun s p =>
    if p.st == .m then s.writeBack p.line
    else (s.dropCopy p.line).ask (requestFor (p.line * 128) .evictNotice none none)) s

/-- Whether a line given up by this device is still on its way to its home. -/
def State.evicting (s : State) : Bool := s.fab.requests.any fun r => match r.kind with
  | .writeback _ => true
  | .evictNotice => true
  | _ => false

/-- Step 4 ends: the new mode of the last-level cache is in force. (DEDUCED, log 85; DEDUCED, log 165.) -/
def State.changeMode (s : State) : State :=
  let v := s.regs.llcctl.toNat
  if s.modeDue then { s with regs := { s.regs with llcctl := BitVec.ofNat 32 (setBits (setBits v 2 2 (bitsOf v 0 2)) 31 1 0) } }
  else s.setLlcBusy false

/-- Step 5: the incoming context's AMAX registers and teams. -/
def State.switchCtxIn (s : State) (ctx : Nat) : State :=
  let old := s.ctxSave ctx
  let s := (coresOf (s.ctxCores ctx)).foldl (fun s c =>
    { s with eng := { s.eng with amax := assocSet s.eng.amax c (assocGet old.amax c (List.replicate 16 0)) } }) s
  let s := s.setCtxSave { old with out := false }
  let ts := (indexed s.teams).filterMap fun x =>
    if x.2.status == .switchedOut && (s.grid x.2.grid).par.ctx == ctx then some x.1 else none
  ts.foldl (fun s t => if s.canHold (s.team t).core (s.kernelOf t) then s.replaceTo t (s.team t).core else s) s

/-- Words with held contributions whose lines remote packages hold. -/
def State.flushBlocked (s : State) : List Nat := (s.eng.scatter.map (·.pa)).eraseDups.filter fun k => s.dirBlocks (k / 128) true

/-- How far the switch under way has come. -/
def State.switchTo (s : State) (n : Nat) : State := { s with cp := { s.cp with switchStep := n } }

/-- Steps 3 to 5, each when what it needs is there, and none before the one above it (whether the switch is over is told): for a new mode the pending contributions are
performed, once their lines are here; then the dirty lines are written back and every slice invalidated; then the mode changes. -/
def State.switchOn (s : State) (inn : Nat) : State × Bool :=
  if !s.modeDue then ((s.changeMode.switchCtxIn inn).switchTo 0, true)
  else
    let held := s.flushBlocked.map fun k => k / 128
    if s.cp.switchStep == 1 && !held.isEmpty then ((s.recallLines held).setLlcBusy true, false)
    else
      let s := if s.cp.switchStep == 1 then s.flushAll.switchTo 2 else s
      if !s.fab.proxies.isEmpty || s.evicting then (s.evictAll.setLlcBusy true, false)
      else ((s.changeMode.switchCtxIn inn).switchTo 0, true)

/-- CTXCMD_GO: context OUT is replaced by context IN. The IN entry is checked first; while the switch waits, BUSY is 1.
(DESIGN CHOICE, log 84.) -/
def execCtxcmdGo (v : W32) (s : State) : Res :=
  let field := v &&& 0x00FFFF00
  let out := bitsOf v.toNat 8 8
  let inn := bitsOf v.toNat 16 8
  let set (s : State) (w : W32) : State := { s with regs := { s.regs with ctxCmd := field ||| w } }
  let waits (s : State) : Res := .next (State.holdBack (set s 0x80000000) (.ctxcmdGo v))
  if !v.getLsbD 0 then notDue s
  else if s.regs.ctxCmd.getLsbD 31 && !s.sched.waiting.contains (.ctxcmdGo v) then .next s
  else
    let entry := s.ctxBusy inn
    if s.cp.switchStep == 0 && !entry.isEmpty then waits (s.recallLines entry)
    else if s.cp.switchStep == 0 && !s.ctxUsable inn then .next (set (s.letGo (.ctxcmdGo v)) 0x01000000)
    else
      let s := if s.cp.switchStep == 0 then (s.switchCtxOut out).switchTo 1 else s
      let r := s.switchOn inn
      if r.2 then .next (set (r.1.letGo (.ctxcmdGo v)) 0) else waits r.1

/-! ## The end of a context (spec 07 R138, 15 R325, 17 Table 17-8, 21 Table 21-2) -/

/-- Segments of the counted spans that records hold. -/
def countedSpans (rs : List TapeRec) : List Nat := rs.filterMap fun r => match r with
  | .span p => if p.counted then some p.seg else none
  | .raw _ _ _ => none

/-- CONTEXT_END: the context's grids complete with status 11, its unfinished card items end with status 15, and the span
counts that its streams hold drop. -/
def execContextEnd (ctx : Byte) (s : State) : Res :=
  let n := ctx.toNat
  let mine := (List.range s.grids.length).filter fun g => (s.grid g).par.ctx == n && !(s.grid g).over
  let s1 := mine.foldl (fun s g =>
    (s.stopGrid g).modGrid g fun G => { G with halted := true, report := { G.report with status := 11 } }) s
  let spans := (s1.eng.streams.filter fun x => x.ctx == n).flatMap fun x => countedSpans x.recs
  let s2 := (s1.mapStreams fun x => if x.ctx == n then { x with recs := [], fills := [] } else x).dropSpans spans
  let cards := s2.eng.cards.map fun C => if C.ctx == n && !C.ended && C.cancel.isNone then { C with cancel := some 15 } else C
  .next { s2 with eng := { s2.eng with
    cards := cards
    prefetches := s2.eng.prefetches.filter fun p => p.ctx != n } }.wakeParks

end Sys2Proof.Machine
end

