-- ==== Sys2Proof/Machine/Faults.lean ====
section
/-! DEFINITION. Asynchronous traps, time bounds of waits, the fault ring, invalidation and migration (spec 10 R211-R215,
19 R388, 20 R402, R410). -/

namespace Sys2Proof.Machine

/-! ## Traps that no instruction raises (spec 20 R402, 19 R388) -/

/-- Whether group `g` of team `t` has an asynchronous cause to take now (spec 20 R402): it is not in handler mode and has a lane
that is neither exited, parked nor waiting. (DESIGN CHOICE, log 26.) -/
def State.asyncDue (s : State) (t g : Nat) : Bool :=
  let G := s.grp t g
  (s.team t).status == .running && G.resident && !G.ended && !G.inh && (G.pend20.isSome || G.pend22.isSome) &&
    G.lanes.any Lane.stopsRunning && (s.effecting t g).isEmpty

/-- A pending notice of a correction, where TRAPCTL.NOTICE asks for it; else it is discarded (spec 20 R402). -/
def Group.noticed (G : Group) : Option AsyncCause := if G.trapCtl.getLsbD 0 then G.pend20 else none

/-- ASYNC_TRAP_DELIVERY: a pending cause is taken between instructions, cause group 20 before 22; a notice that is not asked for is
discarded. -/
def execAsyncTrapDelivery (t g : Nat) (s : State) : Res :=
  let G := s.grp t g
  let s0 := s.modGroup t g fun G => { G with pend20 := none }
  let pc : W32 := match G.lanes.find? Lane.stopsRunning with
    | some L => L.pc
    | none => 0
  if !s.asyncDue t g then notDue s
  else
    match G.noticed, G.pend22 with
    | some a, _ => .next (s0.takeTrap t g (trapOf 20 0x3F a.reason.toNat a.aux.toNat a.d1 a.d2 0) true pc 0)
    | none, some a =>
      .next ((s0.modGroup t g fun G => { G with pend22 := none }).takeTrap t g
        (trapOf 22 0x3F a.reason.toNat a.aux.toNat a.d1 a.d2 0) true pc 0)
    | none, none => .next s0

/-- When a lane's wait at a barrier or barrier object began. -/
def Lane.waitsSince (L : Lane) : Option Nat := match L.status with
  | .barrier _ _ n => some n
  | .boWait _ n => some n
  | _ => none

/-- The lanes of a team that have arrived at a barrier, and those that have not exited. -/
def Team.barCount (T : Team) (cluster : Bool) (n : Nat) : Nat × Nat :=
  T.groups.foldl (fun acc G => G.lanes.foldl (fun acc L =>
    (acc.1 + (if L.arrived cluster n then 1 else 0), acc.2 + (if L.isExited then 0 else 1))) acc) (0, 0)

/-- The lanes of a team's cluster team-set that have arrived at a cluster barrier, and those expected; a member that is not
dispatched yet has none of the former. -/
def State.setCount (s : State) (t n : Nat) : Nat × Nat :=
  let T := s.team t
  let K := s.kernelOf t
  let m := max 1 K.setSize
  let mates := s.teams.filter fun U => U.grid == T.grid && U.idx / m == T.idx / m
  let c := mates.foldl (fun acc U => (acc.1 + (U.barCount true n).1, acc.2 + (U.barCount true n).2)) (0, 0)
  (c.1, c.2 + (m - mates.length) * K.groups * 32)

/-- The detail of cause group 17 for a lane's wait (spec 20 Table 20-3): MIN, AUX, TRAPDETAIL1 and 2. -/
def State.waitDetail (s : State) (t : Nat) (st : LaneStatus) : Nat × Nat × W32 × W32 :=
  match st with
  | .barrier c n _ =>
    let x := if c then s.setCount t n else (s.team t).barCount false n
    (if c then 2 else 1, n, BitVec.ofNat 32 (x.1 % 2 ^ 16 * 2 ^ 16 + x.2 % 2 ^ 16), 0)
  | .boWait off _ =>
    let v : W64 := BitVec.ofNat 64 (s.rdNat (scratchKey t off) 8)
    (5, off / 8, v.extractLsb' 0 32, v.extractLsb' 32 32)
  | _ => (0, 0, 0, 0)

/-- Whether the object that a lane waits on has come to its count: the wait has ended (spec 19 R391). -/
def State.waitEnds (s : State) (t : Nat) (L : Lane) : Bool := match L.status with
  | .boWait off _ => s.boEnds t off
  | _ => false

/-- SYNC_TIMEOUT: a lane has waited SYNCTO microseconds: the lanes of its group whose waits at its instruction go on withdraw, and the
group takes cause group 17 there. In handler mode a lane outside HMASK stays stopped (spec 20 R404). (DEDUCED, log 27.) -/
def execSyncTimeout (t g l : Nat) (s : State) : Res :=
  let G := s.grp t g
  let L := G.lane l
  match L.waitsSince with
  | none => notDue s
  | some since =>
    if s.regs.syncTo == 0 || (s.team t).status != .running || (G.inh && !G.hmask.getLsbD l) then
      notDue s
    else
      if s.waitEnds t L then notDue s
      else
        let here : LaneMask := laneMask fun i => (G.lane i).waitsSince.isSome && (G.lane i).pc == L.pc &&
          !s.waitEnds t (G.lane i) && (!G.inh || G.hmask.getLsbD i)
        let e := (maskLanes here).headD l
        let d := s.waitDetail t (G.lane e).status
        let s := s.timeAtLeast (since + s.regs.syncTo.toNat * 1000)
        let s := s.modGroup t g fun G => { G.mapLanes (fun i L => if here.getLsbD i then { L with status := .run } else L) with
          resident := true }
        .next (s.takeTrap t g (trapOf 17 e d.1 d.2.1 d.2.2.1 d.2.2.2 here) false L.pc L.resume)

/-- A lane whose YIELD of `n` ends at `pc` may issue again. -/
def Lane.endYield (n : Nat) (pc : W32) (L : Lane) : Lane :=
  if L.status == (.yielding n) && L.pc == pc then { L with status := .run } else L

/-- YIELD_EXPIRE: the core's cycle counter has advanced as far as a YIELD asked, and its lanes may issue again (spec 20 R410). -/
def execYieldExpire (t g l : Nat) (s : State) : Res :=
  let L := (s.grp t g).lane l
  match L.status with
  | .yielding n => .next ((s.cyclesAtLeast (s.team t).core n).modGroup t g fun G => { G with lanes := G.lanes.map (Lane.endYield n L.pc) })
  | _ => notDue s

/-! ## The fault ring (spec 10 R211, R213) -/

/-- The bytes of a fault record (spec 10 Table 10-7). -/
def FaultRecord.bytes (r : FaultRecord) : List Byte :=
  leBytes 8 (r.page + r.kind) ++ leBytes 4 r.handle.toNat ++ leBytes 4 (r.ctx + r.core * 256) ++ leBytes 8 r.time.toNat ++
    List.replicate 8 0

/-- Whether FQSIZE is a size the ring can have (spec 10 Table 10-6). -/
def ringSizeOk (lo n : Nat) : Bool := (List.range 17).any fun k => n == 2 ^ k && decide (lo ≤ n)

/-- Whether the fault ring has no room: it holds one record less than its size. (DEDUCED, log 122.) -/
def State.faultRingFull (s : State) : Bool :=
  let n := s.regs.fqSize.toNat
  !ringSizeOk 16 n || ringCount s.regs.fqWrite.toNat s.regs.fqRead.toNat n == n - 1

/-- Whether a page of a context is under hold-down (spec 10 R215). -/
def State.pageHeld (s : State) (ctx page : Nat) : Bool := s.mm.held.any fun h => h.ctx == ctx && h.page == page

/-- The device's request for a page turned down: the page is mapped remotely, its translations are removed, and the record is
resolved as mapped (spec 10 R215). -/
def State.mapRemote (s : State) (ctx page : Nat) : State :=
  ((s.writeHold ctx page true).invalidatePage ctx page).resolvePage ctx page false

/-- Lines of the tables that the migration unit must have before it writes HOLD of a page's leaf (spec 10 R204). -/
def State.holdBusy (s : State) (ctx page : Nat) : List Nat :=
  match s.walk ctx page with
  | .busy l => [l]
  | _ => ((s.leafKeyFrom page 5 (s.root ctx)).toList.map fun k => k / 128).filter fun l => s.dirBlocks l true

/-- FAULT_RECORD_DELIVER: the oldest record that waits is written to the ring, when it has room; a request to migrate a page that
is held is turned down. Lines that other packages hold are asked for first. A record that cannot be written stays in the hub. -/
def execFaultRecordDeliver (s : State) : Res :=
  match s.mm.faults.find? fun r => !r.delivered && !r.failed with
  | none => notDue s
  | some r =>
    let busy := s.holdBusy r.ctx r.page
    if r.kind == 4 && s.pageHeld r.ctx r.page then
      .next (if busy.isEmpty then s.mapRemote r.ctx r.page else s.recallLines busy)
    else if s.faultRingFull then .next s
    else
      let n := s.regs.fqSize.toNat
      let w := s.regs.fqWrite.toNat
      let mark (d f : Bool) (s : State) : State :=
        { s with mm := { s.mm with faults := s.mm.faults.map fun x =>
          if x.handle == r.handle then { x with delivered := d, failed := f } else x } }
      match ringKey s.regs.fqBase 32 (32 * (w % n)) 32 with
      | none => .next (mark false true s)
      | some k =>
        if isHostKey k && s.hub.hostDown then .next (mark false true s)
        else if s.dirBlocks (k / 128) true then .next (s.recallLine (k / 128))
        else
        let s := mark true false (s.wr k r.bytes)
        .next { s with regs := { s.regs with fqWrite := BitVec.ofNat 32 ((w + 1) % n) } }

/-- Records whose write failed are tried again (spec 10 R213). -/
def State.retryRecords (s : State) : State :=
  { s with mm := { s.mm with faults := s.mm.faults.map fun x => { x with failed := false } } }

/-- FQREAD_WRITE. -/
def execFqreadWrite (v : W32) (s : State) : Res := .next { s with regs := { s.regs with fqRead := v } }.retryRecords

/-- The bits of a ring base register that a write sets, for entries of 2^n bytes (spec 10 Table 10-6, 21 Table 21-4). -/
def ringBase (n : Nat) (v : W64) : W64 :=
  let hi := if v.getLsbD 63 then 57 else 45
  BitVec.ofNat 64 ((if v.getLsbD 63 then 2 ^ 63 else 0) + v.toNat % 2 ^ hi / 2 ^ n * 2 ^ n)

/-- FQBASE_WRITE. -/
def execFqbaseWrite (v : W64) (s : State) : Res := .next { s with regs := { s.regs with fqBase := ringBase 5 v } }.retryRecords

/-- A record resolved; a handle that names none is ignored (spec 10 R213). (DEDUCED, log 123.) -/
def State.fresolve (s : State) (handle : W32) (bad : Bool) : State :=
  match s.mm.faults.find? fun r => r.handle == handle with
  | none => s
  | some r => s.resolvePage r.ctx r.page bad

/-- FRESOLVE with status 0. -/
def execFresolveMapped (handle : W32) (s : State) : Res := .next (s.fresolve handle false)
/-- FRESOLVE with status 1. -/
def execFresolveUnresolvable (handle : W32) (s : State) : Res := .next (s.fresolve handle true)

/-! ## Invalidation (spec 10 R214) -/

/-- A write of INVCMD: BUSY is set and the translations that `hit` covers are removed; ignored while BUSY = 1. -/
def State.invcmd (s : State) (ctx kind : Nat) (hit : Nat → Leaf → Bool) : State :=
  if s.regs.invCmd.getLsbD 31 then s
  else { s with regs := { s.regs with invCmd := BitVec.ofNat 32 (2 ^ 31 + ctx * 2 ^ 16 + kind) } }.dropTranslations hit

/-- INVCMD of kind 0. -/
def execInvcmdPage (ctx : Byte) (s : State) : Res :=
  .next (s.invcmd ctx.toNat 0 fun c f => c == ctx.toNat && f.covers s.regs.invAddr.toNat)
/-- INVCMD of kind 1. -/
def execInvcmdContext (ctx : Byte) (s : State) : Res := .next (s.invcmd ctx.toNat 1 fun c _ => c == ctx.toNat)
/-- INVCMD of kind 2. -/
def execInvcmdAll (ctx : Byte) (s : State) : Res := .next (s.invcmd ctx.toNat 2 fun _ _ => true)

/-- INVALIDATION_DONE: BUSY clears when the accesses already issued have been performed: none of this device's is on its way.
(DEDUCED, log 125.) -/
def execInvalidationDone (s : State) : Res :=
  if !s.regs.invCmd.getLsbD 31 || s.fab.requests.any (fun r => r.grid.isSome) then notDue s
  else .next { s with regs := { s.regs with invCmd := s.regs.invCmd &&& 0x7FFFFFFF } }

/-! ## Migration (spec 10 R215) -/

/-- The hold-down interval in ns. -/
def State.holdNs (s : State) : Nat := s.regs.migHold.toNat

/-- MIGREQ with its result (spec 10 Table 10-6). -/
def migReqVal (page result : Nat) : W64 := BitVec.ofNat 64 (result * 2 ^ 61 + page)

/-- MIGREQ with GO = 1: the page is held, or the device asks for it too (neither is granted, and the page is held, once the lines of
its leaf are here), or the request is granted. (DEDUCED, log 124.) -/
def execMigreqGo (v : W64) (s : State) : Res :=
  if !v.getLsbD 63 then notDue s
  else
    let page := v.toNat % 2 ^ 57 / 4096 * 4096
    let result (s : State) (n : Nat) : State := { s with regs := { s.regs with migReq := migReqVal page n } }
    if s.mm.held.any fun h => h.page == s.leafBase h.ctx page then .next (result (s.letGo (.migreqGo v)) 2)
    else
      let asked := s.mm.faults.filter fun r => r.kind == 4 && r.page == s.leafBase r.ctx page && !r.delivered
      let busy := asked.flatMap fun r => s.holdBusy r.ctx r.page
      if asked.isEmpty then .next (result (s.letGo (.migreqGo v)) 1)
      else if !busy.isEmpty then .next ((result (s.recallLines busy) 0).holdBack (.migreqGo v))
      else
        let (now, s) := (s.letGo (.migreqGo v)).lookTime
        let s := asked.foldl (fun s r => s.mapRemote r.ctx r.page) s
        let s := { s with mm := { s.mm with held := s.mm.held ++ asked.map fun r => ⟨r.ctx, r.page, now.toNat + s.holdNs⟩ } }
        .next (result s 2)

/-- HOLD_EXPIRE: the hold-down of a page ends: HOLD is cleared and the page's translations are removed. -/
def execHoldExpire (ctx : Byte) (page : Nat) (s : State) : Res :=
  match s.mm.held.find? fun h => h.ctx == ctx.toNat && h.page == page with
  | none => notDue s
  | some h =>
    let s := s.timeAtLeast h.until_
    let busy := s.holdBusy h.ctx page
    if !busy.isEmpty then .next (s.recallLines busy)
    else
    let s := (s.writeHold h.ctx page false).invalidatePage h.ctx page
    .next { s with mm := { s.mm with held := s.mm.held.filter fun x => !(x.ctx == h.ctx && x.page == page) } }

end Sys2Proof.Machine
end

