-- ==== Sys2Proof/Machine/FabricEvents.lean ====
section
/-! DEFINITION. The events of the fabric: requests leaving, answers, timeouts, requests that arrive at this device as a home,
invalidations, and the links (spec 12 R242-R263). -/

namespace Sys2Proof.Machine

/-! ## Requests leaving (spec 12 R245, R246, R252, R258) -/

/-- The first unsent request that `pick` names leaves, when a route is up, its port takes it and a tag is free; else it waits. -/
def sendFirst (pick : Request → Bool) (s : State) : Res :=
  match s.fab.requests.find? fun r => !r.sent && pick r with
  | none => notDue s
  | some r => .next (if s.canSend r then s.sendTag r.tag else s)

/-- Whether a request is a write-back. -/
def Request.isWriteback (r : Request) : Bool := match r.kind with
  | .writeback _ => true
  | _ => false

/-- FABRIC_READ_SHARED. -/
def execFabricReadShared (line : Nat) (s : State) : Res := sendFirst (fun r => r.kind == .readShared && r.onLine line) s
/-- FABRIC_READ_EXCLUSIVE. -/
def execFabricReadExclusive (line : Nat) (s : State) : Res := sendFirst (fun r => r.kind == .readExclusive && r.onLine line) s
/-- FABRIC_UPGRADE. -/
def execFabricUpgrade (line : Nat) (s : State) : Res := sendFirst (fun r => r.kind == .upgrade && r.onLine line) s
/-- FABRIC_ATOMIC. -/
def execFabricAtomic (op : PeerAtomic) (addr : Nat) (s : State) : Res :=
  sendFirst (fun r => r.kind == .atomic op && r.addr == addr) s

/-- FABRIC_WRITEBACK: a write-back under way leaves, or a line held in M is evicted. -/
def execFabricWriteback (line : Nat) (s : State) : Res :=
  let pick (r : Request) : Bool := r.isWriteback && r.onLine line
  if s.fab.requests.any fun r => !r.sent && pick r then sendFirst pick s
  else if s.proxy line == some .m && !s.lockedBut line fun _ => false then .next (s.writeBack line)
  else notDue s

/-- FABRIC_EVICT_NOTICE: a notice under way leaves, or a line held in S or E is evicted. -/
def execFabricEvictNotice (line : Nat) (s : State) : Res :=
  let pick (r : Request) : Bool := r.kind == .evictNotice && r.onLine line
  if s.fab.requests.any fun r => !r.sent && pick r then sendFirst pick s
  else if (s.proxy line == some .s || s.proxy line == some .e) && !s.lockedBut line fun _ => false then
    .next ((s.dropCopy line).ask (requestFor (line * 128) .evictNotice none none))
  else notDue s

/-! ## Replay events (spec 12 R259, R261) -/

/-- The number of ports. -/
def portCount : Nat := 48

/-- A field of PORTSTAT written. -/
def Port.field (P : Port) (lo n v : Nat) : Port := { P with stat := BitVec.ofNat 32 (setBits P.stat.toNat lo n v) }
/-- Whether a port carries traffic. -/
def Port.up (P : Port) : Bool := P.stat.getLsbD 31
/-- The partner's peer number. -/
def Port.nbr (P : Port) : Nat := (P.stat.extractLsb' 12 12).toNat

/-- An event of a port (spec 21 Table 21-5). -/
def State.portEvent (s : State) (type n : Nat) : State := s.logEvent type 0xFF 0 (leBytes 4 n ++ leBytes 4 (s.port n).nbr)

/-- A replay event of a port: it is counted and logged, and a NAK names the last good sequence number (spec 12 R259). -/
def State.countReplay (s : State) (n : Nat) : State :=
  (s.modPort n fun P => { P.field 0 8 (min 255 (bitsOf P.stat.toNat 0 8 + 1)) with nak := some (P.rxSeq - 1) }).portEvent 7 n

/-! ## Arrival (spec 12 R257, R259) -/

/-- Flits of the requests that came through a port and wait in its receive buffer of channel 0: data flits, and a quarter of a header
flit each. (DEDUCED, log 177.) -/
def State.occupancy (s : State) (n : Nat) : Nat :=
  ceilDiv (s.sched.waiting.foldl (fun k i => match i with
    | .fabricRequestArrival _ _ _ req => if req.via.port.toNat == n then k + 4 * flitsOf (PeerReq.dataLen req.what) + 1 else k
    | _ => k) 0) 4

/-- PAUSE sent for channel 0 of a port when 320 flits stand in its receive buffer, RESUME when 192 do: the other channels are sunk at
once. -/
def State.settlePause (s : State) (n : Nat) : State :=
  let k := s.occupancy n
  s.modPort n fun P =>
    if decide (320 ≤ k) then { P with held := P.held ||| 1 }
    else if decide (k ≤ 192) then { P with held := P.held &&& 14 }
    else P

/-- A port that has received `k` flits more, with the tag flits of the groups they fill. -/
def Port.took (P : Port) (k : Nat) : Port :=
  { P with rxSeq := P.rxSeq + BitVec.ofNat 16 (k + (P.rxFlits % 8 + k) / 8), rxFlits := P.rxFlits + k, nak := none }

/-- The flits that a message of `data` bytes brings. -/
def viaFlits (via : Via) (data : Nat) : Nat := (if via.shared then 0 else 1) + flitsOf data

/-- A message of `data` bytes arrives, or, if it waits in the device, is looked at again: the link delivers flits once and in sequence;
a gap is a replay event, and so is a group under a key that the port does not hold (spec 12 R259, R261, R262). (DEDUCED, log 178.) -/
def receive (me : Instr) (via : Via) (data : Nat) (s : State) (deliver : State → Res) : Res :=
  let n := via.port.toNat
  let P := s.port n
  if s.sched.waiting.contains me then deliver s
  else if decide (portCount ≤ n) || !P.up then notDue s
  else if !P.native then deliver s
  else if via.seq == P.rxSeq && P.rxKeys.getLsbD via.key.toNat then deliver (s.modPort n fun P => P.took (viaFlits via data))
  else if (via.seq != P.rxSeq && decide (32768 ≤ (via.seq - P.rxSeq).toNat)) || P.nak == some (P.rxSeq - 1) then .next s
  else .next (s.countReplay n)

/-! ## Answers and failures (spec 12 R247, R248) -/

/-- A request that has ended. -/
def State.endRequest (s : State) (tag : Nat) : State :=
  { s with fab := { s.fab with requests := s.fab.requests.filter fun r => r.tag != tag } }

/-- The number under which the units that write for a tape are told from lanes and engines. -/
def tapeWriterNo : Nat := 251

/-- An answer kept for the unit that made the request; those that write for a tape or for GLAUNCH need none. -/
def State.keepAnswer (s : State) (r : Request) (v : PeerAnswer) : State :=
  match r.who with
  | none => s
  | some w =>
    if w.2.1 == tapeWriterNo || w.2.1 == slotWriterNo then s else { s with fab := { s.fab with answers := s.fab.answers ++ [⟨w, r.addr, v⟩] } }

/-- A line that the home has granted: its bytes, if it sent them, and whether they are poisoned. A grant that crossed an invalidation
is not used. (DEDUCED, log 170.) -/
def State.fillLine (s : State) (r : Request) (data : Option (List Byte)) (sick : Bool) (st : ProxyState) : State :=
  let line := r.addr / 128
  if r.who.isNone then s
  else
    let s := match data with
      | some d => s.wr (line * 128) d
      | none => s
    (if sick then s.addPoison line else s).setProxy line (some st)

/-- A failure that its unit meets when it goes on; `stored` marks one that is reported already. -/
def State.addFailure (s : State) (r : Request) (w : Nat × Nat × Nat) (remote stored : Bool) : State :=
  { s with fab := { s.fab with reqFails := s.fab.reqFails ++ [⟨w, r.addr, remote, stored⟩] } }

/-- A request that fails: a lane meets the failure when it executes its instruction again, but that of a store to a line, of a discard
or of an evicted line, and the write of a slot by GLAUNCH, is an error entry of its grid; an engine's item fails; a record of the command processor cannot be written; a
tape's failure is met by its next use (spec 12 R248, 15 R321). (DEDUCED, log 109; DEDUCED, log 169.) -/
def State.failRequest (s : State) (r : Request) (remote : Bool) : State :=
  let s := s.endRequest r.tag
  let report (s : State) : State := match r.grid with
    | some g => s.errorEntry g 1 (BitVec.ofNat 64 r.va)
    | none => s
  match r.who with
  | none => if r.isWriteback then report s else s
  | some w =>
    if w.2.1 == tapeWriterNo then
      (if (s.team w.1).live then s.modTeam w.1 fun T => { T with tapeFail := T.tapeFail ++ [BitVec.ofNat 64 r.va] } else report s)
    else if decide (tapeWriterNo < w.2.1) then s.addFailure r w remote false
    else match r.kind with
      | .uncachedWrite _ => if w.2.1 == slotWriterNo then report s else s.addFailure r w remote false
      | .readExclusive => (report s).addFailure r w remote true
      | .upgrade => (report s).addFailure r w remote true
      | .discard => (report s).addFailure r w remote true
      | _ => s.addFailure r w remote false

/-- An answer and whether its data is poisoned. -/
def PeerAnswer.plain : PeerAnswer → PeerAnswer × Bool
  | .poisoned a => ((PeerAnswer.plain a).1, true)
  | a => (a, false)

/-- The home's answer to a request of this device taken; one that does not answer it is none. -/
def State.takeAnswer (s : State) (r : Request) (answer : PeerAnswer) : State :=
  let ended := s.endRequest r.tag
  let x := PeerAnswer.plain answer
  match r.kind, x.1 with
  | _, .remoteRange => s.failRequest r true
  | .readShared, .shared d => if d.length == 128 then ended.fillLine r (some d) x.2 .s else s
  | .readShared, .exclusive d => if d.length == 128 then ended.fillLine r (some d) x.2 .e else s
  | .readExclusive, .exclusive d => if d.length == 128 then ended.fillLine r (some d) x.2 .e else s
  | .upgrade, .exclusive d => if d.length == 128 then ended.fillLine r (some d) x.2 .e else s
  | .upgrade, .upgraded => if s.proxy (r.addr / 128) == some .s || r.who.isNone then ended.fillLine r none false .e else s
  | .writeback _, .done => ended
  | .evictNotice, .done => ended
  | .uncachedRead n, .bytes d => if d.length == n then ended.keepAnswer r answer else s
  | .uncachedWrite _, .done => ended.keepAnswer r .done
  | .discard, .done => ended.keepAnswer r .done
  | .atomic _, .old _ => ended.keepAnswer r answer
  | _, _ => s

/-- FABRIC_RESPONSE: the home's answer to request `tag` arrives; one that arrives after the request was abandoned is discarded
(spec 12 R258). -/
def execFabricResponse (tag : Nat) (answer : Arrived PeerAnswer) (s : State) : Res :=
  receive (.fabricResponse tag answer) answer.via (PeerAnswer.dataLen answer.what) s fun s =>
    match s.fab.requests.find? fun r => r.tag == tag && (r.sent || r.again) with
    | none => .next s
    | some r => .next (s.takeAnswer r answer.what)

/-- FABRIC_TIMEOUT: a request that FABTO microseconds have not answered is abandoned. -/
def execFabricTimeout (tag : Nat) (s : State) : Res :=
  match s.fab.requests.find? fun r => r.tag == tag with
  | none => notDue s
  | some r =>
    if !r.sent && (s.requestRoute r).isSome then notDue s
    else .next ((s.timeAtLeast (r.since + s.regs.fabTo.toNat * 1000)).failRequest r false)

/-! ## Copies of this device's lines, and of other packages' lines held here (spec 12 R245) -/

/-- The data that this device has of a line of another package and its home has not: of a copy in M, or of a write-back on its way;
with its poison and its grid. -/
def State.modifiedData (s : State) (line : Nat) : Option (List Byte × Bool × Option Nat) :=
  if s.proxy line == some .m then
    some (s.rd (line * 128) 128, s.poison.contains line, (s.proxyEntry line).bind (·.grid))
  else s.fab.requests.findSome? fun r => match r.kind with
    | .writeback d => if r.onLine line then some (d, r.bad, none) else none
    | _ => none

/-- A line of another package given up at its home's demand: the acknowledgement carries the data of a modified copy; a grant under
way is not used. -/
def State.giveUp (s : State) (line : Nat) : State :=
  let data := s.modifiedData line
  let cross (r : Request) : Request :=
    if r.onLine line && (r.kind == .readShared || r.kind == .readExclusive || r.kind == .upgrade) then { r with who := none } else r
  let s := match data with
    | some (_, true, some g) => s.errorEntry g 6 (BitVec.ofNat 64 (line * 128))
    | _ => s
  let s := State.post { s with fab := { s.fab with requests := s.fab.requests.map cross } } (keyPeer (line * 128)) (match data with
    | some (d, sick, _) => .ack line d sick
    | none => .ack line [] false)
  s.dropCopy line

/-- As the home of a line, or as a holder to whom its home's demand arrives. -/
def atHomeOrHolder (me : Instr) (x : Arrived Nat) (s : State) (owned : Bool) : Res :=
  let line := x.what
  if keyPeer (line * 128) == ownPeer then
    match s.dirEntry line with
    | some d => if d.waitAck.isEmpty && d.owned == owned then .next (s.recallLine line) else notDue s
    | none => notDue s
  else if s.isPeerKey (line * 128) then receive me x.via 0 s fun s =>
    -- a copy that a store under way writes is kept until it has
    .next (if s.lockedBut line fun _ => false then s.holdBack me else (s.letGo me).giveUp line)
  else notDue s

/-- FABRIC_INVALIDATE: as the line's home, the remote copies of a line are invalidated; of another package's line, the copy held
here is given up. -/
def execFabricInvalidate (line : Arrived Nat) (s : State) : Res := atHomeOrHolder (.fabricInvalidate line) line s false

/-- FABRIC_RECALL: as the line's home, a modified remote copy is recalled; of another package's line, the copy held here is given up
with its data. -/
def execFabricRecall (line : Arrived Nat) (s : State) : Res := atHomeOrHolder (.fabricRecall line) line s true

/-- A line's data as another package gives it back. -/
def State.takeLine (s : State) (line : Nat) (data : List Byte) (sick : Bool) : State :=
  let s := s.wr (line * 128) data
  if sick then s.addPoison line else s

/-- FABRIC_INVAL_ACK: a holder acknowledges an invalidation or recall, with the line's data when it held it in M. -/
def execFabricInvalAck (peer line : Nat) (data : Arrived LinkData) (s : State) : Res :=
  let bs := data.what.bytes
  receive (.fabricInvalAck peer line data) data.via bs.length s fun s =>
    match s.dirEntry line with
    | none => .next s
    | some d =>
      if !d.waitAck.contains peer || !(bs.isEmpty || (d.owned && bs.length == 128)) then .next s
      else
        let s := if bs.isEmpty then s else s.takeLine line bs data.what.poisoned
        let wait := d.waitAck.filter (· != peer)
        .next (s.setDir { d with waitAck := wait, owned := d.owned && !wait.isEmpty })

/-! ## This device as a home (spec 12 R245-R247, R260, R263) -/

/-- A request and whether its data is poisoned. -/
def PeerReq.plain : PeerReq → PeerReq × Bool
  | .poisoned r => ((PeerReq.plain r).1, true)
  | r => (r, false)

/-- The lines a request concerns, as lines of this device. -/
def homeLines : PeerReq → List Nat
  | .readShared l => [l]
  | .readExclusive l => [l]
  | .upgrade l => [l]
  | .writeback l _ => [l]
  | .evictNotice l => [l]
  | .uncachedRead a n => [a / 128, (a + n - 1) / 128].eraseDups
  | .uncachedWrite cs => (cs.map fun c => c.addr / 128).eraseDups
  | .atomic a _ => [a / 128]
  | .discard l => [l]
  | .collective _ _ _ _ _ _ _ _ => []
  | .poisoned r => homeLines r

/-- Whether a request for copies may leave the requester's own copy where it is. -/
def PeerReq.keepsCopy : PeerReq → Bool
  | .readShared _ => true
  | .readExclusive _ => true
  | .upgrade _ => true
  | _ => false

/-- Whether remote copies stand in the way of a request from `src` on a line. -/
def DirEntry.blocks (d : DirEntry) (src : Nat) : PeerReq → Bool
  | .readShared _ => !d.waitAck.isEmpty || (d.owned && d.others src)
  | .readExclusive _ => !d.waitAck.isEmpty || d.others src
  | .upgrade _ => !d.waitAck.isEmpty || d.others src
  | .writeback _ _ => false
  | .evictNotice _ => false
  | .uncachedRead _ _ => !d.waitAck.isEmpty || d.owned
  | .poisoned r => DirEntry.blocks d src r
  | _ => !d.waitAck.isEmpty || d.any

/-- Whether a request writes without reading or taking a copy. -/
def PeerReq.writesOnly : PeerReq → Bool
  | .writeback _ _ => true
  | .evictNotice _ => true
  | .uncachedWrite _ => true
  | .discard _ => true
  | .poisoned r => PeerReq.writesOnly r
  | _ => false

/-- Whether remote copies stand in the way of a request from `src`; or, unless it only writes, a store under way that is one event. -/
def State.homeBlocked (s : State) (src : Nat) (r : PeerReq) : Bool :=
  (homeLines r).any fun l => (!PeerReq.writesOnly r && s.lockedBut l fun _ => false) || (match s.dirEntry l with
    | none => false
    | some d => d.blocks src r)

/-- Invalidations or recalls sent for a request from `src`: to every other holder, and to `src` itself when the request leaves no
copy. -/
def State.recallFor (s : State) (src : Nat) (r : PeerReq) : State :=
  (homeLines r).foldl (fun s l => match s.dirEntry l with
    | none => s
    | some d => if d.blocks src r then s.recallBut l (if PeerReq.keepsCopy r then some src else none) else s) s

/-- The directory entry of a line, or an empty one. -/
def State.dirOf (s : State) (line : Nat) : DirEntry := (s.dirEntry line).getD ⟨line, [], false, [], 0, 0⟩

/-- A line granted as an only copy. -/
def State.grant (s : State) (line src : Nat) : State := s.setDir ⟨line, [src], true, [], 0, 0⟩

/-- A collective input that has arrived: the card that waits for it waits no longer. -/
def State.takeInput (s : State) (src : Nat) (x : CollInput) : State :=
  let meets (r : Request) : Bool := r.kind == .awaitInput x.ctag.toNat && r.peer == src
  { s with
    eng := { s.eng with collIn := s.eng.collIn ++ [x] }
    fab := { s.fab with requests := s.fab.requests.filter fun r => !meets r } }

/-- The bits of a write to a line of this device. -/
def State.writeBits (s : State) (cs : List PeerCell) : State :=
  let whole := cs.filter fun c => c.mask == 255
  let part := cs.filter fun c => c.mask != 255
  let s := s.wrCells (whole.map fun c => (c.addr, c.val))
  { s with mem := part.foldl (fun m c => memWrite m c.addr ((memRead m c.addr &&& ~~~c.mask) ||| (c.val &&& c.mask))) s.mem }

/-- An answer with data, marked when the bytes it was read from are poisoned. -/
def State.dataAnswer (s : State) (a n : Nat) (x : PeerAnswer) : PeerAnswer := if s.poisoned a n then .poisoned x else x

/-- The home performs a request that no remote copy stands in the way of: its answer and the state. (DESIGN CHOICE, log 111.) -/
def State.serveOne (s : State) (src : Nat) (sick : Bool) (r : PeerReq) : PeerAnswer × State :=
  let line (l : Nat) : List Byte := s.rd (l * 128) 128
  match r with
  | .readShared l =>
    let d := s.dirOf l
    if d.others src then (s.dataAnswer (l * 128) 128 (.shared (line l)), s.setDir { d.add src with owned := false })
    else (s.dataAnswer (l * 128) 128 (.exclusive (line l)), s.grant l src)
  | .readExclusive l => (s.dataAnswer (l * 128) 128 (.exclusive (line l)), s.grant l src)
  | .upgrade l =>
    (if (s.dirOf l).holds src then .upgraded else s.dataAnswer (l * 128) 128 (.exclusive (line l)), s.grant l src)
  | .writeback l d =>
    let e := s.dirOf l
    let owner := d.length == 128 && e.owned && (e.holders.contains src || e.waitAck.contains src)
    let s := if owner then s.takeLine l d sick else s
    (.done, if (s.dirEntry l).isSome then s.setDir (e.drop src) else s)
  | .evictNotice l => (.done, if (s.dirEntry l).isSome then s.setDir ((s.dirOf l).drop src) else s)
  | .uncachedRead a n => (s.dataAnswer a n (.bytes (s.rd a n)), s)
  | .uncachedWrite cs =>
    let s := s.writeBits cs
    (.done, if sick then (homeLines r).foldl State.addPoison s else s)
  | .atomic a op =>
    let n := if op.wide then 8 else 4
    let x := s.rdNat a n
    let v := atomNew (8 * n) op.op s.peerNo x op.operand.toNat op.cmp.toNat
    if s.poisoned a n then (.poisoned (.old (BitVec.ofNat 64 x)), s)
    else (.old (BitVec.ofNat 64 x), if atomWrites op.op x op.cmp.toNat then s.wr a (leBytes n v.1) else s)
  | .discard l => (.done, s.discardLine l)
  | .collective ctag rank kind nelem cctl ranks elem data =>
    (.done, s.takeInput src ⟨ctag, rank, kind, nelem, cctl, ranks, elem, data, sick⟩)
  | .poisoned _ => (.done, s)

/-- The home performs a request, whose data may be poisoned. -/
def State.serve (s : State) (src : Nat) (r : PeerReq) : PeerAnswer × State := s.serveOne src (PeerReq.plain r).2 (PeerReq.plain r).1

/-- Whether a request names lines of this device's HBM4. -/
def inRange (r : PeerReq) : Bool :=
  (homeLines r).all fun l => keyPeer (l * 128) == ownPeer && decide (keyLocal (l * 128) < hbmEnd)

/-- An answer goes to `src`, and is kept for a reissue of the request, or for the request itself when a reissue has overtaken it
(spec 12 R260). (DEDUCED, log 113.) -/
def State.answer (s : State) (x : Served) : State :=
  let kept := s.fab.answered.filter fun y => !(y.src == x.src && y.tag == x.tag)
  State.post { s with fab := { s.fab with answered := x :: kept } } x.src (.answer x.tag x.answer)

/-- Whether an event is the arrival of a request with a source and a tag. -/
def isRequest (src : BitVec 12) (tag : Nat) (req : PeerReq) : Instr → Bool
  | .fabricRequestArrival p t _ r => p == src && t == tag && r.what == req
  | _ => false

/-- The recorded answer to a request: of a reissue, the answer its source and tag were given; of an original that its reissue has
overtaken, the answer the reissue was given. -/
def State.served (s : State) (src tag : Nat) (reissued : Bool) (req : PeerReq) : Option Served :=
  s.fab.answered.find? fun x => x.src == src && x.tag == tag && (reissued || (x.late && x.req == req))

/-- A request that has arrived at its home is answered: as it was before, when it has been performed already; performed, when no remote
copy stands in the way; else it waits until they have been given up. One that waits already, as an original or a reissue, is not taken
twice: the one that waits will be answered (spec 12 R245, R246, R248, R260). (DEDUCED, log 112.) -/
def State.serveArrival (s : State) (me : Instr) (src : BitVec 12) (tag : Nat) (reissued : Bool) (req : PeerReq) : State :=
  let p := src.toNat
  let gives (s : State) (a : PeerAnswer) (late : Bool) : State := s.answer ⟨p, tag, req, a, late⟩
  match s.served p tag reissued req with
  | some x => gives (s.letGo me) x.answer (x.late && reissued)
  | none =>
    if !s.sched.waiting.contains me && s.sched.waiting.any (isRequest src tag req) then s
    else if !inRange req then gives s .remoteRange reissued
    else if s.homeBlocked p req then (s.recallFor p req).holdBack me
    else
      let r := (s.letGo me).serve p req
      gives r.2 r.1 reissued

/-- FABRIC_REQUEST_ARRIVAL: a request arrives at this device as the line's home. -/
def execFabricRequestArrival (src : BitVec 12) (tag : Nat) (reissued : Bool) (req : Arrived PeerReq) (s : State) : Res :=
  let me : Instr := .fabricRequestArrival src tag reissued req
  if !s.regs.fabId.getLsbD 31 || decide (peerCount ≤ src.toNat) || src.toNat == s.peerNo then notDue s
  else receive me req.via (PeerReq.dataLen req.what) s fun s =>
    .next ((s.serveArrival me src tag reissued req.what).settlePause req.via.port.toNat)

/-! ## Ports: registers and training (spec 12 R250, R254, Table 12-4, 22 R434) -/

/-- The sending end of a key rotation: once the replay buffer holds no group under the old index, the old key is erased and the clear
flit is sent; the rotation of this direction is over when that flit has been acknowledged (spec 12 R262). (DEDUCED, log 121.) -/
def Port.settleKeys (P : Port) : Port :=
  if !P.txRot then P
  else if P.txClear then (if P.replayBuf.any fun f => f.kind == .clear then P else { P with txRot := false, txClear := false })
  else if P.replayBuf.any fun f => f.key != P.keyIdx then P
  else { P.push .clear [] with txKeys := 1#2 <<< P.keyIdx.toNat, txClear := true }

/-- The messages in a port's replay buffer, which have not been delivered. -/
def Port.undelivered (P : Port) : List OutMsg := P.replayBuf.flatMap (·.msgs)

/-- A port goes down: the requests it had not delivered are reissued on another route, and its other messages leave on one
(spec 12 R260). -/
def State.portDown (s : State) (n : Nat) : State :=
  let lost := (s.port n).undelivered
  let isLost (r : Request) : Bool := lost.any fun m => m.msg == .request r.tag
  let again (r : Request) : Request := if isLost r then { r with sent := false, again := true } else r
  let rest := lost.filter fun m => match m.msg with
    | .request _ => false
    | _ => true
  let s := s.modPort n fun P => { (P.field 31 1 0).field 28 2 0 with
    lanes := 0, replayBuf := [], room := 0, retrain := false, paused := 0, held := 0, nak := none, txRot := false, txClear := false }
  { s with fab := { s.fab with requests := s.fab.requests.map again, outbox := s.fab.outbox ++ rest } }

/-- Whether a trained port comes up, once the peer number is known: its partner is the one it must be cabled to, attested, and the
port is not a compatibility port where encryption is required. -/
def State.settlePort (s : State) (n : Nat) (attested : Bool) : State :=
  let P := s.port n
  if bitsOf P.stat.toNat 28 2 == 0 then s
  else if (neighboursOf s.peerNo)[n]? != some P.nbr then
    ((s.portDown n).modPort n fun P => P.field 27 1 1).portEvent 9 n
  else if !attested then (s.portDown n).portEvent 8 n
  else if !P.native && s.regs.fabCtl.getLsbD 1 then s
  else s.modPort n fun P => { P.field 31 1 1 with txKeys := 1, rxKeys := 1 }

/-- The lanes that a width code of PORTSTAT uses. -/
def lanesOf (code : Nat) : BitVec 4 := if code = 3 then 15 else if code = 2 then 3 else if code = 1 then 1 else 0

/-- LINK_TRAINING: the management controller trains a port that carries no traffic; it learns its partner's number, which bring-up
has attested or not. Sequence numbers
and group counters begin anew, under a session salt that the controller supplies (spec 12 R250, R261). (DEDUCED, log 117.) -/
def execLinkTraining (port : BitVec 6) (partner : BitVec 12) (compat : Bool) (lanes : BitVec 2) (s : State) : Res :=
  let n := port.toNat
  let P := s.port n
  if decide (portCount ≤ n) || s.regs.fwStat.getLsbD 31 || (P.up && !P.replayBuf.isEmpty) then
    notDue s
  else
    let stat := (if compat then 2 ^ 30 else 0) + lanes.toNat * 2 ^ 28 + partner.toNat * 2 ^ 12 + P.stat.toNat % 256
    let salt := (Config.unstated s.sched.freeCtr).extractLsb' 0 32
    let s := s.tick.modPort n fun _ => { stat := BitVec.ofNat 32 stat, lanes := lanesOf lanes.toNat, salt := salt }
    .next (if s.regs.fabId.getLsbD 31 then s.settlePort n (s.fab.attested.getLsbD n) else s)

/-- FABRIC_BRINGUP: the management controller assigns the peer number; trained ports whose partners are right and attested come
up; FABID.VALID is set (spec 22 R434). -/
def execFabricBringup (peer : BitVec 12) (attested : BitVec 48) (s : State) : Res :=
  if s.regs.fabId.getLsbD 31 || s.regs.fwStat.getLsbD 31 || decide (peerCount ≤ peer.toNat) then
    notDue s
  else
    let s := { s with
      regs := { s.regs with fabId := BitVec.ofNat 32 (2 ^ 31 + peer.toNat) }
      fab := { s.fab with attested := attested } }
    .next ((List.range portCount).foldl (fun s n => s.settlePort n (attested.getLsbD n)) s)

/-- ROUTEDATA_WRITE: the route entry of ROUTEIDX (spec 12 R252). -/
def execRoutedataWrite (v : W64) (s : State) : Res :=
  .next { s with fab := { s.fab with routes := assocSet s.fab.routes s.regs.routeIdx.toNat (v &&& 0x0FFFFFFFFFFFF003) } }

/-! ## Flow control, replay and lanes (spec 12 R257, R259, R260) -/

/-- The event of a port that must be up. -/
def onPort (port : BitVec 6) (s : State) (k : Nat → Port → Res) : Res :=
  if decide (port.toNat < portCount) && (s.port port.toNat).up then k port.toNat (s.port port.toNat)
  else notDue s

/-- FLOW_PAUSE. -/
def execFlowPause (port : BitVec 6) (vc : BitVec 2) (s : State) : Res :=
  onPort port s fun n _ => .next (s.modPort n fun P => { P with paused := P.paused ||| (1#4 <<< vc.toNat) })
/-- FLOW_RESUME. -/
def execFlowResume (port : BitVec 6) (vc : BitVec 2) (s : State) : Res :=
  onPort port s fun n _ => .next (s.modPort n fun P => { P with paused := P.paused &&& ~~~(1#4 <<< vc.toNat) })

/-- REPLAY_EVENT: the receiver of a port finds a bad flit; a third failed integrity check in a row on one group takes the port
down (spec 12 R259, R261). (DEDUCED, log 120.) -/
def execReplayEvent (port : BitVec 6) (badGroup : Option Nat) (s : State) : Res :=
  onPort port s fun n P =>
    if !P.native then notDue s
    else
      let run := match badGroup with
        | none => 0
        | some g => if P.badRun != 0 && P.badGroup == g then P.badRun + 1 else 1
      let s := (s.countReplay n).modPort n fun P => { P with badGroup := badGroup.getD 0, badRun := run }
      .next (if decide (3 ≤ run) then (s.portDown n).portEvent 8 n else s)

/-- LINK_NAK: every flit after `seq` is resent in its order, as it was first sealed; the replay buffer stays as it is. -/
def execLinkNak (port : BitVec 6) (seq : W16) (s : State) : Res :=
  onPort port s fun _ P =>
    if P.native && (seq == P.ackSeq || P.replayBuf.any fun f => f.seq == seq) then .next s
    else notDue s

/-- LINK_ACK: the flits up to `seq` leave the replay buffer. -/
def execLinkAck (port : BitVec 6) (seq : W16) (s : State) : Res :=
  onPort port s fun n P =>
    match P.replayBuf.findIdx? fun f => f.seq == seq with
    | none => notDue s
    | some i => .next (s.modPort n fun P => Port.settleKeys { P with replayBuf := P.replayBuf.drop (i + 1), ackSeq := seq })

/-- The lanes in use after one of them is lost: the intact pair of four, the other one of two (spec 12 R260). (DEDUCED, log 119.) -/
def lanesAfter (lanes : BitVec 4) (lost : Nat) : BitVec 4 :=
  if lanes == 15 then (if lost < 2 then 12 else 3) else lanes &&& ~~~(1#4 <<< lost)

/-- LANE_LOSS: a lane in use loses lock: a replay event, and the port retrains to fewer lanes, or goes down. -/
def execLaneLoss (port : BitVec 6) (lane : BitVec 2) (s : State) : Res :=
  onPort port s fun n P =>
    if !P.native || !P.lanes.getLsbD lane.toNat then notDue s
    else
      let left := lanesAfter P.lanes lane.toNat
      let s := s.countReplay n
      .next (if left == 0 then s.portDown n else s.modPort n fun P => { P with lanes := left, retrain := true })

/-- LINK_RETRAIN_DONE: LANES tells the new width; the port replays from the last acknowledged sequence number. -/
def execLinkRetrainDone (port : BitVec 6) (s : State) : Res :=
  onPort port s fun n P =>
    if !P.retrain then notDue s
    else .next (s.modPort n fun P => { P.field 28 2 (if P.lanes == 12 || P.lanes == 3 then 2 else 1) with retrain := false })

/-! ## Keys (spec 12 R261, R262) -/

/-- KEY_INSTALL: a new key is installed at both ends, and new groups are sealed, and arrive, under it: a group that is open ends, with
its tag flit. -/
def execKeyInstall (port : BitVec 6) (s : State) : Res :=
  onPort port s fun n P =>
    if !P.native || P.txRot || P.rxRot then notDue s
    else .next (s.modPort n fun P =>
      let P := if P.txFlits % 8 == 0 then P else P.endGroup
      let tags := if P.rxFlits % 8 == 0 then 0 else 1
      Port.settleKeys { P.field 26 1 (1 - P.keyIdx.toNat) with
        txKeys := 3, txRot := true, txClear := false, rxKeys := 3, rxIdx := ~~~P.rxIdx, rxRot := true
        rxSeq := P.rxSeq + BitVec.ofNat 16 tags, rxFlits := ceilDiv P.rxFlits 8 * 8 })

/-- KEY_CLEAR_FLIT: the partner can resend no group under the old key: the receiver erases it, and its rotation is complete. -/
def execKeyClearFlit (port : BitVec 6) (s : State) : Res :=
  onPort port s fun n P =>
    if !P.rxRot then notDue s
    else .next (s.modPort n fun P => { P.took 1 with rxKeys := 1#2 <<< P.rxIdx.toNat, rxRot := false })

/-- PORTSTAT_READ: REPLAYS is returned and cleared. -/
def execPortstatRead (port : BitVec 6) (s : State) : Res :=
  let n := port.toNat
  if decide (portCount ≤ n) then notDue s
  else
    let v := (s.port n).stat
    .next { s.modPort n fun P => P.field 0 8 0 with hub := { s.hub with hostRead := v.zeroExtend 64 } }

end Sys2Proof.Machine
end

