-- ==== Sys2Proof/Machine/Sha256.lean ====
section
/-! DEFINITION. The SHA-256 digest that spec 22 R431 and R433 name. The manual names the algorithm and does not write it out:
it is taken from its published standard (PRESUMED, log 29). -/

namespace Sys2Proof.Machine

/-- The 64 round constants. -/
def shaK : List Nat :=
  [0x428a2f98, 0x71374491, 0xb5c0fbcf, 0xe9b5dba5, 0x3956c25b, 0x59f111f1, 0x923f82a4, 0xab1c5ed5] ++
  [0xd807aa98, 0x12835b01, 0x243185be, 0x550c7dc3, 0x72be5d74, 0x80deb1fe, 0x9bdc06a7, 0xc19bf174] ++
  [0xe49b69c1, 0xefbe4786, 0x0fc19dc6, 0x240ca1cc, 0x2de92c6f, 0x4a7484aa, 0x5cb0a9dc, 0x76f988da] ++
  [0x983e5152, 0xa831c66d, 0xb00327c8, 0xbf597fc7, 0xc6e00bf3, 0xd5a79147, 0x06ca6351, 0x14292967] ++
  [0x27b70a85, 0x2e1b2138, 0x4d2c6dfc, 0x53380d13, 0x650a7354, 0x766a0abb, 0x81c2c92e, 0x92722c85] ++
  [0xa2bfe8a1, 0xa81a664b, 0xc24b8b70, 0xc76c51a3, 0xd192e819, 0xd6990624, 0xf40e3585, 0x106aa070] ++
  [0x19a4c116, 0x1e376c08, 0x2748774c, 0x34b0bcb5, 0x391c0cb3, 0x4ed8aa4a, 0x5b9cca4f, 0x682e6ff3] ++
  [0x748f82ee, 0x78a5636f, 0x84c87814, 0x8cc70208, 0x90befffa, 0xa4506ceb, 0xbef9a3f7, 0xc67178f2]

/-- The initial hash value. -/
def shaInit : List Nat :=
  [0x6a09e667, 0xbb67ae85, 0x3c6ef372, 0xa54ff53a, 0x510e527f, 0x9b05688c, 0x1f83d9ab, 0x5be0cd19]

/-- A 32-bit word rotated right. -/
def rotr (x : W32) (n : Nat) : W32 := (x >>> n) ||| (x <<< (32 - n))

/-- The next word of the message schedule; `w` holds the words so far, the newest first. -/
def shaNext (w : List W32) : W32 :=
  let x := w.getD 14 0
  let y := w.getD 1 0
  (rotr y 17 ^^^ rotr y 19 ^^^ (y >>> 10)) + w.getD 6 0 + (rotr x 7 ^^^ rotr x 18 ^^^ (x >>> 3)) + w.getD 15 0

/-- The message schedule of a block of 16 words, the newest word first. -/
def shaSchedule : Nat → List W32 → List W32
  | 0, w => w
  | n + 1, w => shaSchedule n (shaNext w :: w)

/-- One round on the eight working variables. -/
def shaRound (v : List W32) (kw : Nat × W32) : List W32 :=
  let at' (i : Nat) : W32 := v.getD i 0
  let e := at' 4
  let a := at' 0
  let t1 := at' 7 + (rotr e 6 ^^^ rotr e 11 ^^^ rotr e 25) + ((e &&& at' 5) ^^^ (~~~e &&& at' 6)) + BitVec.ofNat 32 kw.1 + kw.2
  let t2 := (rotr a 2 ^^^ rotr a 13 ^^^ rotr a 22) + ((a &&& at' 1) ^^^ (a &&& at' 2) ^^^ (at' 1 &&& at' 2))
  [t1 + t2, a, at' 1, at' 2, at' 3 + t1, e, at' 5, at' 6]

/-- The hash after one block. -/
def shaBlock (h : List W32) (block : List W32) : List W32 :=
  let v := (shaK.zip (shaSchedule 48 block.reverse).reverse).foldl shaRound h
  (h.zip v).map fun x => x.1 + x.2

/-- Bytes as big-endian words. -/
def shaWords : List Byte → List W32
  | a :: b :: c :: d :: r => (a ++ b ++ c ++ d) :: shaWords r
  | _ => []

/-- The padded message: a bit 1, zeros, and the length in bits as 64 bits, big-endian. -/
def shaPad (m : List Byte) : List Byte :=
  m ++ [0x80] ++ List.replicate ((119 - m.length % 64) % 64) 0 ++ (List.range 8).reverse.map fun i =>
    BitVec.ofNat 8 (8 * m.length / 2 ^ (8 * i))

/-- Blocks of 16 words, hashed in order; the first argument bounds the number of blocks. -/
def shaBlocks : Nat → List W32 → List W32 → List W32
  | 0, h, _ => h
  | n + 1, h, w => shaBlocks n (shaBlock h (w.take 16)) (w.drop 16)

/-- The SHA-256 digest of bytes, as the 32-byte string read big-endian. (PRESUMED, log 29.) -/
def sha256 (m : List Byte) : BitVec 256 :=
  let w := shaWords (shaPad m)
  BitVec.ofNat 256 ((shaBlocks (w.length / 16) (shaInit.map (BitVec.ofNat 32)) w).foldl (fun n x => n * 2 ^ 32 + x.toNat) 0)

end Sys2Proof.Machine
end

