-- ==== Sys2Proof/Machine/Errors.lean ====
section
/-! DEFINITION. Corrected and uncorrectable errors, poison, device errors, reset, and the firmware loader (spec 20 R402,
21 R419-R422, 22 R431, R432, R436, R437). -/

namespace Sys2Proof.Machine

/-! ## Corrected errors and poison (spec 20 R402, 21 R419, R420) -/

/-- The data of an event of type 5 or 6 (spec 21 Table 21-5). -/
def errorData (reason : BitVec 6) (unitNo : Nat) (addr : W64) : List Byte :=
  leBytes 4 reason.toNat ++ leBytes 4 unitNo ++ leBytes 8 addr.toNat

/-- A notice pending in a group; one that is pending already stays. Whether the group asks for it shows when it is delivered (spec 20
R402). -/
def Group.notice (a : AsyncCause) (G : Group) : Group := if !G.ended && G.pend20.isNone then { G with pend20 := some a } else G

/-- ECC_CORRECTION: a correction is counted, pends in the group that consumed the data, and is logged when CORRIE = 1.
(DEDUCED, log 129.) -/
def execEccCorrection (reason : BitVec 6) (unitNo : Nat) (addr : W64) (consumer : Option (Nat × Nat)) (s : State) : Res :=
  let a : AsyncCause :=
    { reason := reason, aux := BitVec.ofNat 20 (unitNo % 256), d1 := addr.extractLsb' 0 32, d2 := addr.extractLsb' 32 32 }
  let s := { s with hub := { s.hub with corrected := s.hub.corrected + 1 } }
  let s := match consumer with
    | some (t, g) => s.modGroup t g (Group.notice a)
    | none => s
  .next (if s.regs.elCtl.getLsbD 1 then s.logEvent 5 0xFF 0 (errorData reason unitNo addr) else s)

/-- The local physical address of a key, 0 for one that has none. -/
def localOf (k : Nat) : W64 := if keyPeer k == ownPeer then BitVec.ofNat 64 (keyLocal k) else 0

/-- POISON_LINE: an uncorrectable error in the byte of memory at a key poisons its line. -/
def execPoisonLine (key : Nat) (reason : BitVec 6) (unitNo : Nat) (s : State) : Res :=
  .next ((s.poisonByte key).logEvent 6 0xFF 0 (errorData reason unitNo (localOf (key / 128 * 128))))

/-! ## Errors in lane and group state (spec 21 R421) -/

/-- The operands that an instruction reads: place in its word, type and selector. -/
def sigReads (x : Sig) : List (Nat × Ty × Nat) := (indexed x.fields).filterMap fun y => match y.2.1 with
  | .sel t => some (y.1, t, y.2.2.toNat)
  | _ => none

/-- Whether an instruction takes its operands from one elected lane alone (spec 07 R139, 14 R283). -/
def electsOne (i : Instr) : Bool :=
  match i with
  | .mzero _ _ | .mload _ _ | .mdrain _ _ | .mupd _ _ | .mcompress _ _ | .bpref _ _ | .bprefBo _ _ | .boinit _ _ | .kick _ _
  | .glaunch _ _ | .srammode _ _ | .movsB32 _ _ | .movsB64 _ _ | .trap _ _ | .bkpt _ _ => true
  | .syswr f _ => f.n != 6
  | _ => false

/-- The issuing lane of an MMA (spec 14 R283). -/
def mmaLane (G : Group) (m : Mods) (act : LaneMask) : Option Nat :=
  if (xopOf m).getLsbD 0 then
    let n := (immOf m).toNat % 32
    if act.getLsbD n && !(G.lane n).helper then some n else none
  else electLane G act

/-- The lanes whose metadata operand a sparse MMA reads (spec 14 R290). -/
def State.metaLanes (s : State) (c : Inst) (pb : W32) : LaneMask :=
  let bs := s.rd (scratchKey c.team pb.toNat) 16
  let d := dimM (fieldAt bs 8 4) * fieldAt bs 12 4 / 8
  if pb.toNat % 128 == 0 && bitsOf (fieldAt bs 4 4) 1 1 == 1 then laneMask fun l => decide (2 * l < d) else 0

/-- The lanes in which an instruction reads the operand at a place of its word, helper lanes among them only where the value
concerns the whole operation. -/
def State.readLanes (s : State) (c : Inst) (i : Instr) (m : Mods) (act : LaneMask) (place : Nat) : LaneMask :=
  let G := s.instGrp c
  let own := laneMask fun l => act.getLsbD l && !(G.lane l).helper
  let one (e : Option Nat) : LaneMask := laneMask fun l => e == some l
  match i with
  | .mma f _ =>
    let e := mmaLane G m act
    if place == 0 then one e
    else if place == 1 then (if e.isSome then own else 0)
    else match e with
      | some e => act &&& s.metaLanes c (src32 G m e f.a)
      | none => 0
  | _ => if electsOne i then one (electLane G act) else own

/-- Whether an operand of a lane reaches a register or slot in error. -/
def Lane.sickAt (L : Lane) (t : Ty) (n : Nat) : Bool :=
  if n < 16 then (List.range (max 1 (tyBits t / 64))).any fun i => L.sickQ.getLsbD (n + i)
  else if n < 48 then (List.range (max 1 (tyBits t / 32))).any fun i => L.sickK.getLsbD (n - 16 + i)
  else false

/-- The register that a lane reads without a field of the word naming it: the one MVRD finds, and the link register of RET. -/
def State.unnamedRead (s : State) (c : Inst) (i : Instr) (l : Nat) : Option Nat :=
  let G := s.instGrp c
  match i with
  | .ret _ _ => some (linkReg s c)
  | .mvrd f m =>
    let n := indirect (baseOf f.b) (src32 G m l f.a)
    if decide (0 ≤ n) && decide (n < 32) then some n.toNat else none
  | _ => none

/-- The trap of an instruction that reads a register or slot in error: cause group 21, reason 6 (spec 21 R421). -/
def State.sickRead (s : State) (c : Inst) (i : Instr) : Option TrapInfo :=
  match i.sig, i.mods with
  | some x, some m =>
    let G := s.instGrp c
    if G.lanes.all fun L => L.sickK == 0 && L.sickQ == 0 then none
    else
      let act := activeOf s c x.guard.toNat (guardNeg m)
      let sick (l : Nat) : Bool :=
        ((sigReads x).any fun y => (s.readLanes c i m act y.1).getLsbD l && (G.lane l).sickAt y.2.1 y.2.2) ||
          (act.getLsbD l && !(G.lane l).helper && (match s.unnamedRead c i l with
            | some n => (G.lane l).sickK.getLsbD n
            | none => false))
      let bad := laneMask sick
      match maskLanes bad with
      | [] => none
      | l :: _ => some (trapOf 21 l 6 (s.team c.team).core 0 0 bad)
  | _, _ => none

/-- The mark of a register or queue slot in error. -/
def Lane.spoil (isQueue : Bool) (no : Nat) (L : Lane) : Lane :=
  if isQueue then { L with sickQ := L.sickQ ||| (1#16 <<< no) } else { L with sickK := L.sickK ||| (1#32 <<< no) }

/-- The trap of an error in core state: it names no lane and no instruction. (DEDUCED, log 128.) -/
def coreStateTrap (core : Nat) : TrapInfo := { trapOf 21 0x3F 7 core 0 0 0 with fatal := true }

/-- STATE_ERROR: an uncorrectable error in a register or queue slot is met by the instruction that reads it; one in other core state
halts the team; one in an accumulator element fails the next operation on its tile. (DEDUCED, log 127.) -/
def execStateError (err : StateErr) (s : State) : Res :=
  let t := match err with
    | .register t _ _ _ _ => t
    | .core t _ => t
    | .accumulator t _ => t
  let reason : BitVec 6 := match err with
    | .register _ _ _ _ _ => 2
    | .core _ _ => 7
    | .accumulator _ _ => 4
  let s1 := s.logEvent 6 0xFF 0 (errorData reason (s.team t).core 0)
  if !(s.team t).live then notDue s
  else
    match err with
    | .register t g l isQueue no =>
      .next (s1.modGroup t g fun G => G.mapLanes fun i L => if i == l then L.spoil isQueue no else L)
    | .core t g =>
      let G := s.grp t g
      if decide ((s.team t).groups.length ≤ g) || G.ended then notDue s
      else
        let pc : W32 := match G.lanes.find? fun L => !L.isExited with
          | some L => L.pc
          | none => 0
        .next (s1.takeTrap t g (coreStateTrap (s.team t).core) false pc 0)
    | .accumulator t i => .next (s1.modTile t i fun T => { T with sick := true })

/-! ## Device errors (spec 21 R422) -/

/-- A card of a grid that a device error ends: its items not begun, and the one under way, end with status 5. -/
def Card.failed (C : Card) : Card := { C with cancel := some 5, fail := if C.cur.isSome then some 5 else C.fail }

/-- A grid ends with status 12: its teams are discarded, its cards' unfinished items end with status 5. -/
def State.failGrid (s : State) (g : Nat) : State :=
  let cards := s.eng.cards.map fun C => if C.grid == g && !C.ended && C.cancel.isNone then C.failed else C
  (State.stopGrid { s with eng := { s.eng with cards := cards } } g).modGrid g fun G =>
    { G with halted := true, report := { G.report with status := 12 } }

/-- The grids that have not completed, those of cards' pixel launches apart. -/
def State.unfinished (s : State) : List Nat :=
  (List.range s.grids.length).filter fun g => !(s.grid g).over && (s.grid g).par.card.isNone

/-- A device error: the grids that could have touched the state end with status 12, the event is logged, and no launch is
accepted or begun. -/
def State.deviceErr (s : State) (touched : List Nat) : State :=
  let s := (s.unfinished.filter touched.contains).foldl State.failGrid s
  let s := s.logEvent 11 0xFF 0 []
  { s with cp := { s.cp with devErr := true } }

/-- DEVICE_ERROR. -/
def execDeviceError (touched : List Nat) (s : State) : Res := .next (s.deviceErr touched)

/-! ## Firmware (spec 22 R431, R432) -/

/-- The largest firmware image. -/
def imageMax : Nat := 2 ^ 23

/-- The least security version number that may run. -/
def State.minVersion (s : State) : Nat := max Config.fusedMinimum s.hub.flash.minimum

/-- The first check of R431 that an image fails, 0 when all pass. (DESIGN CHOICE, log 132.) -/
def State.imageCheck (s : State) (image : List Byte) : Nat :=
  if Config.imageMagic image != 0x4657 then 1
  else if decide (imageMax < Config.imageLength image) then 2
  else if sha256 (Config.imageKey image) != Config.fusedKeyDigest ||
    !Config.slhVerify (Config.imageKey image) (sha256 (Config.imageSigned image)) (Config.imageSignature image) then 3
  else if decide (Config.imageVersion image < s.minVersion) then 4
  else 0

/-- The check that the image in flash fails; one whose write was interrupted fails, the manual does not say at which check. -/
def State.flashCheck (s : State) : Nat :=
  if s.hub.flash.partial_ then 1 + (Config.unstated s.sched.freeCtr).toNat % 4
  else s.imageCheck (s.hub.flash.image.getD Config.factoryImage)

/-- An entry of the persistent log, which keeps 4096 of them. -/
def pushLog (log : List W32) (x : W32) : List W32 := log.drop (log.length + 1 - 4096) ++ [x]

/-- The loader at reset: the image runs, or the failing check is logged and RECOV set (spec 22 R431). -/
def State.boot (s : State) : State :=
  let k := s.flashCheck
  let s := s.tick
  if k == 0 then
    let i := s.hub.flash.image.getD Config.factoryImage
    let raised := max s.hub.flash.minimum ((Config.imageRaises i).getD 0)
    { s with
      regs := { s.regs with fwVer := BitVec.ofNat 32 (Config.imageVersion i) }
      hub := { s.hub with flash := { s.hub.flash with minimum := raised, running := some s.hub.flash.image } } }
  else
    { s with
      regs := { s.regs with fwStat := BitVec.ofNat 32 (2 ^ 31 + k * 16) }
      hub := { s.hub with zlog := pushLog s.hub.zlog (BitVec.ofNat 32 k), flash := { s.hub.flash with running := none } } }

/-- FWCMD.GO: the staged image is checked; one that passes is written to flash, which takes time (spec 22 R432). (DEDUCED, log 133.) -/
def execFwcmdGo (s : State) : Res :=
  let a := localKey (s.regs.fwStage.toNat % 2 ^ 45 / 4096 * 4096)
  if s.regs.fwStat.getLsbD 30 then .next s
  else hubRead .fwcmdGo a imageMax s fun s =>
    let image := s.rd a imageMax
    let k := s.imageCheck image
    let keep : W32 := s.regs.fwStat &&& 0x80000000
    let s := { s with regs := { s.regs with fwCmd := 1 } }
    if k == 0 then
      .next { s with
        regs := { s.regs with fwStat := keep ||| 0x40000000 }
        hub := { s.hub with flash := { s.hub.flash with image := some image, partial_ := true } } }
    else .next { s with regs := { s.regs with fwStat := keep ||| BitVec.ofNat 32 (k * 16 + 2) } }

/-- FIRMWARE_UPDATE_DONE: the flash is written and verified: result 1. -/
def execFirmwareUpdateDone (s : State) : Res :=
  if !s.regs.fwStat.getLsbD 30 then notDue s
  else .next { s with
    regs := { s.regs with fwStat := (s.regs.fwStat &&& 0x80000000) ||| 1 }
    hub := { s.hub with flash := { s.hub.flash with partial_ := false } } }

/-! ## Reset (spec 22 R431, R437) -/

/-- Whether a byte keeps its value over a reset: the device's HBM4, and host memory. -/
def keptKey (power : Bool) (k : Nat) : Bool := (!power && keyPeer k == ownPeer) || keyPeer k == hostPeer || decide (2 ^ 62 ≤ k)

/-- The state that a reset leaves: every register at its reset value; the persistent log, the flash and the raised minimum
stay, and what the outside is. (DESIGN CHOICE, log 130.) -/
def State.cleared (s : State) (power : Bool) : State :=
  { State.reset with
    mem := s.mem.filter fun c => keptKey power c.1
    poison := s.poison.filter fun l => keptKey power (l * 128)
    badBytes := s.badBytes.filter fun b => keptKey power b
    fab := { farDown := s.fab.farDown }
    hub := { flash := s.hub.flash, zlog := s.hub.zlog, msix := s.hub.msix, hostDown := s.hub.hostDown }
    sched := { agenda := s.sched.agenda, inbox := s.sched.inbox, events := s.sched.events, freeCtr := s.sched.freeCtr } }

/-- The reset of R437: the device is cleared, and the firmware is verified again. A flash write under way has been finished. -/
def State.resetDevice (s : State) : State :=
  let s := { s with hub := { s.hub with flash := { s.hub.flash with partial_ := s.hub.flash.partial_ && !s.regs.fwStat.getLsbD 30 } } }
  (s.cleared false).boot

/-- Whether a reset that a device error brings waits: for grids that run or whose record is still to be written, and for cards of
failed grids that have not ended (R422). -/
def State.resetWaits (s : State) : Bool :=
  (s.unfinished.any fun g => (s.grid g).status == .dispatching || (s.grid g).report.status != 0) ||
    s.eng.cards.any fun C => !C.ended && C.cancel == some 5

/-- DEVICE_RESET: after a device error, once every grid that had begun has completed; the launches that cannot begin any more complete
with status 12 first. (DEDUCED, log 131.) -/
def execDeviceReset (s : State) : Res :=
  if !s.cp.devErr || s.resetWaits then notDue s
  else if s.unfinished.isEmpty then .next s.resetDevice
  else .next (s.unfinished.foldl State.failGrid s)

/-- A reset that does not wait for grids to complete by themselves: those unfinished end with status 12, and the reset follows when their
records are written. -/
def State.resetSoon (s : State) : State :=
  if s.unfinished.isEmpty then s.resetDevice
  else if s.cp.devErr then s.unfinished.foldl State.failGrid s
  else s.deviceErr s.unfinished

/-- FWCMD.RESET; ignored while BUSY = 1. -/
def execFwcmdReset (s : State) : Res := .next (if s.regs.fwStat.getLsbD 30 then s else s.resetSoon)

/-- POWER_ON_RESET. -/
def execPowerOnReset (s : State) : Res := .next (s.cleared true).boot

/-- POWER_LOSS: what is not in flash, in the persistent log or in host memory is lost; a flash write under way stays incomplete. -/
def execPowerLoss (s : State) : Res :=
  let c := s.cleared true
  .next { c with hub := { c.hub with powered := false } }

/-! ## Heat (spec 22 R435, R436) -/

/-- The number of capping steps of each kind: 30 of 100 MHz for the matrix islands, 30 for the core quartets, 15 of throttling. -/
def capSteps : Nat := 30

/-- The frequency of an island in MHz: islands 4 c + 2 and 4 c + 3 are the matrix islands of cluster c. -/
def State.islandMhz (s : State) (i : Nat) : Nat :=
  let cap := if decide (2 ≤ i % 4) then min capSteps s.hub.cap else min capSteps (s.hub.cap - capSteps)
  4000 - 100 * min capSteps (cap + s.hub.hot.getD i 0)

/-- MXFREQ follows the matrix islands (spec 22 Table 22-5). -/
def State.showFreq (s : State) : State :=
  let low := ((List.range 128).filter fun i => decide (2 ≤ i % 4)).foldl (fun m i => min m (s.islandMhz i)) 4000
  { s with regs := { s.regs with mxFreq := BitVec.ofNat 32 low } }

/-- THERMAL_105: an island at 105 °C is lowered by one step, whatever the power. -/
def execThermal105 (island : BitVec 7) (s : State) : Res :=
  .next (State.showFreq { s with hub := { s.hub with hot := modNth s.hub.hot island.toNat fun n => min capSteps (n + 1) } })

/-- THERMAL_115: a junction at 115 °C stops every compute die: a device error that every grid has touched, and the reset. -/
def execThermal115 (s : State) : Res :=
  let s1 := s.deviceErr (List.range s.grids.length)
  .next (if s1.unfinished.isEmpty then s1.resetDevice else s1)

end Sys2Proof.Machine
end

