-- ==== Sys2Proof/Machine/Exchange.lean ====
section
/-! DEFINITION. Lane exchange, quad differences, group reductions and flag access: majors 0x1A to 0x1C (spec 09
R189-R194). -/

namespace Sys2Proof.Machine

/-! ## Lane exchange (spec 09 R189) -/

/-- The operand of a source lane; zero for a lane outside Active() (spec 07 R140). -/
def laneValue (G : Group) (m : Mods) (act : LaneMask) (a : BitVec 6) (t : Ty) (i : Nat) : W64 :=
  if act.getLsbD i then src G m i a t else 0

/-- A lane exchange: `from_ l b` is the source lane of lane `l` with B operand `b`. -/
def exchange (t : Ty) (from_ : Nat → Nat → Nat) (f : V3) (m : Mods) (s : State) : Res :=
  withInst s fun c =>
    let act := activeOf s c f.g.toNat (guardNeg m)
    valueInst c m f.g 1 (fun G l =>
      outTy t f.d (laneValue G m act f.a t (from_ l (src32 G m l f.b).toNat)).toNat 0) s

/-- The source lanes of Table 9-7. -/
def fromIdx (_ b : Nat) : Nat := b % 32
def fromUp (l b : Nat) : Nat := if l < b then l else l - b
def fromDown (l b : Nat) : Nat := if 31 < l + b then l else l + b
def fromXor (l b : Nat) : Nat := Nat.xor l (b % 32)
def fromSwap (k l _ : Nat) : Nat := Nat.xor l k
def fromBcast (l b : Nat) : Nat := 4 * (l / 4) + b % 4

/-- SHFL.idx.b32. -/
def execShflIdxB32 (f : V3) (m : Mods) (s : State) : Res := exchange .b32 fromIdx f m s
/-- SHFL.up.b32. -/
def execShflUpB32 (f : V3) (m : Mods) (s : State) : Res := exchange .b32 fromUp f m s
/-- SHFL.down.b32. -/
def execShflDownB32 (f : V3) (m : Mods) (s : State) : Res := exchange .b32 fromDown f m s
/-- SHFL.xor.b32. -/
def execShflXorB32 (f : V3) (m : Mods) (s : State) : Res := exchange .b32 fromXor f m s
/-- QSWAP.h.b32. -/
def execQswapHB32 (f : V3) (m : Mods) (s : State) : Res := exchange .b32 (fromSwap 1) f m s
/-- QSWAP.v.b32. -/
def execQswapVB32 (f : V3) (m : Mods) (s : State) : Res := exchange .b32 (fromSwap 2) f m s
/-- QSWAP.d.b32. -/
def execQswapDB32 (f : V3) (m : Mods) (s : State) : Res := exchange .b32 (fromSwap 3) f m s
/-- QBCAST.b32. -/
def execQbcastB32 (f : V3) (m : Mods) (s : State) : Res := exchange .b32 fromBcast f m s
/-- SHFL.idx.b64. -/
def execShflIdxB64 (f : V3) (m : Mods) (s : State) : Res := exchange .b64 fromIdx f m s
/-- SHFL.up.b64. -/
def execShflUpB64 (f : V3) (m : Mods) (s : State) : Res := exchange .b64 fromUp f m s
/-- SHFL.down.b64. -/
def execShflDownB64 (f : V3) (m : Mods) (s : State) : Res := exchange .b64 fromDown f m s
/-- SHFL.xor.b64. -/
def execShflXorB64 (f : V3) (m : Mods) (s : State) : Res := exchange .b64 fromXor f m s
/-- QSWAP.h.b64. -/
def execQswapHB64 (f : V3) (m : Mods) (s : State) : Res := exchange .b64 (fromSwap 1) f m s
/-- QSWAP.v.b64. -/
def execQswapVB64 (f : V3) (m : Mods) (s : State) : Res := exchange .b64 (fromSwap 2) f m s
/-- QSWAP.d.b64. -/
def execQswapDB64 (f : V3) (m : Mods) (s : State) : Res := exchange .b64 (fromSwap 3) f m s
/-- QBCAST.b64. -/
def execQbcastB64 (f : V3) (m : Mods) (s : State) : Res := exchange .b64 fromBcast f m s

/-! ## Quad differences (spec 09 R190) -/

/-- A difference of two lanes of the quad, rounded once. -/
def quadDiff (fm : Fmt) (t : Ty) (u v : Nat → Nat) (f : V3) (m : Mods) (s : State) : Res :=
  withInst s fun c =>
    let act := activeOf s c f.g.toNat (guardNeg m)
    valueInst c m f.g 1 (fun G l =>
      let r := fpSub fm .rne s.peerNo (laneValue G m act f.a t (u l)).toNat (laneValue G m act f.a t (v l)).toNat
      outTy t f.d r.1 r.2) s

/-- QDERIV.x.fine.f32. -/
def execQderivXFineF32 (f : V3) (m : Mods) (s : State) : Res := quadDiff fmt32 .b32 (fun l => l / 2 * 2 + 1) (fun l => l / 2 * 2) f m s
/-- QDERIV.y.fine.f32. -/
def execQderivYFineF32 (f : V3) (m : Mods) (s : State) : Res := quadDiff fmt32 .b32 (fun l => l / 4 * 4 + l % 2 + 2) (fun l => l / 4 * 4 + l % 2) f m s
/-- QDERIV.x.coarse.f32. -/
def execQderivXCoarseF32 (f : V3) (m : Mods) (s : State) : Res := quadDiff fmt32 .b32 (fun l => l / 4 * 4 + 1) (fun l => l / 4 * 4) f m s
/-- QDERIV.y.coarse.f32. -/
def execQderivYCoarseF32 (f : V3) (m : Mods) (s : State) : Res := quadDiff fmt32 .b32 (fun l => l / 4 * 4 + 2) (fun l => l / 4 * 4) f m s
/-- QDERIV.x.fine.f64. -/
def execQderivXFineF64 (f : V3) (m : Mods) (s : State) : Res := quadDiff fmt64 .f64 (fun l => l / 2 * 2 + 1) (fun l => l / 2 * 2) f m s
/-- QDERIV.y.fine.f64. -/
def execQderivYFineF64 (f : V3) (m : Mods) (s : State) : Res := quadDiff fmt64 .f64 (fun l => l / 4 * 4 + l % 2 + 2) (fun l => l / 4 * 4 + l % 2) f m s
/-- QDERIV.x.coarse.f64. -/
def execQderivXCoarseF64 (f : V3) (m : Mods) (s : State) : Res := quadDiff fmt64 .f64 (fun l => l / 4 * 4 + 1) (fun l => l / 4 * 4) f m s
/-- QDERIV.y.coarse.f64. -/
def execQderivYCoarseF64 (f : V3) (m : Mods) (s : State) : Res := quadDiff fmt64 .f64 (fun l => l / 4 * 4 + 2) (fun l => l / 4 * 4) f m s

/-! ## Flag access (spec 09 R193, R194) -/

/-- FLAGRD. -/
def execFlagrd (f : V3) (m : Mods) (s : State) : Res := valueOp m f.g (fun G _ => out32 f.d G.flags) s

/-- FLAGCLR: every lane of Active() receives the word held before; the bits of the ORed operands are cleared. -/
def execFlagclr (f : V3) (m : Mods) (s : State) : Res :=
  withInst s fun c =>
    let G := s.instGrp c
    let act := activeOf s c f.g.toNat (guardNeg m)
    let M := (maskLanes act).foldl (fun x l => x ||| (src32 G m l f.a).extractLsb' 0 5) (0 : FlagBits)
    let s1 := s.commitLanes c act 0 1 fun _ => out32 f.d G.flags
    finishSeq c m 0 s (s1.modGroup c.team c.group fun G => { G with flags := G.flags &&& ~~~(M.zeroExtend 32) })

/-! ## Group reductions (spec 09 R191, R192) -/

/-- A reduction: the result of member codes with the flags of the operation, the flags that a lane's own code raises, and
the identity. -/
structure Reduction where
  fold  : Nat → List Nat → Nat × FlagBits
  own   : Nat → FlagBits
  ident : Nat

/-- The sum of floats: IV of a signalling NaN is raised in its lane, IV of opposite infinities in every lane. -/
def redSumF (f : Fmt) : Reduction where
  fold peer cs :=
    let r := fpSum f peer cs
    let vs := cs.map f.value
    let both := (vs.any fun v => v == .inf false) && (vs.any fun v => v == .inf true)
    (r.1, if both then r.2 else r.2 &&& ~~~flIV)
  own c := if (f.value c).isSig then flIV else 0
  ident := 0

/-- The least or greatest float. -/
def redMinMaxF (f : Fmt) (wantMax : Bool) : Reduction where
  fold _ cs := match fpMinMaxFold f wantMax cs with
    | some r => (r.1, 0)
    | none => (0, 0)
  own c := if (f.value c).isSig then flIV else 0
  ident := f.signed wantMax f.infCode

/-- The sum of integers of `w` bits. -/
def redSumI (w : Nat) : Reduction where
  fold _ cs := ((cs.foldl (· + ·) 0) % 2 ^ w, 0)
  own _ := 0
  ident := 0

/-- The least or greatest of signed 32-bit integers. -/
def redMinMaxI (wantMax : Bool) : Reduction where
  fold _ cs := match cs with
    | [] => (0, 0)
    | c :: rest => (rest.foldl (fun a b =>
        let less := decide ((BitVec.ofNat 32 b).toInt < (BitVec.ofNat 32 a).toInt)
        let more := decide ((BitVec.ofNat 32 a).toInt < (BitVec.ofNat 32 b).toInt)
        if (if wantMax then more else less) then b else a) c, 0)
  own _ := 0
  ident := if wantMax then 2 ^ 31 else 2 ^ 31 - 1

/-- GRED over Active(). -/
def reduceOp (t : Ty) (r : Reduction) (f : V3) (m : Mods) (s : State) : Res :=
  withInst s fun c =>
    let act := activeOf s c f.g.toNat (guardNeg m)
    valueInst c m f.g 1 (fun G l =>
      let x := r.fold s.peerNo ((maskLanes act).map fun i => (src G m i f.a t).toNat)
      outTy t f.d x.1 (x.2 ||| r.own (src G m l f.a t).toNat)) s

/-- GRED.seg: over the lanes of Active() with the same segment number, void lanes apart. -/
def segReduceOp (t : Ty) (r : Reduction) (f : V3) (m : Mods) (s : State) : Res :=
  withInst s fun c =>
    let act := activeOf s c f.g.toNat (guardNeg m)
    valueInst c m f.g 1 (fun G l =>
      let key (i : Nat) : W32 := src32 G m i f.b
      if (key l).getLsbD 31 then outTy t f.d r.ident 0
      else
        let x := r.fold s.peerNo (((maskLanes act).filter fun i => key i == key l).map fun i => (src G m i f.a t).toNat)
        outTy t f.d x.1 (x.2 ||| r.own (src G m l f.a t).toNat)) s

/-- GRED.sum.f32. -/
def execGredSumF32 (f : V3) (m : Mods) (s : State) : Res := reduceOp .b32 (redSumF fmt32) f m s
/-- GRED.min.f32. -/
def execGredMinF32 (f : V3) (m : Mods) (s : State) : Res := reduceOp .b32 (redMinMaxF fmt32 false) f m s
/-- GRED.max.f32. -/
def execGredMaxF32 (f : V3) (m : Mods) (s : State) : Res := reduceOp .b32 (redMinMaxF fmt32 true) f m s
/-- GRED.sum.s32. -/
def execGredSumS32 (f : V3) (m : Mods) (s : State) : Res := reduceOp .b32 (redSumI 32) f m s
/-- GRED.min.s32. -/
def execGredMinS32 (f : V3) (m : Mods) (s : State) : Res := reduceOp .b32 (redMinMaxI false) f m s
/-- GRED.max.s32. -/
def execGredMaxS32 (f : V3) (m : Mods) (s : State) : Res := reduceOp .b32 (redMinMaxI true) f m s
/-- GRED.sum.f64. -/
def execGredSumF64 (f : V3) (m : Mods) (s : State) : Res := reduceOp .f64 (redSumF fmt64) f m s
/-- GRED.sum.s64. -/
def execGredSumS64 (f : V3) (m : Mods) (s : State) : Res := reduceOp .s64 (redSumI 64) f m s
/-- GRED.seg.sum.f32. -/
def execGredSegSumF32 (f : V3) (m : Mods) (s : State) : Res := segReduceOp .b32 (redSumF fmt32) f m s
/-- GRED.seg.min.f32. -/
def execGredSegMinF32 (f : V3) (m : Mods) (s : State) : Res := segReduceOp .b32 (redMinMaxF fmt32 false) f m s
/-- GRED.seg.max.f32. -/
def execGredSegMaxF32 (f : V3) (m : Mods) (s : State) : Res := segReduceOp .b32 (redMinMaxF fmt32 true) f m s
/-- GRED.seg.sum.s32. -/
def execGredSegSumS32 (f : V3) (m : Mods) (s : State) : Res := segReduceOp .b32 (redSumI 32) f m s
/-- GRED.seg.min.s32. -/
def execGredSegMinS32 (f : V3) (m : Mods) (s : State) : Res := segReduceOp .b32 (redMinMaxI false) f m s
/-- GRED.seg.max.s32. -/
def execGredSegMaxS32 (f : V3) (m : Mods) (s : State) : Res := segReduceOp .b32 (redMinMaxI true) f m s
/-- GRED.seg.sum.f64. -/
def execGredSegSumF64 (f : V3) (m : Mods) (s : State) : Res := segReduceOp .f64 (redSumF fmt64) f m s
/-- GRED.seg.sum.s64. -/
def execGredSegSumS64 (f : V3) (m : Mods) (s : State) : Res := segReduceOp .s64 (redSumI 64) f m s

end Sys2Proof.Machine
end

