-- ==== Sys2Proof/Machine/Outside.lean ====
section
/-! DEFINITION. The outside: host accesses through the base address regions, writes of registers, device time, attestation and power
(spec 00 R5, R6, 15 R326, 22 R424-R430, R433, R435). -/

namespace Sys2Proof.Machine

/-! ## Base address region 2 (spec 22 R425) -/

/-- The lines of a range of this device's memory. -/
def hostLines (addr len : Nat) : List Nat :=
  (List.range ((addr + len - 1) / 128 + 1 - addr / 128)).map fun i => localKey (addr / 128 * 128 + 128 * i) / 128

/-- BAR2_ACCESS: a host access to device memory; one beyond HBM4 is an Unsupported Request. It waits for lines that other packages
hold, and behind a host write that waits so (spec 18 R383). Poisoned data crosses the host link as such (spec 21 R420).
(DEDUCED, log 145; DEDUCED, log 200.) -/
def execBar2Access (addr len : Nat) (data : Option LinkData) (s : State) : Res :=
  let me : Instr := .bar2Access addr len data
  if len = 0 || (match data with
      | some d => d.bytes.length != len
      | none => false) then notDue s
  else if decide (hbmEnd < addr + len) then .next { s with hub := { s.hub with bar2Ur := true, bar2Bad := false } }
  else if (s.firstHostWrite.getD me) != me then .next (s.holdBack me)
  else
    let held := (hostLines addr len).filter fun l => s.dirBlocks l data.isSome
    if !held.isEmpty then .next (State.holdBack (held.foldl State.recallLine s) me)
    else
      let s := { s.letGo me with hub := { s.hub with bar2Ur := false } }
      match data with
      | some d =>
        let s := s.wr (localKey addr) d.bytes
        .next (if d.poisoned then (hostLines addr len).foldl State.addPoison s else s)
      | none => .next { s with hub := { s.hub with
          bar2Data := s.rd (localKey addr) len, bar2Bad := s.poisoned (localKey addr) len } }

/-! ## Reads of registers that clear (spec 00 R5) -/

/-- The value that a host read returns. -/
def State.hostReads (s : State) (v : W64) : State := { s with hub := { s.hub with hostRead := v } }

/-- ELLOST_READ. -/
def execEllostRead (s : State) : Res :=
  .next { s.hostReads (s.regs.elLost.zeroExtend 64) with regs := { s.regs with elLost := 0 } }
/-- PPSCOUNT_READ. -/
def execPpscountRead (s : State) : Res :=
  .next { s.hostReads (s.regs.ppsCount.zeroExtend 64) with regs := { s.regs with ppsCount := 0 } }
/-- Looked at now, PWRCAPNS has counted the time since it was last brought up to date, if the cap was in force (spec 22 R435).
(DEDUCED, log 140.) -/
def State.countCap (s : State) : State :=
  let (now, s) := s.lookTime
  let ns : Nat := if s.hub.cap = 0 then 0 else now.toNat - s.hub.clock.capTo
  { s with
    regs := { s.regs with pwrCapNs := s.regs.pwrCapNs + BitVec.ofNat 64 ns }
    hub := { s.hub with clock := { s.hub.clock with capTo := now.toNat } } }

/-- PWRCAPNS_READ. -/
def execPwrcapnsRead (s : State) : Res :=
  let s := s.countCap
  .next { s.hostReads s.regs.pwrCapNs with regs := { s.regs with pwrCapNs := 0 } }

/-! ## Device time (spec 22 R426-R430) -/

/-- TIMECTL.SRC and PPSREF. -/
def State.timeSrc (s : State) : Nat := (s.regs.timeCtl.extractLsb' 0 2).toNat
def State.ppsRef (s : State) : Bool := s.regs.timeCtl.getLsbD 2

/-- The clock changed, with TIMESTAT as LOCK and the grounds of HOLDOVER give it. -/
def State.setClock (s : State) (c : Clock) (lock : Bool) : State :=
  let st := (if lock then 1 else 0) + (if c.holdSrc || c.holdPps then 2 else 0)
  { s with hub := { s.hub with clock := c }, regs := { s.regs with timeStat := BitVec.ofNat 32 st } }

/-- A correction of the rate within the bound of R426. -/
def clampPpm (x : Int) : Int := max (-500) (min 500 x)

/-- The counter stepped forward by `n`: no time has passed meanwhile, so the times from which intervals are counted step with it. -/
def Clock.step (c : Clock) (n : Nat) : Clock :=
  { c with
    now := timeWord (c.now.toNat + n), lastMeas := c.lastMeas + n, lastReq := c.lastReq + n, lastEdge := c.lastEdge + n,
    lastPredict := c.lastPredict + n, quietSince := c.quietSince + n, capTo := c.capTo + n }

/-- The servo, on an offset from the counter to what it is to show: a lag of more than 1 ms is stepped, a lead of any size is removed
at -500 ppm; the correction is free otherwise, within its bound, while the source has measured no lead (spec 22 R426). -/
def State.steer (s : State) (off : Int) : State :=
  let c := s.hub.clock.step (if 1000000 < off then off.toNat else 0)
  let ppm := if off < 0 || c.lead then -500 else clampPpm (Config.servoPpm s.sched.freeCtr)
  { s.tick with hub := { s.hub with clock := { c with ppm := ppm } } }

/-- An offset measurement, the source's time less the counter's: LOCK follows R427, the servo R426. (DESIGN CHOICE, log 136.) -/
def State.measure (s : State) (off : Int) : State :=
  let s := s.lookTime.2
  let s := State.steer { s with hub := { s.hub with clock := { s.hub.clock with lead := decide (off < 0) } } } off
  let c := s.hub.clock
  let near := decide (off.natAbs ≤ 100)
  let good := if near then c.good + 1 else 0
  s.setClock { c with good := good, ptmWait := false, holdSrc := false, lastMeas := c.now.toNat } (near && decide (16 ≤ good))

/-- LOCK as it stands. -/
def State.locked (s : State) : Bool := s.regs.timeStat.getLsbD 0

/-- PTP_MESSAGE: a measurement from the management port. -/
def execPtpMessage (offset : Int) (s : State) : Res :=
  if s.timeSrc != 1 then notDue s else .next (s.measure offset)

/-- PTM_REQUEST: the device asks the root port's responder, PTMIVL after its last request, answered or not (spec 22 R429). -/
def execPtmRequest (s : State) : Res :=
  if s.timeSrc != 2 then notDue s
  else
    let s := s.timeAtLeast (s.hub.clock.lastReq + s.regs.ptmIvl.toNat * 1000)
    .next { s with hub := { s.hub with clock := { s.hub.clock with ptmWait := true, lastReq := s.hub.clock.now.toNat } } }

/-- PTM_RESPONSE: a measurement, or PTM is not granted. -/
def execPtmResponse (granted : Bool) (offset : Int) (s : State) : Res :=
  if !s.hub.clock.ptmWait then notDue s
  else if granted then .next (s.measure offset)
  else .next (s.setClock { s.hub.clock with ptmWait := false, holdSrc := true } s.locked)

/-- The offset from the counter, at an edge of the pulse, to the nearest multiple of 10⁹ (spec 22 R430). -/
def pulseOffset (now : Nat) : Int :=
  let past := now % 1000000000
  if decide (past ≤ 500000000) then - (past : Int) else ((1000000000 - past : Nat) : Int)

/-- PPS_EDGE: the edge is latched and counted, whatever SRC holds; with PPSREF the servo aligns the counter's seconds to it.
(DEDUCED, log 137.) -/
def execPpsEdge (s : State) : Res :=
  let (now, s) := s.lookTime
  let s := { s with hub := { s.hub with clock := { s.hub.clock with lastEdge := now.toNat } } }
  let s := if s.ppsRef && s.timeSrc != 0 then s.steer (pulseOffset now.toNat) else s
  let s := s.setClock { s.hub.clock with holdPps := false } s.locked
  .next { s with regs := { s.regs with ppsLatch := now, ppsCount := s.regs.ppsCount + 1 } }

/-- HOLDOVER_TIMEOUT: the source has given no measurement for 4 s. -/
def execHoldoverTimeout (s : State) : Res :=
  if s.timeSrc == 0 || s.hub.clock.holdSrc then notDue s
  else
    let s := s.timeAtLeast (s.hub.clock.lastMeas + 4000000000)
    .next (s.setClock { s.hub.clock with holdSrc := true } s.locked)

/-- PPS_LOSS_TIMEOUT: no edge for 2 s under PPSREF. -/
def execPpsLossTimeout (s : State) : Res :=
  if !s.ppsRef || s.hub.clock.holdPps then notDue s
  else
    let s := s.timeAtLeast (s.hub.clock.lastEdge + 2000000000)
    .next (s.setClock { s.hub.clock with holdPps := true } s.locked)

/-- The servo anew under a source that has been selected at time `now`; without one the counter runs from the oscillator (spec 22
R427). -/
def Clock.select (c : Clock) (src : Nat) (now : Nat) : Clock :=
  { c with ppm := if src = 0 then 0 else c.ppm, lead := false, ptmWait := false, holdSrc := false, lastMeas := now, lastReq := now }

/-- The pulse taken or left as a reference at time `now`: it has been lost neither yet nor any more. -/
def Clock.setPps (c : Clock) (now : Nat) : Clock := { c with holdPps := false, lastEdge := now }

/-- TIMECTL_SRC_WRITE: a write of TIMECTL clears LOCK; another source begins anew, and so does another choice of the pulse; a write of
SRC 3 is ignored. -/
def execTimectlSrcWrite (v : W32) (s : State) : Res :=
  if v.extractLsb' 0 2 == 3 then .next s
  else
    let (now, s) := s.lookTime
    let u := { s with regs := { s.regs with timeCtl := v &&& 7 } }
    let c := if u.timeSrc == s.timeSrc then s.hub.clock else s.hub.clock.select u.timeSrc now.toNat
    let c := if u.ppsRef == s.ppsRef then c else c.setPps now.toNat
    .next (u.setClock { c with good := 0 } false)

/-! ## Attestation (spec 22 R433) -/

/-- Bytes of the context table (spec 20 R411). -/
def ctxTableBytes : Nat := 16384

/-- The bytes of a measurement (spec 22 Table 22-4). -/
def State.measurement (s : State) (index : Nat) : List Byte :=
  let digest (bs : List Byte) : List Byte := (leBytes 32 (sha256 bs).toNat).reverse
  match index with
  | 1 => Config.fixedMeasurement 1
  | 2 => (match s.hub.flash.running with
    | some i => digest (i.getD Config.factoryImage)
    | none => Config.fixedMeasurement 2) ++ leBytes 4 s.regs.fwVer.toNat
  | 3 => Config.fuseMeasurement s.minVersion
  | 4 => digest (s.rd (s.ctxEntry 0) ctxTableBytes)
  | _ => []

/-- The device's answer to a request at the mailbox. -/
def State.doeAnswer (s : State) (request : List Byte) : State :=
  let n := s.sched.freeCtr
  let s := s.tick
  { s with hub := { s.hub with doeOut := Config.spdmAnswer n request } }

/-- SPDM_GET_MEASUREMENTS. -/
def execSpdmGetMeasurements (index : BitVec 8) (s : State) : Res :=
  hubRead (.spdmGetMeasurements index) (s.ctxEntry 0) (if index == 4 then ctxTableBytes else 0) s fun s =>
    .next (s.doeAnswer (index :: s.measurement index.toNat))
/-- SPDM_CHALLENGE. -/
def execSpdmChallenge (nonce : BitVec 256) (s : State) : Res :=
  hubRead (.spdmChallenge nonce) (s.ctxEntry 0) ctxTableBytes s fun s => .next (s.doeAnswer (leBytes 32 nonce.toNat ++ [1, 2, 3, 4].flatMap s.measurement))
/-- SPDM_SECURED_SESSION. -/
def execSpdmSecuredSession (msg : List Byte) (s : State) : Res :=
  let s := s.doeAnswer msg
  .next { s with hub := { s.hub with spdmUp := true } }

/-! ## Power (spec 22 R435) -/

/-- Every capping step: the matrix islands, the core quartets, throttling. -/
def allSteps : Nat := 2 * capSteps + 15

/-- The most that the package ever draws, in watts (spec 00 R3). -/
def packageWatts : Nat := 4200

/-- Device time raised to when a prediction is due, 10 µs after the last (spec 22 R435). -/
def State.predictDue (s : State) : State := s.timeAtLeast (s.hub.clock.lastPredict + 10000)

/-- Whether a predicted sum is at least 5 % under the limit. -/
def State.lowSum (s : State) (w : Nat) : Bool := decide (w * 100 ≤ 95 * s.regs.pwrLimit.toNat)

/-- POWER_PREDICT, 10 µs after the last prediction: `watts` are the package sums predicted with no further step, with one, and so on;
the manager takes the fewest steps with which the sum fits, or every step left. (DESIGN CHOICE, log 138.) -/
def execPowerPredict (watts : List Nat) (s : State) : Res :=
  let s := s.predictDue.countCap
  let left := allSteps - s.hub.cap
  let fits (w : Nat) : Bool := decide (w ≤ s.regs.pwrLimit.toNat)
  let k := min left ((watts.findIdx? fits).getD left)
  let n := s.sched.freeCtr
  let c := s.hub.clock
  let quiet := if watts.head?.any s.lowSum then c.quietSince else c.now.toNat
  let s := s.tick.tick
  let s := { s with
    hub := { s.hub with cap := s.hub.cap + k, clock := { c with lastPredict := c.now.toNat, quietSince := quiet } }
    regs := { s.regs with
      pwrNow := BitVec.ofNat 32 (min packageWatts (Config.sensor n))
      tempMax := BitVec.ofNat 32 (Config.sensor (n + 1)) } }
  .next s.showFreq

/-- The predictions of 1 ms. -/
def quietSums : Nat := 100

/-- POWER_RESTORE_STEP: the predicted sums of a millisecond, all at least 5 % under the limit, undo one step; the steps taken for heat
follow those of the cap. The millisecond began no earlier than the last step or the last sum that was not so low. -/
def execPowerRestoreStep (watts : List Nat) (s : State) : Res :=
  if decide (watts.length < quietSums) || !watts.all s.lowSum || (s.hub.cap = 0 && s.hub.hot.all (· = 0)) then notDue s
  else
    let s := (s.timeAtLeast (s.hub.clock.quietSince + 1000000)).countCap
    let now := s.hub.clock.now.toNat
    let hub : Hub := { s.hub with clock := { s.hub.clock with quietSince := now, lastPredict := now } }
    let hub := if hub.cap = 0 then { hub with hot := hub.hot.map (· - 1) } else { hub with cap := hub.cap - 1 }
    .next (State.showFreq { s with hub := hub })

/-! ## Writes of registers (spec 00 R5, R6) -/

/-- A value clamped. -/
def clamp32 (lo hi : Nat) (v : W64) : W32 := BitVec.ofNat 32 (max lo (min hi (v.toNat % 2 ^ 32)))
/-- The page field [44:12] of a value. -/
def page45 (v : W64) : W64 := BitVec.ofNat 64 (v.toNat % 2 ^ 45 / 4096 * 4096)
/-- The low half of a value. -/
def low32 (v : W64) : W32 := v.extractLsb' 0 32

/-- A write of a queue's register at offset `r` within its 64 bytes (spec 03 Table 3-5, R68). (DESIGN CHOICE, log 149.) -/
def State.writeQueue (s : State) (q : BitVec 6) (r : Nat) (v : W64) : Res :=
  let n := q.toNat
  let Q := s.queue n
  let set (f : Queue → Queue) : Res := .next (s.modQueue n f)
  let idle (f : Queue → Queue) : Res := if Q.en then .next s else set f
  match r with
  | 0x00 => idle fun Q => { Q with qbase := v &&& 0x81FFFFFFFFFFFF80 }
  | 0x08 => if ringSizeOk 2 (low32 v).toNat then idle fun Q => { Q with qsize := low32 v } else .next s
  | 0x0C => if Q.en && !v.getLsbD 31 then execQueueDisable q (low32 v) s else set fun Q => { Q with qctl := low32 v &&& qctlBits }
  | 0x10 => execQwriteWrite q (low32 v) s
  | 0x18 => set fun Q => { Q with qstat := Q.qstat &&& ~~~(low32 v &&& 7) }
  | 0x20 => idle fun Q => { Q with segbase := v &&& 0x01FFFFFFFFFFFF80 }
  | 0x28 => idle fun Q => { Q with segsize := low32 v }
  | 0x2C => if v.getLsbD 31 then execSegrelGo q (low32 v) s else .next s
  | _ => .next s

/-- The overflow registers of the context that SCOVCTX names, changed unless it holds contributions (spec 15 R326). -/
def State.setScatOv (s : State) (f : ScatOv → ScatOv) : State :=
  let n := (s.regs.scovCtx.extractLsb' 0 8).toNat
  let old := (s.eng.scatOv.find? fun x => x.ctx == n).getD { ctx := n }
  if s.eng.scatter.any fun x => x.ctx == n then s
  else { s with eng := { s.eng with scatOv := f old :: s.eng.scatOv.filter fun x => x.ctx != n } }

/-- A write of FABCTL: with ENCREQ, ports of compatibility mode go down (spec 12 R255). (DEDUCED, log 118.) -/
def State.writeFabctl (s : State) (v : W64) : State :=
  let s := { s with regs := { s.regs with fabCtl := low32 v &&& 3 } }
  if !v.getLsbD 1 then s
  else (List.range portCount).foldl (fun s n => if (s.port n).up && !(s.port n).native then s.portDown n else s) s

/-- A write of VACCMD or CTXCMD without GO. -/
def State.writeVaccmd (s : State) (v : W64) : State :=
  if s.regs.vacCmd.getLsbD 31 then s else { s with regs := { s.regs with vacCmd := low32 v &&& 0x00FF0000 } }
def State.writeCtxcmd (s : State) (v : W64) : State :=
  { s with regs := { s.regs with ctxCmd := (s.regs.ctxCmd &&& 0x87000000) ||| (low32 v &&& 0x00FFFF00) } }

/-- A write of FWCMD. -/
def State.writeFwcmd (s : State) (v : W64) : Res :=
  if s.regs.fwStat.getLsbD 30 then .next s
  else if v.getLsbD 1 then execFwcmdReset s
  else if v.getLsbD 0 then execFwcmdGo s
  else .next { s with regs := { s.regs with fwCmd := 0 } }

/-- A write of INVCMD (spec 10 Table 10-6). -/
def State.writeInvcmd (s : State) (v : W64) : Res :=
  let ctx : Byte := v.extractLsb' 16 8
  match (v.extractLsb' 0 2).toNat with
  | 0 => execInvcmdPage ctx s
  | 1 => execInvcmdContext ctx s
  | 2 => execInvcmdAll ctx s
  | _ => .next s

/-- A write of FRESOLVE (spec 10 Table 10-6). -/
def State.writeFresolve (s : State) (v : W64) : Res :=
  match (v.extractLsb' 0 2).toNat with
  | 0 => execFresolveMapped (v.extractLsb' 32 32) s
  | 1 => execFresolveUnresolvable (v.extractLsb' 32 32) s
  | _ => .next s

/-- A write of a register of the hub, the memory system, the fabric or the controller, by offset; of none, it is ignored.
(DEDUCED, log 135.) -/
def State.writeReg (s : State) (off : Nat) (v : W64) : Res :=
  let w := low32 v
  let set (r : Regs) : Res := .next { s with regs := r }
  match off with
  | 0x2000 => set { s.regs with llcctl := (s.regs.llcctl &&& 0x8000000C) ||| (w &&& 3) }
  | 0x2100 => set { s.regs with invAddr := v &&& 0x01FFFFFFFFFFF000 }
  | 0x2108 => s.writeInvcmd v
  | 0x2110 => set { s.regs with migHold := clamp32 1000 4000000000 v }
  | 0x2118 => execFqbaseWrite v s
  | 0x2120 => set { s.regs with fqSize := w }
  | 0x2128 => execFqreadWrite w s
  | 0x2130 => s.writeFresolve v
  | 0x2138 => if v.getLsbD 63 then execMigreqGo v s
    else set { s.regs with migReq := (s.regs.migReq &&& 0x6000000000000000) ||| (v &&& 0x01FFFFFFFFFFF000) }
  | 0x2200 => set { s.regs with scovCtx := w &&& 0xFF }
  | 0x2208 => .next (s.setScatOv fun x => { x with base := page45 v })
  | 0x2210 => .next (s.setScatOv fun x => { x with size := w })
  | 0x2300 => set { s.regs with syncTo := w }
  | 0x2400 => set { s.regs with vacMask := modNth s.regs.vacMask 0 fun _ => v }
  | 0x2408 => set { s.regs with vacMask := modNth s.regs.vacMask 1 fun _ => v }
  | 0x2410 => set { s.regs with vacMask := modNth s.regs.vacMask 2 fun _ => v }
  | 0x2418 => set { s.regs with vacMask := modNth s.regs.vacMask 3 fun _ => v }
  | 0x2420 => if v.getLsbD 0 then execVaccmdGo w s else .next (s.writeVaccmd v)
  | 0x2430 => if s.teams.any Team.live then .next s else set { s.regs with ctxBase := page45 v }
  | 0x2438 => if v.getLsbD 0 then execCtxcmdGo w s else .next (s.writeCtxcmd v)
  | 0x2500 => set { s.regs with elBase := ringBase 6 v }
  | 0x2508 => if w == 0 || ringSizeOk 64 w.toNat then set { s.regs with elSize := w } else .next s
  | 0x2510 => set { s.regs with elRead := w }
  | 0x2514 => set { s.regs with elCtl := w &&& 3 }
  | 0x2608 => execTimectlSrcWrite w s
  | 0x261C => set { s.regs with ptmIvl := clamp32 1000 1000000 v }
  | 0x2700 => set { s.regs with pwrLimit := clamp32 1000 4200 v }
  | 0x2804 => s.writeFwcmd v
  | 0x2808 => set { s.regs with fwStage := page45 v }
  | 0x3004 => .next (s.writeFabctl v)
  | 0x3008 => set { s.regs with fabTo := clamp32 100 1000000 v }
  | 0x3010 => if decide (peerCount ≤ (w.extractLsb' 0 12).toNat) then .next s else set { s.regs with routeIdx := w &&& 0xFFF }
  | 0x3018 => execRoutedataWrite v s
  | _ => .next s

/-- The queue and offset within it of an offset of base address region 0 (spec 03 R67). -/
def queueReg (off : Nat) : Option (BitVec 6 × Nat) :=
  if decide (0x10000 ≤ off) && decide (off < 0x11000) then some (BitVec.ofNat 6 ((off - 0x10000) / 64), (off - 0x10000) % 64) else none

/-- The offsets of base address region 0 that name a register outside the queues. -/
def regOffsets : List Nat :=
  [0x2000, 0x2100, 0x2108, 0x2110, 0x2118, 0x2120, 0x2124, 0x2128, 0x2130, 0x2138, 0x2200, 0x2208, 0x2210, 0x2214, 0x2300,
   0x2400, 0x2408, 0x2410, 0x2418, 0x2420, 0x2424, 0x2430, 0x2438, 0x2500, 0x2508, 0x250C, 0x2510, 0x2514, 0x2518,
   0x2600, 0x2608, 0x260C, 0x2610, 0x2618, 0x261C, 0x2700, 0x2704, 0x2708, 0x2710, 0x2714, 0x2800, 0x2804, 0x2808, 0x2810,
   0x3000, 0x3004, 0x3008, 0x3010, 0x3018]

/-- Whether an offset names a register. -/
def namesReg (off : Nat) : Bool :=
  regOffsets.contains off || (decide (0x3100 ≤ off) && decide (off < 0x31C0) && off % 4 == 0) ||
    (match queueReg off with
      | some x => [0x00, 0x08, 0x0C, 0x10, 0x14, 0x18, 0x20, 0x28, 0x2C].contains x.2
      | none => false)

/-- REGISTER_WRITE: a host write of a register. -/
def execRegisterWrite (offset : W32) (v : W64) (s : State) : Res :=
  if !namesReg offset.toNat then notDue s
  else match queueReg offset.toNat with
    | some x => s.writeQueue x.1 x.2 v
    | none => s.writeReg offset.toNat v

/-- Whether an offset names a register that can only be written: FRESOLVE, or SEGREL of a queue (spec 03 Table 3-5, 10 Table 10-6). -/
def writeOnly (off : Nat) : Bool := off == 0x2130 || (match queueReg off with
  | some x => x.2 == 0x2C
  | none => false)

/-- BAR0_UNMAPPED_ACCESS: a write to an offset that names no register is ignored, a read returns zero (spec 22 R425), as does a read of
a register that can only be written (spec 00 R5). -/
def execBar0UnmappedAccess (offset : W32) (write : Bool) (s : State) : Res :=
  if namesReg offset.toNat && (write || !writeOnly offset.toNat) then notDue s
  else .next (if write then s else s.hostReads 0)

end Sys2Proof.Machine
end

