-- ==== Sys2Proof/Machine/Scalar.lean ====
section
/-! DEFINITION. The scalar instructions of major 0x0B (spec 08 R168, R169): once per instance, no guard, no push. -/

namespace Sys2Proof.Machine

/-- A scalar instruction: s[SD] becomes a function of s[SA] and SB (spec 08 R168). -/
def scalarOp (f : FS) (m : Mods) (op : W64 → W64 → W64) (s : State) : Res :=
  withInst s fun c =>
    finishSeq c m 0 s (s.modGroup c.team c.group fun G => G.setS f.sd.toNat (op (G.sreg f.sa.toNat) (srcS G m f.sb)))

/-- SADD. -/
def execSadd (f : FS) (m : Mods) (s : State) : Res := scalarOp f m (· + ·) s
/-- SSUB. -/
def execSsub (f : FS) (m : Mods) (s : State) : Res := scalarOp f m (· - ·) s
/-- SMUL. -/
def execSmul (f : FS) (m : Mods) (s : State) : Res := scalarOp f m (· * ·) s
/-- SAND. -/
def execSand (f : FS) (m : Mods) (s : State) : Res := scalarOp f m (· &&& ·) s
/-- SOR. -/
def execSor (f : FS) (m : Mods) (s : State) : Res := scalarOp f m (· ||| ·) s
/-- SXOR. -/
def execSxor (f : FS) (m : Mods) (s : State) : Res := scalarOp f m (· ^^^ ·) s
/-- SSHL. -/
def execSshl (f : FS) (m : Mods) (s : State) : Res := scalarOp f m (fun a b => (ishl a b).1) s
/-- SSHR. -/
def execSshr (f : FS) (m : Mods) (s : State) : Res := scalarOp f m (fun a b => (ishr a b).1) s
/-- SCMP: the condition stands in SX[4:1]. -/
def execScmp (f : FS) (m : Mods) (s : State) : Res :=
  scalarOp f m (fun a b => if icond (f.sx.toNat / 2) a b then 1 else 0) s
/-- SMOV. -/
def execSmov (f : FS) (m : Mods) (s : State) : Res := scalarOp f m (fun _ b => b) s

end Sys2Proof.Machine
end

