-- ==== Sys2Proof/Machine/ScalarMem.lean ====
section
/-! DEFINITION. Scalar memory, major 0x29 (spec 11 R237): one access per instance, on group-uniform values. -/

namespace Sys2Proof.Machine

/-- The space that SX[4:3] names. -/
def scalarSpace (sx : BitVec 5) : Space :=
  match sx.toNat / 8 with
  | 1 => .scratch
  | 2 => .cluster
  | _ => .global

/-- The address of a scalar access. -/
def scalarAddr (G : Group) (f : FS) (m : Mods) : W64 := G.sreg f.sa.toNat + srcS G m f.sb + (immOf m).signExtend 64

/-- s[SD] after an access that returned a number, when it returns one. -/
def State.setScalar (s : State) (c : Inst) (f : FS) (v : Option Nat) : State :=
  match v with
  | none => s
  | some n => s.modGroup c.team c.group fun G => G.setS f.sd.toNat (BitVec.ofNat 64 n)

/-- A scalar access that no row traps: the whole instance parks, waits or is performed. -/
def scalarProceed (c : Inst) (m : Mods) (f : FS) (lead : Nat) (q : LaneReq) (x : LaneAcc)
    (perform : List (Nat × Bool) → State → State × Option Nat) (s : State) : Res :=
  let who := unitOf c lead
  if !x.pages.isEmpty || !x.lines.isEmpty then
    .next (s.parkLanes c ((maskLanes c.mask).map fun l => (l, x)) [])
  else if s.leavesCode c m 0 then finishSeq c m 0 (s.clearAnswers c.owns) s
  else
    let touch := match q.segs.head? with
      | some g => g.acc.touch
      | none => .read
    let r := s.reachAll who (s.gridOpt c.team) touch (keyRuns x.keys)
    let r := (r.1.nameRequests s.fab.nextTag (q.vas x.keys), r.2)
    let held := x.absentMate || q.segs.any fun g => s.segHeld c.team g
    if held || !r.2 || (sysRelease m && s.teamPending c.team) then .next ((if held then s else r.1).stall c)
    else
      let s0 := r.1.noteLeaves c [(lead, x)]
      let wide := q.segs.any fun g => match g.acc with
        | .atomic o => o.wide
        | _ => false
      let view := x.keys.foldl (fun s k => if s.isPeerKey k.1 then s.useAnswer who wide k.1 else s) s0
      let d := perform x.keys view
      match r.1.stillToSend d.1 with
      | some s' => .next (s'.stall c)
      | none => finishSeq c m 0 s (((d.1.unsee view s0 x.keys).setScalar c f d.2).clearAnswers c.owns)

/-- A scalar access of `n` bytes. (DEDUCED, log 49.) -/
def scalarMem (n : Nat) (acc : Group → Acc) (f : FS) (m : Mods)
    (perform : Inst → Group → List (Nat × Bool) → State → State × Option Nat) (s : State) : Res :=
  withInst s fun c =>
    let G := s.instGrp c
    let helpers := (maskLanes c.mask).all fun l => (G.lane l).helper
    match maskLanes c.mask with
    | [] => finishSeq c m 0 s s
    | lead :: _ =>
      if helpers && (acc G).writes then finishSeq c m 0 s s
      else
        let q := elemReq (scalarSpace f.sx) (acc G) n n n (scalarAddr G f m)
        -- no scalar form is 16 bytes wide, so a bank in FIFO mode never serves one
        let x := s.checkLane c lead q
        if !x.busy.isEmpty then .next ((s.recallLines x.busy).stall c)
        else match x.first with
        | some k =>
          if helpers then finishSeq c m 0 s (s.setScalar c f (some 0))
          else memTrap s c m (trapAddr k.cause lead k.reason k.aux k.addr c.mask)
        | none =>
          if helpers && !x.pages.isEmpty then finishSeq c m 0 s (s.setScalar c f (some 0))
          else scalarProceed c m f lead q x (perform c G) s

/-- SLD. -/
def scalarLoad (n : Nat) (f : FS) (m : Mods) (s : State) : Res :=
  scalarMem n (fun _ => .read) f m (fun _ _ ks s => (s, some (s.keysNat ks))) s

/-- SST. -/
def scalarStore (n : Nat) (f : FS) (m : Mods) (s : State) : Res :=
  scalarMem n (fun _ => .write) f m (fun c G ks s =>
    (s.storeCells (unitOf c ((maskLanes c.mask).headD 0)) (s.gridOpt c.team) (cellsOf ks (G.sreg f.sd.toNat).toNat), none)) s

/-- ATOMS: the operand stands in s[SD], which receives the old value. -/
def scalarAtom (wide : Bool) (op : AtomOp) (f : FS) (m : Mods) (s : State) : Res :=
  let pa (G : Group) : PeerAtomic :=
    ⟨op, wide, if wide then G.sreg f.sd.toNat else (G.sreg f.sd.toNat &&& 0xFFFFFFFF), 0⟩
  scalarMem (if wide then 8 else 4) (fun G => .atomic (pa G)) f m (fun c G ks s =>
    let r := s.atomAt (unitOf c ((maskLanes c.mask).headD 0)) (s.gridOpt c.team) (pa G) ks
    (r.1, some r.2.1)) s

/-- SLD.b32. -/
def execSldB32 (f : FS) (m : Mods) (s : State) : Res := scalarLoad 4 f m s
/-- SLD.b64. -/
def execSldB64 (f : FS) (m : Mods) (s : State) : Res := scalarLoad 8 f m s
/-- SST.b32. -/
def execSstB32 (f : FS) (m : Mods) (s : State) : Res := scalarStore 4 f m s
/-- SST.b64. -/
def execSstB64 (f : FS) (m : Mods) (s : State) : Res := scalarStore 8 f m s
/-- ATOMS.add.b32. -/
def execAtomsAddB32 (f : FS) (m : Mods) (s : State) : Res := scalarAtom false .add f m s
/-- ATOMS.max.n32. -/
def execAtomsMaxN32 (f : FS) (m : Mods) (s : State) : Res := scalarAtom false .maxN f m s
/-- ATOMS.exch.b32. -/
def execAtomsExchB32 (f : FS) (m : Mods) (s : State) : Res := scalarAtom false .exch f m s
/-- ATOMS.add.b64. -/
def execAtomsAddB64 (f : FS) (m : Mods) (s : State) : Res := scalarAtom true .add f m s
/-- ATOMS.max.n64. -/
def execAtomsMaxN64 (f : FS) (m : Mods) (s : State) : Res := scalarAtom true .maxN f m s
/-- ATOMS.exch.b64. -/
def execAtomsExchB64 (f : FS) (m : Mods) (s : State) : Res := scalarAtom true .exch f m s

end Sys2Proof.Machine
end

