-- ==== Sys2Proof/Machine/System.lean ====
section
/-! DEFINITION. The system instructions of major 0x00: TRAP, ERET, BKPT, YIELD, SYSRD, SYSWR (spec 20 R405-R410) and SREAD
(spec 08 R166, R167). -/

namespace Sys2Proof.Machine

/-! ## TRAP, BKPT, ERET, YIELD -/

/-- TRAP and BKPT: the instance retires, and the group takes a trap whose EPCs name the next word (spec 20 R408). -/
def retireAndTrap (cause : Nat) (f : FY) (m : Mods) (s : State) : Res :=
  withInst s fun c =>
    let G := s.instGrp c
    let n := afterUnit c.pc m
    match electLane G c.mask with
    | none => finishSeq c m 0 s s
    | some e =>
      if decide ((s.instKernel c).codeSize ≤ n.toNat) then finishSeq c m 0 s s
      else
        let s1 := s.modGroup c.team c.group fun G => G.mapLanes fun l L =>
          if c.mask.getLsbD l then { L with pc := n, stall := none } else L
        .next (s1.instTrap c m (trapAddr cause e 0 f.n.toNat (src G m e f.a .b64) c.mask))

/-- TRAP n, a. -/
def execTrap (f : FY) (m : Mods) (s : State) : Res := retireAndTrap 18 f m s

/-- BKPT n, a: a NOP under TRAPCTL.BKIGN. -/
def execBkpt (f : FY) (m : Mods) (s : State) : Res :=
  withInst s fun c =>
    if (s.instGrp c).trapCtl.getLsbD 1 then finishSeq c m 0 s s else retireAndTrap 19 f m s

/-- ERET: the lanes of the instance wait until every lane of HMASK has come here or exited (spec 20 R405). (DEDUCED, log 21.) -/
def execEret (_ : FY) (m : Mods) (s : State) : Res :=
  withInst s fun c =>
    let G := s.instGrp c
    if G.inh then
      let s1 := s.modGroup c.team c.group fun G => G.mapLanes fun l L =>
        if c.mask.getLsbD l then { L with status := .eret, stall := none, bad := [] } else L
      .next (s1.tryLeave c.team c.group)
    else
      match electLane G c.mask with
      | none => finishSeq c m 0 s s
      | some _ => trapRes s c m (trapOf 7 ((maskLanes c.mask).headD 0) 12 0 0 0 c.mask)

/-- YIELD n: the lanes go on, and issue no word before the core's cycle counter has advanced by 16 n (spec 20 R410). -/
def execYield (f : FY) (m : Mods) (s : State) : Res :=
  withInst s fun c =>
    let t := s.lookCycles (s.team c.team).core
    finishSeq c m 0 s (t.2.modGroup c.team c.group fun G => G.mapLanes fun l L =>
      if c.mask.getLsbD l then { L with status := .yielding (t.1.toNat + 16 * f.n.toNat) } else L)

/-! ## System registers (spec 20 Table 20-1) -/

/-- The value of system register `n` in a lane, 64 bits wide for TRAPPC and TAPEDESC. -/
def State.sysReg (s : State) (c : Inst) (G : Group) (l n : Nat) : W64 :=
  let z (v : W32) : W64 := v.zeroExtend 64
  match n with
  | 0 => z G.trapCause
  | 1 => z G.trapD0
  | 2 => z G.trapD1
  | 3 => z G.trapD2
  | 4 => G.trapPc
  | 5 => z G.trapMask
  | 6 => z (G.lane l).epc
  | 7 => z G.nextPc
  | 8 => z G.hmask
  | 9 => z G.parkMask
  | 10 => z G.waitMask
  | 11 => z G.trapCtl
  | 12 => (s.team c.team).tapeDesc
  | 13 => z G.context
  | _ => 0

/-- Whether a system register is 64 bits wide. -/
def sysWide (n : Nat) : Bool := n == 4 || n == 12

/-- A launch or system value as a lane receives it. -/
def wordOut (wide : Bool) (d : BitVec 6) (v : W64) : LaneOut :=
  if wide then out64 d v else out32 d (v.extractLsb' 0 32)

/-- SYSRD d, reg. -/
def execSysrd (f : FY) (m : Mods) (s : State) : Res :=
  withInst s fun c =>
    valueOp m 0 (fun G l => wordOut (sysWide f.n.toNat) f.d (s.sysReg c G l f.n.toNat)) s

/-- SYSWR reg, a: EPC in each lane and only in handler mode; TRAPCTL and TAPEDESC with the value of the elected lane; every
other register is read-only and the write ignored (spec 20 R409). (DEDUCED, log 24.) -/
def execSyswr (f : FY) (m : Mods) (s : State) : Res :=
  withInst s fun c =>
    let G := s.instGrp c
    let lead := electLane G c.mask
    finishSeq c m 0 s (
      match f.n.toNat, lead with
      | 6, _ =>
        if G.inh then s.modGroup c.team c.group fun G => G.mapLanes fun l L =>
          if c.mask.getLsbD l then { L with epc := src32 G m l f.a } else L
        else s
      | 11, some e => s.modGroup c.team c.group fun G' => { G' with trapCtl := src32 G m e f.a &&& 3 }
      | 12, some e => s.modTeam c.team fun T => { T with tapeDesc := BitVec.ofNat 64 ((src G m e f.a .b64).toNat % 2 ^ 57) }
      | _, _ => s)

/-! ## SREAD (spec 08 Table 8-4) -/

/-- Whether a launch value is 64 bits wide. -/
def sreadWide (n : Nat) : Bool := n == 10 || n == 15 || n == 16 || n == 24 || n == 25 || n == 27

/-- A launch or lane value that no clock gives. -/
def State.sreadValue (s : State) (c : Inst) (G : Group) (l n : Nat) : W64 :=
  let T := s.team c.team
  let g := s.grid T.grid
  let K := g.kernel
  let x := max g.par.gx 1
  let y := max g.par.gy 1
  let v : Nat := match n with
    | 0 => l
    | 1 => c.group
    | 2 => T.idx
    | 3 => T.idx % x
    | 4 => T.idx / x % y
    | 5 => T.idx / x / y
    | 6 => g.par.gx
    | 7 => g.par.gy
    | 8 => g.par.gz
    | 9 => K.groups
    | 10 => s.lid c.team c.group l
    | 11 => T.core
    | 12 => T.core / 8
    | 13 => T.idx % max K.setSize 1
    | 14 => K.setSize
    | 15 => K.args.toNat
    | 16 => g.par.seed.toNat
    | 17 => g.rung
    | 18 => if (G.lane l).helper then 1 else 0
    | 19 => (G.lane l).pixX.toNat
    | 20 => (G.lane l).pixY.toNat
    | 21 => K.regs
    | 22 => K.scratch
    | 23 => s.peerNo
    | 26 => T.epoch
    | 27 => K.kid.toNat
    | 28 => K.acc
    | _ => 0
  BitVec.ofNat 64 v

/-- SREAD d, name: TIME and CYCLES are sampled once for the instance (spec 08 R167). -/
def execSread (f : FY) (m : Mods) (s : State) : Res :=
  withInst s fun c =>
    let n := f.n.toNat
    let give (v : Group → Nat → W64) (s : State) : Res := valueOp m 0 (fun G l => wordOut (sreadWide n) f.d (v G l)) s
    if n = 24 then
      let t := s.lookTime
      give (fun _ _ => t.1) t.2
    else if n = 25 then
      let t := s.lookCycles (s.team c.team).core
      give (fun _ _ => t.1) t.2
    else give (fun G l => s.sreadValue c G l n) s

end Sys2Proof.Machine
end

