-- ==== Sys2Proof/Machine/Dispatch.lean ====
section
/-! DEFINITION. One arm per row of the opcode table. -/

namespace Sys2Proof.Machine

/-- The meaning of an instruction or event. -/
def exec (i : Instr) (s : State) : Host.Outcome State Fault Refusal :=
  match i with
  | .qwriteWrite q v => Sys2Proof.Machine.execQwriteWrite q v s
  | .queueDisable q v => Sys2Proof.Machine.execQueueDisable q v s
  | .segrelGo q v => Sys2Proof.Machine.execSegrelGo q v s
  | .readLaunchPacket q => Sys2Proof.Machine.execReadLaunchPacket q s
  | .beginDispatch => Sys2Proof.Machine.execBeginDispatch s
  | .dispatchTeam grid => Sys2Proof.Machine.execDispatchTeam grid s
  | .releaseTimeReached grid => Sys2Proof.Machine.execReleaseTimeReached grid s
  | .deadlineReached grid => Sys2Proof.Machine.execDeadlineReached grid s
  | .deadlinePreemptRequest grid => Sys2Proof.Machine.execDeadlinePreemptRequest grid s
  | .replayLaunchPacket replay => Sys2Proof.Machine.execReplayLaunchPacket replay s
  | .gridComplete grid => Sys2Proof.Machine.execGridComplete grid s
  | .teamEnd team => Sys2Proof.Machine.execTeamEnd team s
  | .fetchPacket => Sys2Proof.Machine.execFetchPacket s
  | .groupSwitchIn team group => Sys2Proof.Machine.execGroupSwitchIn team group s
  | .asyncTrapDelivery team group => Sys2Proof.Machine.execAsyncTrapDelivery team group s
  | .syncTimeout team group lane => Sys2Proof.Machine.execSyncTimeout team group lane s
  | .yieldExpire team group lane => Sys2Proof.Machine.execYieldExpire team group lane s
  | .faultRecordDeliver => Sys2Proof.Machine.execFaultRecordDeliver s
  | .fqreadWrite v => Sys2Proof.Machine.execFqreadWrite v s
  | .fqbaseWrite v => Sys2Proof.Machine.execFqbaseWrite v s
  | .fresolveMapped handle => Sys2Proof.Machine.execFresolveMapped handle s
  | .fresolveUnresolvable handle => Sys2Proof.Machine.execFresolveUnresolvable handle s
  | .invcmdPage ctx => Sys2Proof.Machine.execInvcmdPage ctx s
  | .invcmdContext ctx => Sys2Proof.Machine.execInvcmdContext ctx s
  | .invcmdAll ctx => Sys2Proof.Machine.execInvcmdAll ctx s
  | .invalidationDone => Sys2Proof.Machine.execInvalidationDone s
  | .migreqGo v => Sys2Proof.Machine.execMigreqGo v s
  | .holdExpire ctx page => Sys2Proof.Machine.execHoldExpire ctx page s
  | .fabricReadShared line => Sys2Proof.Machine.execFabricReadShared line s
  | .fabricReadExclusive line => Sys2Proof.Machine.execFabricReadExclusive line s
  | .fabricUpgrade line => Sys2Proof.Machine.execFabricUpgrade line s
  | .fabricWriteback line => Sys2Proof.Machine.execFabricWriteback line s
  | .fabricEvictNotice line => Sys2Proof.Machine.execFabricEvictNotice line s
  | .fabricInvalidate line => Sys2Proof.Machine.execFabricInvalidate line s
  | .fabricRecall line => Sys2Proof.Machine.execFabricRecall line s
  | .fabricInvalAck peer line data => Sys2Proof.Machine.execFabricInvalAck peer line data s
  | .fabricAtomic op addr => Sys2Proof.Machine.execFabricAtomic op addr s
  | .fabricResponse tag answer => Sys2Proof.Machine.execFabricResponse tag answer s
  | .fabricTimeout tag => Sys2Proof.Machine.execFabricTimeout tag s
  | .fabricRequestArrival src tag reissued req => Sys2Proof.Machine.execFabricRequestArrival src tag reissued req s
  | .flowPause port vc => Sys2Proof.Machine.execFlowPause port vc s
  | .flowResume port vc => Sys2Proof.Machine.execFlowResume port vc s
  | .replayEvent port badGroup => Sys2Proof.Machine.execReplayEvent port badGroup s
  | .linkNak port seq => Sys2Proof.Machine.execLinkNak port seq s
  | .linkAck port seq => Sys2Proof.Machine.execLinkAck port seq s
  | .laneLoss port lane => Sys2Proof.Machine.execLaneLoss port lane s
  | .linkRetrainDone port => Sys2Proof.Machine.execLinkRetrainDone port s
  | .keyInstall port => Sys2Proof.Machine.execKeyInstall port s
  | .keyClearFlit port => Sys2Proof.Machine.execKeyClearFlit port s
  | .linkTraining port partner compat lanes => Sys2Proof.Machine.execLinkTraining port partner compat lanes s
  | .routedataWrite v => Sys2Proof.Machine.execRoutedataWrite v s
  | .matrixOpStart team tile => Sys2Proof.Machine.execMatrixOpStart team tile s
  | .matrixKgroup team tile => Sys2Proof.Machine.execMatrixKgroup team tile s
  | .mloadRow team tile => Sys2Proof.Machine.execMloadRow team tile s
  | .drainBlock team tile => Sys2Proof.Machine.execDrainBlock team tile s
  | .updateBlock team tile => Sys2Proof.Machine.execUpdateBlock team tile s
  | .cardItemStart card => Sys2Proof.Machine.execCardItemStart card s
  | .cardLineWrite card => Sys2Proof.Machine.execCardLineWrite card s
  | .cardItemEnd card => Sys2Proof.Machine.execCardItemEnd card s
  | .rasterWalk card => Sys2Proof.Machine.execRasterWalk card s
  | .vertexGradientContrib team group => Sys2Proof.Machine.execVertexGradientContrib team group s
  | .edgeSample card => Sys2Proof.Machine.execEdgeSample card s
  | .vaccmdGo v => Sys2Proof.Machine.execVaccmdGo v s
  | .vacate => Sys2Proof.Machine.execVacate s
  | .ctxcmdGo v => Sys2Proof.Machine.execCtxcmdGo v s
  | .eccCorrection reason unitNo addr consumer => Sys2Proof.Machine.execEccCorrection reason unitNo addr consumer s
  | .poisonLine key reason unitNo => Sys2Proof.Machine.execPoisonLine key reason unitNo s
  | .stateError err => Sys2Proof.Machine.execStateError err s
  | .deviceError touched => Sys2Proof.Machine.execDeviceError touched s
  | .deviceReset => Sys2Proof.Machine.execDeviceReset s
  | .powerOnReset => Sys2Proof.Machine.execPowerOnReset s
  | .fwcmdGo => Sys2Proof.Machine.execFwcmdGo s
  | .fwcmdReset => Sys2Proof.Machine.execFwcmdReset s
  | .spdmGetMeasurements index => Sys2Proof.Machine.execSpdmGetMeasurements index s
  | .spdmChallenge nonce => Sys2Proof.Machine.execSpdmChallenge nonce s
  | .spdmSecuredSession msg => Sys2Proof.Machine.execSpdmSecuredSession msg s
  | .fabricBringup peer attested => Sys2Proof.Machine.execFabricBringup peer attested s
  | .bar2Access addr len data => Sys2Proof.Machine.execBar2Access addr len data s
  | .bar0UnmappedAccess offset write => Sys2Proof.Machine.execBar0UnmappedAccess offset write s
  | .ptpMessage offset => Sys2Proof.Machine.execPtpMessage offset s
  | .ptmRequest => Sys2Proof.Machine.execPtmRequest s
  | .ppsEdge => Sys2Proof.Machine.execPpsEdge s
  | .holdoverTimeout => Sys2Proof.Machine.execHoldoverTimeout s
  | .ppsLossTimeout => Sys2Proof.Machine.execPpsLossTimeout s
  | .timectlSrcWrite v => Sys2Proof.Machine.execTimectlSrcWrite v s
  | .powerPredict watts => Sys2Proof.Machine.execPowerPredict watts s
  | .powerRestoreStep watts => Sys2Proof.Machine.execPowerRestoreStep watts s
  | .thermal105 island => Sys2Proof.Machine.execThermal105 island s
  | .thermal115 => Sys2Proof.Machine.execThermal115 s
  | .ellostRead => Sys2Proof.Machine.execEllostRead s
  | .ppscountRead => Sys2Proof.Machine.execPpscountRead s
  | .pwrcapnsRead => Sys2Proof.Machine.execPwrcapnsRead s
  | .portstatRead port => Sys2Proof.Machine.execPortstatRead port s
  | .registerWrite offset v => Sys2Proof.Machine.execRegisterWrite offset v s
  | .contextEnd ctx => Sys2Proof.Machine.execContextEnd ctx s
  | .cardReltimeReached card => Sys2Proof.Machine.execCardReltimeReached card s
  | .bulkPrefetchLine prefetch => Sys2Proof.Machine.execBulkPrefetchLine prefetch s
  | .ptmResponse granted offset => Sys2Proof.Machine.execPtmResponse granted offset s
  | .firmwareUpdateDone => Sys2Proof.Machine.execFirmwareUpdateDone s
  | .powerLoss => Sys2Proof.Machine.execPowerLoss s
  | .nop f m => Sys2Proof.Machine.execNop f m s
  | .hint h f m => Sys2Proof.Machine.execHint h f m s
  | .trap f m => Sys2Proof.Machine.execTrap f m s
  | .eret f m => Sys2Proof.Machine.execEret f m s
  | .bkpt f m => Sys2Proof.Machine.execBkpt f m s
  | .yield f m => Sys2Proof.Machine.execYield f m s
  | .sysrd f m => Sys2Proof.Machine.execSysrd f m s
  | .syswr f m => Sys2Proof.Machine.execSyswr f m s
  | .sread f m => Sys2Proof.Machine.execSread f m s
  | .regn f m => Sys2Proof.Machine.execRegn f m s
  | .iaddS32 f m => Sys2Proof.Machine.execIaddS32 f m s
  | .isubS32 f m => Sys2Proof.Machine.execIsubS32 f m s
  | .imulS32 f m => Sys2Proof.Machine.execImulS32 f m s
  | .imulhS32 f m => Sys2Proof.Machine.execImulhS32 f m s
  | .idivS32 f m => Sys2Proof.Machine.execIdivS32 f m s
  | .iremS32 f m => Sys2Proof.Machine.execIremS32 f m s
  | .iminS32 f m => Sys2Proof.Machine.execIminS32 f m s
  | .imaxS32 f m => Sys2Proof.Machine.execImaxS32 f m s
  | .iabsS32 f m => Sys2Proof.Machine.execIabsS32 f m s
  | .inegS32 f m => Sys2Proof.Machine.execInegS32 f m s
  | .shlS32 f m => Sys2Proof.Machine.execShlS32 f m s
  | .shrS32 f m => Sys2Proof.Machine.execShrS32 f m s
  | .sarS32 f m => Sys2Proof.Machine.execSarS32 f m s
  | .popcS32 f m => Sys2Proof.Machine.execPopcS32 f m s
  | .clzS32 f m => Sys2Proof.Machine.execClzS32 f m s
  | .brevS32 f m => Sys2Proof.Machine.execBrevS32 f m s
  | .iaddN32 f m => Sys2Proof.Machine.execIaddN32 f m s
  | .isubN32 f m => Sys2Proof.Machine.execIsubN32 f m s
  | .imulN32 f m => Sys2Proof.Machine.execImulN32 f m s
  | .imulhN32 f m => Sys2Proof.Machine.execImulhN32 f m s
  | .idivN32 f m => Sys2Proof.Machine.execIdivN32 f m s
  | .iremN32 f m => Sys2Proof.Machine.execIremN32 f m s
  | .iminN32 f m => Sys2Proof.Machine.execIminN32 f m s
  | .imaxN32 f m => Sys2Proof.Machine.execImaxN32 f m s
  | .inegN32 f m => Sys2Proof.Machine.execInegN32 f m s
  | .shlN32 f m => Sys2Proof.Machine.execShlN32 f m s
  | .shrN32 f m => Sys2Proof.Machine.execShrN32 f m s
  | .popcN32 f m => Sys2Proof.Machine.execPopcN32 f m s
  | .clzN32 f m => Sys2Proof.Machine.execClzN32 f m s
  | .brevN32 f m => Sys2Proof.Machine.execBrevN32 f m s
  | .iaddS64 f m => Sys2Proof.Machine.execIaddS64 f m s
  | .isubS64 f m => Sys2Proof.Machine.execIsubS64 f m s
  | .imulS64 f m => Sys2Proof.Machine.execImulS64 f m s
  | .imulhS64 f m => Sys2Proof.Machine.execImulhS64 f m s
  | .idivS64 f m => Sys2Proof.Machine.execIdivS64 f m s
  | .iremS64 f m => Sys2Proof.Machine.execIremS64 f m s
  | .iminS64 f m => Sys2Proof.Machine.execIminS64 f m s
  | .imaxS64 f m => Sys2Proof.Machine.execImaxS64 f m s
  | .iabsS64 f m => Sys2Proof.Machine.execIabsS64 f m s
  | .inegS64 f m => Sys2Proof.Machine.execInegS64 f m s
  | .shlS64 f m => Sys2Proof.Machine.execShlS64 f m s
  | .shrS64 f m => Sys2Proof.Machine.execShrS64 f m s
  | .sarS64 f m => Sys2Proof.Machine.execSarS64 f m s
  | .popcS64 f m => Sys2Proof.Machine.execPopcS64 f m s
  | .clzS64 f m => Sys2Proof.Machine.execClzS64 f m s
  | .brevS64 f m => Sys2Proof.Machine.execBrevS64 f m s
  | .iaddN64 f m => Sys2Proof.Machine.execIaddN64 f m s
  | .isubN64 f m => Sys2Proof.Machine.execIsubN64 f m s
  | .imulN64 f m => Sys2Proof.Machine.execImulN64 f m s
  | .imulhN64 f m => Sys2Proof.Machine.execImulhN64 f m s
  | .idivN64 f m => Sys2Proof.Machine.execIdivN64 f m s
  | .iremN64 f m => Sys2Proof.Machine.execIremN64 f m s
  | .iminN64 f m => Sys2Proof.Machine.execIminN64 f m s
  | .imaxN64 f m => Sys2Proof.Machine.execImaxN64 f m s
  | .inegN64 f m => Sys2Proof.Machine.execInegN64 f m s
  | .shlN64 f m => Sys2Proof.Machine.execShlN64 f m s
  | .shrN64 f m => Sys2Proof.Machine.execShrN64 f m s
  | .popcN64 f m => Sys2Proof.Machine.execPopcN64 f m s
  | .clzN64 f m => Sys2Proof.Machine.execClzN64 f m s
  | .brevN64 f m => Sys2Proof.Machine.execBrevN64 f m s
  | .iaddS16X2 f m => Sys2Proof.Machine.execIaddS16X2 f m s
  | .isubS16X2 f m => Sys2Proof.Machine.execIsubS16X2 f m s
  | .imulS16X2 f m => Sys2Proof.Machine.execImulS16X2 f m s
  | .iminS16X2 f m => Sys2Proof.Machine.execIminS16X2 f m s
  | .imaxS16X2 f m => Sys2Proof.Machine.execImaxS16X2 f m s
  | .iminN16X2 f m => Sys2Proof.Machine.execIminN16X2 f m s
  | .imaxN16X2 f m => Sys2Proof.Machine.execImaxN16X2 f m s
  | .iabsS16X2 f m => Sys2Proof.Machine.execIabsS16X2 f m s
  | .inegS16X2 f m => Sys2Proof.Machine.execInegS16X2 f m s
  | .shlB16X2 f m => Sys2Proof.Machine.execShlB16X2 f m s
  | .shrB16X2 f m => Sys2Proof.Machine.execShrB16X2 f m s
  | .sarS16X2 f m => Sys2Proof.Machine.execSarS16X2 f m s
  | .icmp32 cond f m => Sys2Proof.Machine.execIcmp32 cond f m s
  | .icmp64 cond f m => Sys2Proof.Machine.execIcmp64 cond f m s
  | .movB32 f m => Sys2Proof.Machine.execMovB32 f m s
  | .movB64 f m => Sys2Proof.Machine.execMovB64 f m s
  | .movsB32 f m => Sys2Proof.Machine.execMovsB32 f m s
  | .movsB64 f m => Sys2Proof.Machine.execMovsB64 f m s
  | .mvrd f m => Sys2Proof.Machine.execMvrd f m s
  | .leaSh0 f m => Sys2Proof.Machine.execLeaSh0 f m s
  | .leaSh1 f m => Sys2Proof.Machine.execLeaSh1 f m s
  | .leaSh2 f m => Sys2Proof.Machine.execLeaSh2 f m s
  | .leaSh3 f m => Sys2Proof.Machine.execLeaSh3 f m s
  | .bfxS32 f m => Sys2Proof.Machine.execBfxS32 f m s
  | .bfxN32 f m => Sys2Proof.Machine.execBfxN32 f m s
  | .bfxS64 f m => Sys2Proof.Machine.execBfxS64 f m s
  | .bfxN64 f m => Sys2Proof.Machine.execBfxN64 f m s
  | .imadS32 f m => Sys2Proof.Machine.execImadS32 f m s
  | .imadN32 f m => Sys2Proof.Machine.execImadN32 f m s
  | .imadS64 f m => Sys2Proof.Machine.execImadS64 f m s
  | .imadN64 f m => Sys2Proof.Machine.execImadN64 f m s
  | .logic3B32 f m => Sys2Proof.Machine.execLogic3B32 f m s
  | .logic3B64 f m => Sys2Proof.Machine.execLogic3B64 f m s
  | .fshfLB32 f m => Sys2Proof.Machine.execFshfLB32 f m s
  | .fshfRB32 f m => Sys2Proof.Machine.execFshfRB32 f m s
  | .bfiB32 f m => Sys2Proof.Machine.execBfiB32 f m s
  | .bfiB64 f m => Sys2Proof.Machine.execBfiB64 f m s
  | .selB32 f m => Sys2Proof.Machine.execSelB32 f m s
  | .selB64 f m => Sys2Proof.Machine.execSelB64 f m s
  | .mvwr f m => Sys2Proof.Machine.execMvwr f m s
  | .plogic f m => Sys2Proof.Machine.execPlogic f m s
  | .voteAny f m => Sys2Proof.Machine.execVoteAny f m s
  | .voteAll f m => Sys2Proof.Machine.execVoteAll f m s
  | .voteBallot f m => Sys2Proof.Machine.execVoteBallot f m s
  | .sadd f m => Sys2Proof.Machine.execSadd f m s
  | .ssub f m => Sys2Proof.Machine.execSsub f m s
  | .smul f m => Sys2Proof.Machine.execSmul f m s
  | .sand f m => Sys2Proof.Machine.execSand f m s
  | .sor f m => Sys2Proof.Machine.execSor f m s
  | .sxor f m => Sys2Proof.Machine.execSxor f m s
  | .sshl f m => Sys2Proof.Machine.execSshl f m s
  | .sshr f m => Sys2Proof.Machine.execSshr f m s
  | .scmp f m => Sys2Proof.Machine.execScmp f m s
  | .smov f m => Sys2Proof.Machine.execSmov f m s
  | .br f m => Sys2Proof.Machine.execBr f m s
  | .brsZ f m => Sys2Proof.Machine.execBrsZ f m s
  | .brsNz f m => Sys2Proof.Machine.execBrsNz f m s
  | .call f m => Sys2Proof.Machine.execCall f m s
  | .ret f m => Sys2Proof.Machine.execRet f m s
  | .enrol f m => Sys2Proof.Machine.execEnrol f m s
  | .rejoin f m => Sys2Proof.Machine.execRejoin f m s
  | .exit f m => Sys2Proof.Machine.execExit f m s
  | .jmpi f m => Sys2Proof.Machine.execJmpi f m s
  | .faddF32 f m => Sys2Proof.Machine.execFaddF32 f m s
  | .fsubF32 f m => Sys2Proof.Machine.execFsubF32 f m s
  | .fmulF32 f m => Sys2Proof.Machine.execFmulF32 f m s
  | .fminF32 f m => Sys2Proof.Machine.execFminF32 f m s
  | .fmaxF32 f m => Sys2Proof.Machine.execFmaxF32 f m s
  | .frndF32 f m => Sys2Proof.Machine.execFrndF32 f m s
  | .fclassF32 f m => Sys2Proof.Machine.execFclassF32 f m s
  | .faddF64 f m => Sys2Proof.Machine.execFaddF64 f m s
  | .fsubF64 f m => Sys2Proof.Machine.execFsubF64 f m s
  | .fmulF64 f m => Sys2Proof.Machine.execFmulF64 f m s
  | .fminF64 f m => Sys2Proof.Machine.execFminF64 f m s
  | .fmaxF64 f m => Sys2Proof.Machine.execFmaxF64 f m s
  | .frndF64 f m => Sys2Proof.Machine.execFrndF64 f m s
  | .fclassF64 f m => Sys2Proof.Machine.execFclassF64 f m s
  | .faddF16X2 f m => Sys2Proof.Machine.execFaddF16X2 f m s
  | .fsubF16X2 f m => Sys2Proof.Machine.execFsubF16X2 f m s
  | .fmulF16X2 f m => Sys2Proof.Machine.execFmulF16X2 f m s
  | .fminF16X2 f m => Sys2Proof.Machine.execFminF16X2 f m s
  | .fmaxF16X2 f m => Sys2Proof.Machine.execFmaxF16X2 f m s
  | .frndF16X2 f m => Sys2Proof.Machine.execFrndF16X2 f m s
  | .faddBf16X2 f m => Sys2Proof.Machine.execFaddBf16X2 f m s
  | .fsubBf16X2 f m => Sys2Proof.Machine.execFsubBf16X2 f m s
  | .fmulBf16X2 f m => Sys2Proof.Machine.execFmulBf16X2 f m s
  | .fminBf16X2 f m => Sys2Proof.Machine.execFminBf16X2 f m s
  | .fmaxBf16X2 f m => Sys2Proof.Machine.execFmaxBf16X2 f m s
  | .frndBf16X2 f m => Sys2Proof.Machine.execFrndBf16X2 f m s
  | .ffmaF32 f m => Sys2Proof.Machine.execFfmaF32 f m s
  | .ffmaF64 f m => Sys2Proof.Machine.execFfmaF64 f m s
  | .ffmaF16X2 f m => Sys2Proof.Machine.execFfmaF16X2 f m s
  | .ffmaBf16X2 f m => Sys2Proof.Machine.execFfmaBf16X2 f m s
  | .fcmpF32 cond f m => Sys2Proof.Machine.execFcmpF32 cond f m s
  | .fcmpF64 cond f m => Sys2Proof.Machine.execFcmpF64 cond f m s
  | .fdivF32 f m => Sys2Proof.Machine.execFdivF32 f m s
  | .fsqrtF32 f m => Sys2Proof.Machine.execFsqrtF32 f m s
  | .frcpF32 f m => Sys2Proof.Machine.execFrcpF32 f m s
  | .frsqF32 f m => Sys2Proof.Machine.execFrsqF32 f m s
  | .fexp2F32 f m => Sys2Proof.Machine.execFexp2F32 f m s
  | .flog2F32 f m => Sys2Proof.Machine.execFlog2F32 f m s
  | .fsinF32 f m => Sys2Proof.Machine.execFsinF32 f m s
  | .fcosF32 f m => Sys2Proof.Machine.execFcosF32 f m s
  | .fdivF64 f m => Sys2Proof.Machine.execFdivF64 f m s
  | .fsqrtF64 f m => Sys2Proof.Machine.execFsqrtF64 f m s
  | .frcpF64 f m => Sys2Proof.Machine.execFrcpF64 f m s
  | .frsqF64 f m => Sys2Proof.Machine.execFrsqF64 f m s
  | .cvt from4 f m => Sys2Proof.Machine.execCvt from4 f m s
  | .cvtsr from4 f m => Sys2Proof.Machine.execCvtsr from4 f m s
  | .cvtmxMxe4m3F32 f m => Sys2Proof.Machine.execCvtmxMxe4m3F32 f m s
  | .cvtmxMxe5m2F32 f m => Sys2Proof.Machine.execCvtmxMxe5m2F32 f m s
  | .cvtmxMxe2m1F32 f m => Sys2Proof.Machine.execCvtmxMxe2m1F32 f m s
  | .cvtmxMxe4m3Bf16 f m => Sys2Proof.Machine.execCvtmxMxe4m3Bf16 f m s
  | .cvtmxMxe5m2Bf16 f m => Sys2Proof.Machine.execCvtmxMxe5m2Bf16 f m s
  | .cvtmxMxe2m1Bf16 f m => Sys2Proof.Machine.execCvtmxMxe2m1Bf16 f m s
  | .expandE4m3I4 f m => Sys2Proof.Machine.execExpandE4m3I4 f m s
  | .expandE4m3E2m3 f m => Sys2Proof.Machine.execExpandE4m3E2m3 f m s
  | .expandE4m3E3m2 f m => Sys2Proof.Machine.execExpandE4m3E3m2 f m s
  | .expandE5m2E3m2 f m => Sys2Proof.Machine.execExpandE5m2E3m2 f m s
  | .blkscaleMxe4m3 f m => Sys2Proof.Machine.execBlkscaleMxe4m3 f m s
  | .blkscaleMxe5m2 f m => Sys2Proof.Machine.execBlkscaleMxe5m2 f m s
  | .blkscaleMxe2m1 f m => Sys2Proof.Machine.execBlkscaleMxe2m1 f m s
  | .shflIdxB32 f m => Sys2Proof.Machine.execShflIdxB32 f m s
  | .shflUpB32 f m => Sys2Proof.Machine.execShflUpB32 f m s
  | .shflDownB32 f m => Sys2Proof.Machine.execShflDownB32 f m s
  | .shflXorB32 f m => Sys2Proof.Machine.execShflXorB32 f m s
  | .qswapHB32 f m => Sys2Proof.Machine.execQswapHB32 f m s
  | .qswapVB32 f m => Sys2Proof.Machine.execQswapVB32 f m s
  | .qswapDB32 f m => Sys2Proof.Machine.execQswapDB32 f m s
  | .qbcastB32 f m => Sys2Proof.Machine.execQbcastB32 f m s
  | .qderivXFineF32 f m => Sys2Proof.Machine.execQderivXFineF32 f m s
  | .qderivYFineF32 f m => Sys2Proof.Machine.execQderivYFineF32 f m s
  | .qderivXCoarseF32 f m => Sys2Proof.Machine.execQderivXCoarseF32 f m s
  | .qderivYCoarseF32 f m => Sys2Proof.Machine.execQderivYCoarseF32 f m s
  | .flagrd f m => Sys2Proof.Machine.execFlagrd f m s
  | .flagclr f m => Sys2Proof.Machine.execFlagclr f m s
  | .shflIdxB64 f m => Sys2Proof.Machine.execShflIdxB64 f m s
  | .shflUpB64 f m => Sys2Proof.Machine.execShflUpB64 f m s
  | .shflDownB64 f m => Sys2Proof.Machine.execShflDownB64 f m s
  | .shflXorB64 f m => Sys2Proof.Machine.execShflXorB64 f m s
  | .qswapHB64 f m => Sys2Proof.Machine.execQswapHB64 f m s
  | .qswapVB64 f m => Sys2Proof.Machine.execQswapVB64 f m s
  | .qswapDB64 f m => Sys2Proof.Machine.execQswapDB64 f m s
  | .qbcastB64 f m => Sys2Proof.Machine.execQbcastB64 f m s
  | .qderivXFineF64 f m => Sys2Proof.Machine.execQderivXFineF64 f m s
  | .qderivYFineF64 f m => Sys2Proof.Machine.execQderivYFineF64 f m s
  | .qderivXCoarseF64 f m => Sys2Proof.Machine.execQderivXCoarseF64 f m s
  | .qderivYCoarseF64 f m => Sys2Proof.Machine.execQderivYCoarseF64 f m s
  | .gredSumF32 f m => Sys2Proof.Machine.execGredSumF32 f m s
  | .gredMinF32 f m => Sys2Proof.Machine.execGredMinF32 f m s
  | .gredMaxF32 f m => Sys2Proof.Machine.execGredMaxF32 f m s
  | .gredSumS32 f m => Sys2Proof.Machine.execGredSumS32 f m s
  | .gredMinS32 f m => Sys2Proof.Machine.execGredMinS32 f m s
  | .gredMaxS32 f m => Sys2Proof.Machine.execGredMaxS32 f m s
  | .gredSumF64 f m => Sys2Proof.Machine.execGredSumF64 f m s
  | .gredSumS64 f m => Sys2Proof.Machine.execGredSumS64 f m s
  | .gredSegSumF32 f m => Sys2Proof.Machine.execGredSegSumF32 f m s
  | .gredSegMinF32 f m => Sys2Proof.Machine.execGredSegMinF32 f m s
  | .gredSegMaxF32 f m => Sys2Proof.Machine.execGredSegMaxF32 f m s
  | .gredSegSumS32 f m => Sys2Proof.Machine.execGredSegSumS32 f m s
  | .gredSegMinS32 f m => Sys2Proof.Machine.execGredSegMinS32 f m s
  | .gredSegMaxS32 f m => Sys2Proof.Machine.execGredSegMaxS32 f m s
  | .gredSegSumF64 f m => Sys2Proof.Machine.execGredSegSumF64 f m s
  | .gredSegSumS64 f m => Sys2Proof.Machine.execGredSegSumS64 f m s
  | .ldN8 f m => Sys2Proof.Machine.execLdN8 f m s
  | .ldS8 f m => Sys2Proof.Machine.execLdS8 f m s
  | .ldN16 f m => Sys2Proof.Machine.execLdN16 f m s
  | .ldS16 f m => Sys2Proof.Machine.execLdS16 f m s
  | .ldB32 f m => Sys2Proof.Machine.execLdB32 f m s
  | .ldB64 f m => Sys2Proof.Machine.execLdB64 f m s
  | .ldB128 f m => Sys2Proof.Machine.execLdB128 f m s
  | .stB8 f m => Sys2Proof.Machine.execStB8 f m s
  | .stB16 f m => Sys2Proof.Machine.execStB16 f m s
  | .stB32 f m => Sys2Proof.Machine.execStB32 f m s
  | .stB64 f m => Sys2Proof.Machine.execStB64 f m s
  | .stB128 f m => Sys2Proof.Machine.execStB128 f m s
  | .pref f m => Sys2Proof.Machine.execPref f m s
  | .discard f m => Sys2Proof.Machine.execDiscard f m s
  | .lastuse f m => Sys2Proof.Machine.execLastuse f m s
  | .ldN8Scr f m => Sys2Proof.Machine.execLdN8Scr f m s
  | .ldS8Scr f m => Sys2Proof.Machine.execLdS8Scr f m s
  | .ldN16Scr f m => Sys2Proof.Machine.execLdN16Scr f m s
  | .ldS16Scr f m => Sys2Proof.Machine.execLdS16Scr f m s
  | .ldB32Scr f m => Sys2Proof.Machine.execLdB32Scr f m s
  | .ldB64Scr f m => Sys2Proof.Machine.execLdB64Scr f m s
  | .ldB128Scr f m => Sys2Proof.Machine.execLdB128Scr f m s
  | .stB8Scr f m => Sys2Proof.Machine.execStB8Scr f m s
  | .stB16Scr f m => Sys2Proof.Machine.execStB16Scr f m s
  | .stB32Scr f m => Sys2Proof.Machine.execStB32Scr f m s
  | .stB64Scr f m => Sys2Proof.Machine.execStB64Scr f m s
  | .stB128Scr f m => Sys2Proof.Machine.execStB128Scr f m s
  | .ldN8Cscr f m => Sys2Proof.Machine.execLdN8Cscr f m s
  | .ldS8Cscr f m => Sys2Proof.Machine.execLdS8Cscr f m s
  | .ldN16Cscr f m => Sys2Proof.Machine.execLdN16Cscr f m s
  | .ldS16Cscr f m => Sys2Proof.Machine.execLdS16Cscr f m s
  | .ldB32Cscr f m => Sys2Proof.Machine.execLdB32Cscr f m s
  | .ldB64Cscr f m => Sys2Proof.Machine.execLdB64Cscr f m s
  | .ldB128Cscr f m => Sys2Proof.Machine.execLdB128Cscr f m s
  | .stB8Cscr f m => Sys2Proof.Machine.execStB8Cscr f m s
  | .stB16Cscr f m => Sys2Proof.Machine.execStB16Cscr f m s
  | .stB32Cscr f m => Sys2Proof.Machine.execStB32Cscr f m s
  | .stB64Cscr f m => Sys2Proof.Machine.execStB64Cscr f m s
  | .stB128Cscr f m => Sys2Proof.Machine.execStB128Cscr f m s
  | .tld f m => Sys2Proof.Machine.execTld f m s
  | .tldVer f m => Sys2Proof.Machine.execTldVer f m s
  | .tst f m => Sys2Proof.Machine.execTst f m s
  | .tstWhole f m => Sys2Proof.Machine.execTstWhole f m s
  | .rld f m => Sys2Proof.Machine.execRld f m s
  | .rst f m => Sys2Proof.Machine.execRst f m s
  | .tldScr f m => Sys2Proof.Machine.execTldScr f m s
  | .tldVerScr f m => Sys2Proof.Machine.execTldVerScr f m s
  | .tstScr f m => Sys2Proof.Machine.execTstScr f m s
  | .tstWholeScr f m => Sys2Proof.Machine.execTstWholeScr f m s
  | .rldScr f m => Sys2Proof.Machine.execRldScr f m s
  | .rstScr f m => Sys2Proof.Machine.execRstScr f m s
  | .atomAddB32 f m => Sys2Proof.Machine.execAtomAddB32 f m s
  | .atomMinSB32 f m => Sys2Proof.Machine.execAtomMinSB32 f m s
  | .atomMaxSB32 f m => Sys2Proof.Machine.execAtomMaxSB32 f m s
  | .atomMinNB32 f m => Sys2Proof.Machine.execAtomMinNB32 f m s
  | .atomMaxNB32 f m => Sys2Proof.Machine.execAtomMaxNB32 f m s
  | .atomAndB32 f m => Sys2Proof.Machine.execAtomAndB32 f m s
  | .atomOrB32 f m => Sys2Proof.Machine.execAtomOrB32 f m s
  | .atomXorB32 f m => Sys2Proof.Machine.execAtomXorB32 f m s
  | .atomExchB32 f m => Sys2Proof.Machine.execAtomExchB32 f m s
  | .atomCasB32 f m => Sys2Proof.Machine.execAtomCasB32 f m s
  | .atomFaddF32 f m => Sys2Proof.Machine.execAtomFaddF32 f m s
  | .atomAddB64 f m => Sys2Proof.Machine.execAtomAddB64 f m s
  | .atomMinSB64 f m => Sys2Proof.Machine.execAtomMinSB64 f m s
  | .atomMaxSB64 f m => Sys2Proof.Machine.execAtomMaxSB64 f m s
  | .atomMinNB64 f m => Sys2Proof.Machine.execAtomMinNB64 f m s
  | .atomMaxNB64 f m => Sys2Proof.Machine.execAtomMaxNB64 f m s
  | .atomAndB64 f m => Sys2Proof.Machine.execAtomAndB64 f m s
  | .atomOrB64 f m => Sys2Proof.Machine.execAtomOrB64 f m s
  | .atomXorB64 f m => Sys2Proof.Machine.execAtomXorB64 f m s
  | .atomExchB64 f m => Sys2Proof.Machine.execAtomExchB64 f m s
  | .atomCasB64 f m => Sys2Proof.Machine.execAtomCasB64 f m s
  | .atomFaddF64 f m => Sys2Proof.Machine.execAtomFaddF64 f m s
  | .atomAddB32Scr f m => Sys2Proof.Machine.execAtomAddB32Scr f m s
  | .atomMinSB32Scr f m => Sys2Proof.Machine.execAtomMinSB32Scr f m s
  | .atomMaxSB32Scr f m => Sys2Proof.Machine.execAtomMaxSB32Scr f m s
  | .atomMinNB32Scr f m => Sys2Proof.Machine.execAtomMinNB32Scr f m s
  | .atomMaxNB32Scr f m => Sys2Proof.Machine.execAtomMaxNB32Scr f m s
  | .atomAndB32Scr f m => Sys2Proof.Machine.execAtomAndB32Scr f m s
  | .atomOrB32Scr f m => Sys2Proof.Machine.execAtomOrB32Scr f m s
  | .atomXorB32Scr f m => Sys2Proof.Machine.execAtomXorB32Scr f m s
  | .atomExchB32Scr f m => Sys2Proof.Machine.execAtomExchB32Scr f m s
  | .atomCasB32Scr f m => Sys2Proof.Machine.execAtomCasB32Scr f m s
  | .atomFaddF32Scr f m => Sys2Proof.Machine.execAtomFaddF32Scr f m s
  | .atomAddB64Scr f m => Sys2Proof.Machine.execAtomAddB64Scr f m s
  | .atomMinSB64Scr f m => Sys2Proof.Machine.execAtomMinSB64Scr f m s
  | .atomMaxSB64Scr f m => Sys2Proof.Machine.execAtomMaxSB64Scr f m s
  | .atomMinNB64Scr f m => Sys2Proof.Machine.execAtomMinNB64Scr f m s
  | .atomMaxNB64Scr f m => Sys2Proof.Machine.execAtomMaxNB64Scr f m s
  | .atomAndB64Scr f m => Sys2Proof.Machine.execAtomAndB64Scr f m s
  | .atomOrB64Scr f m => Sys2Proof.Machine.execAtomOrB64Scr f m s
  | .atomXorB64Scr f m => Sys2Proof.Machine.execAtomXorB64Scr f m s
  | .atomExchB64Scr f m => Sys2Proof.Machine.execAtomExchB64Scr f m s
  | .atomCasB64Scr f m => Sys2Proof.Machine.execAtomCasB64Scr f m s
  | .atomFaddF64Scr f m => Sys2Proof.Machine.execAtomFaddF64Scr f m s
  | .sldB32 f m => Sys2Proof.Machine.execSldB32 f m s
  | .sldB64 f m => Sys2Proof.Machine.execSldB64 f m s
  | .sstB32 f m => Sys2Proof.Machine.execSstB32 f m s
  | .sstB64 f m => Sys2Proof.Machine.execSstB64 f m s
  | .atomsAddB32 f m => Sys2Proof.Machine.execAtomsAddB32 f m s
  | .atomsMaxN32 f m => Sys2Proof.Machine.execAtomsMaxN32 f m s
  | .atomsExchB32 f m => Sys2Proof.Machine.execAtomsExchB32 f m s
  | .atomsAddB64 f m => Sys2Proof.Machine.execAtomsAddB64 f m s
  | .atomsMaxN64 f m => Sys2Proof.Machine.execAtomsMaxN64 f m s
  | .atomsExchB64 f m => Sys2Proof.Machine.execAtomsExchB64 f m s
  | .scataddF32 f m => Sys2Proof.Machine.execScataddF32 f m s
  | .bpref f m => Sys2Proof.Machine.execBpref f m s
  | .bprefBo f m => Sys2Proof.Machine.execBprefBo f m s
  | .shinv f m => Sys2Proof.Machine.execShinv f m s
  | .shinvAll f m => Sys2Proof.Machine.execShinvAll f m s
  | .mma f m => Sys2Proof.Machine.execMma f m s
  | .mzero f m => Sys2Proof.Machine.execMzero f m s
  | .mload f m => Sys2Proof.Machine.execMload f m s
  | .mdrain f m => Sys2Proof.Machine.execMdrain f m s
  | .mupd f m => Sys2Proof.Machine.execMupd f m s
  | .mwait f m => Sys2Proof.Machine.execMwait f m s
  | .mcompress f m => Sys2Proof.Machine.execMcompress f m s
  | .amaxrd f m => Sys2Proof.Machine.execAmaxrd f m s
  | .amaxrdSync f m => Sys2Proof.Machine.execAmaxrdSync f m s
  | .amaxclr f m => Sys2Proof.Machine.execAmaxclr f m s
  | .fence f m => Sys2Proof.Machine.execFence f m s
  | .barteam f m => Sys2Proof.Machine.execBarteam f m s
  | .barclu f m => Sys2Proof.Machine.execBarclu f m s
  | .boinit f m => Sys2Proof.Machine.execBoinit f m s
  | .boarr f m => Sys2Proof.Machine.execBoarr f m s
  | .bowait f m => Sys2Proof.Machine.execBowait f m s
  | .tokwait f m => Sys2Proof.Machine.execTokwait f m s
  | .kick f m => Sys2Proof.Machine.execKick f m s
  | .scatflush f m => Sys2Proof.Machine.execScatflush f m s
  | .glaunch f m => Sys2Proof.Machine.execGlaunch f m s
  | .srammode f m => Sys2Proof.Machine.execSrammode f m s
  | .texs f m => Sys2Proof.Machine.execTexs f m s
  | .texg f m => Sys2Proof.Machine.execTexg f m s
  | .texadj f m => Sys2Proof.Machine.execTexadj f m s
  | .trace f m => Sys2Proof.Machine.execTrace f m s
  | .traceadj f m => Sys2Proof.Machine.execTraceadj f m s
  | .edgeq f m => Sys2Proof.Machine.execEdgeq f m s
  | .trecB32 f m => Sys2Proof.Machine.execTrecB32 f m s
  | .trecB64 f m => Sys2Proof.Machine.execTrecB64 f m s
  | .tpopB32 f m => Sys2Proof.Machine.execTpopB32 f m s
  | .tpopB64 f m => Sys2Proof.Machine.execTpopB64 f m s
  | .tmark f m => Sys2Proof.Machine.execTmark f m s
  | .tseal f m => Sys2Proof.Machine.execTseal f m s

end Sys2Proof.Machine
end

