-- ==== Sys2Proof/Machine/Pending.lean ====
section
/-! DEFINITION. The events of the device itself: those that can happen now, those that wait for a time, and the one that happens
next. -/

namespace Sys2Proof.Machine

/-- The state without what the passing of time changes. -/
def State.still (s : State) : State :=
  { s with
    hub := { s.hub with clock := { s.hub.clock with now := 0 } }
    sched := { s.sched with freeCtr := 0 } }

/-- Whether an event can happen and changes more than the time. -/
def State.progresses (s : State) (i : Instr) : Bool :=
  match exec i s with
  | .next s' => s'.still != s.still
  | _ => false

/-! ## Candidates -/

/-- The events of the command processor and the placer, but for those that have nothing to do. -/
def State.launchEvents (s : State) : List Instr :=
  let reads (q : Nat) : Bool := ((s.queue q).en && (s.queue q).qwrite != (s.queue q).qread) || (s.queue q).closing != 0
  let gs := (List.range s.grids.length).filter fun g => !(s.grid g).over
  let dispatching := gs.filter fun g => (s.grid g).status == .dispatching
  let late := dispatching.filter fun g => (s.grid g).par.deadline.isSome
  let placing := dispatching.filter fun g => !(s.ctxBusy (s.grid g).par.ctx).isEmpty || (s.firstSwitchedOut g).isSome ||
    (s.firstVacated g).isSome || s.canDispatch g
  let teams := (List.range s.teams.length).filter fun t => (s.team t).status == .running && (s.team t).groups.all fun G => G.ended
  ((List.range 64).filter reads).map (fun q => Instr.readLaunchPacket (BitVec.ofNat 6 q)) ++
    (if gs.any fun g => (s.grid g).status == .accepted then [Instr.beginDispatch] else []) ++ placing.map Instr.dispatchTeam ++
    late.map Instr.deadlinePreemptRequest ++ (gs.filter s.gridQuiet).map Instr.gridComplete ++ teams.map Instr.teamEnd ++
    (List.range s.cp.replays.length).map Instr.replayLaunchPacket ++ (if s.cp.vacs.isEmpty then [] else [Instr.vacate])

/-- Whether a lane's wait is one that YIELD began. -/
def Lane.yields (L : Lane) : Bool := match L.status with
  | .yielding _ => true
  | _ => false

/-- The events of group `g` of team `t`, but for those that have nothing to do; a group that can issue takes its asynchronous cause at
issue. -/
def State.eventsOfGroup (s : State) (t g : Nat) (G : Group) : List Instr :=
  (if s.asyncDue t g && (s.pcSets t g G).isEmpty then [Instr.asyncTrapDelivery t g] else []) ++
    (if !G.resident && !G.ended && s.groupReady t G then [Instr.groupSwitchIn t g] else []) ++ (if G.pixel.isSome then [Instr.vertexGradientContrib t g] else []) ++
    ((indexed G.lanes).filter fun x => x.2.yields).map fun x => Instr.yieldExpire t g x.1

/-- The events of groups. -/
def State.groupEvents (s : State) : List Instr :=
  (indexed s.teams).flatMap fun x => (indexed x.2.groups).flatMap fun y => s.eventsOfGroup x.1 y.1 y.2

/-- The event that goes on with a tile operation that has been started. -/
def OpKind.event (k : OpKind) (t i : Nat) : List Instr := match k with
  | .mma => [.matrixKgroup t i]
  | .mzero => []
  | .mload => [.mloadRow t i]
  | .mdrain => [.drainBlock t i]
  | .mupd => [.updateBlock t i]

/-- The events of the matrix engines. -/
def State.tileEvents (s : State) : List Instr :=
  (indexed s.teams).flatMap fun x => (indexed x.2.tiles).flatMap fun y => match y.2.ops with
    | [] => []
    | o :: _ => if o.started then o.kind.event x.1 y.1 else [Instr.matrixOpStart x.1 y.1]

/-- The events of the engines that cards and prefetches are given to. -/
def State.engineEvents (s : State) : List Instr :=
  ((indexed s.eng.cards).flatMap fun x => if x.2.ended then [] else
    [Instr.cardItemStart x.1, .cardLineWrite x.1, .cardItemEnd x.1, .rasterWalk x.1, .edgeSample x.1]) ++
    (List.range s.eng.prefetches.length).map Instr.bulkPrefetchLine

/-- The events of the hub, the fabric and the controller, but for those that have nothing to do. -/
def State.hubEvents (s : State) : List Instr :=
  let leave (r : Request) : List Instr :=
    if r.sent then []
    else match r.kind with
      | .readShared => [.fabricReadShared (r.addr / 128)]
      | .readExclusive => [.fabricReadExclusive (r.addr / 128)]
      | .upgrade => [.fabricUpgrade (r.addr / 128)]
      | .writeback _ => [.fabricWriteback (r.addr / 128)]
      | .evictNotice => [.fabricEvictNotice (r.addr / 128)]
      | .atomic op => [.fabricAtomic op r.addr]
      | _ => []
  s.fab.requests.flatMap leave ++ s.sched.waiting ++
    ((List.range portCount).filter fun n => (s.port n).retrain).map (fun n => Instr.linkRetrainDone (BitVec.ofNat 6 n)) ++
    (if s.mm.faults.any fun r => !r.delivered && !r.failed then [.faultRecordDeliver] else []) ++
    (if s.regs.invCmd.getLsbD 31 then [.invalidationDone] else []) ++ (if s.cp.devErr then [.deviceReset] else []) ++
    (if s.regs.fwStat.getLsbD 30 then [.firmwareUpdateDone] else [])

/-- Every event that the device may perform of itself at any time. -/
def State.candidates (s : State) : List Instr :=
  s.launchEvents ++ s.groupEvents ++ s.tileEvents ++ s.engineEvents ++ s.hubEvents

/-- The candidates in turn: each of them comes first again and again. -/
def State.inTurn (s : State) : List Instr :=
  let xs := s.candidates
  let k := s.sched.events % max 1 xs.length
  xs.drop k ++ xs.take k

/-! ## Events that wait for a time -/

/-- The time at which a lane's wait is bounded. -/
def State.waitBound (s : State) (L : Lane) : Option Nat :=
  if s.regs.syncTo == 0 then none else L.waitsSince.map fun t => t + s.regs.syncTo.toNat * 1000

/-- The events that happen at a time, with their times, but for those of a clock that has nothing to do. -/
def State.timed (s : State) : List (Nat × Instr) :=
  let grids := (indexed s.grids).flatMap fun x =>
    (x.2.par.release.toList.map fun t => (t, Instr.releaseTimeReached x.1)) ++
      (x.2.par.deadline.toList.map fun t => (t, Instr.deadlineReached x.1))
  let cards := (indexed s.eng.cards).filterMap fun x =>
    if x.2.relDue || x.2.ended then none else some (x.2.reltime, Instr.cardReltimeReached x.1)
  let held := s.mm.held.map fun h => (h.until_, Instr.holdExpire (BitVec.ofNat 8 h.ctx) h.page)
  let waits := (indexed s.teams).flatMap fun x => (indexed x.2.groups).flatMap fun y => (indexed y.2.lanes).filterMap fun z =>
    (s.waitBound z.2).map fun t => (t, Instr.syncTimeout x.1 y.1 z.1)
  let requests := s.fab.requests.map fun r => (r.since + s.regs.fabTo.toNat * 1000, Instr.fabricTimeout r.tag)
  let c := s.hub.clock
  let clock := (if s.timeSrc == 0 || c.holdSrc then [] else [(c.lastMeas + 4000000000, Instr.holdoverTimeout)]) ++
    (if !s.ppsRef || c.holdPps then [] else [(c.lastEdge + 2000000000, .ppsLossTimeout)]) ++
    (if s.timeSrc == 2 then [(c.lastReq + s.regs.ptmIvl.toNat * 1000, .ptmRequest)] else [])
  grids ++ cards ++ held ++ waits ++ requests ++ clock

/-- The events that wait for a time, earliest first. -/
def State.byTime (s : State) : List (Nat × Instr) := sortBy (fun a b => decide (a.1 < b.1)) s.timed

/-! ## What the outside does, and what follows a step -/

/-- An input of the outside taken: the host writes its own memory, the host link or a link between other packages changes. -/
def State.takeInbox (s : State) (x : OutsideInput) : State :=
  match x with
  | .hostStore a bs => s.wrCells ((indexed bs).map fun y => (hostKey (a + y.1), y.2))
  | .hostLink down => { s with hub := { s.hub with hostDown := down } }
  | .farLink u v down =>
    let rest := s.fab.farDown.filter fun l => l != (u, v) && l != (v, u)
    { s with fab := { s.fab with farDown := if down then (u, v) :: rest else rest } }

/-- What follows every step: groups that stand still give up their slots, rungs are picked, writes of the hub and the command
processor go on, and what can leave on the fabric leaves. -/
def State.settle (s : State) : State := s.pickRungs.flushEvents.payEntries.sendPending.closeHeaders.switchOut

/-! ## The next event -/

/-- The next event of the device itself, if any: one whose time has come; one that can happen at any time; or, when no group can
issue, the next one that waits for a time. (DESIGN CHOICE, log 8.) -/
def State.nextEvent (s : State) : Option Instr :=
  let now := s.hub.clock.now.toNat
  let due := (s.byTime.filter fun x => decide (x.1 ≤ now)).map (·.2)
  let later := if s.nextGroup.isSome then [] else (s.byTime.filter fun x => decide (now < x.1)).map (·.2)
  (due ++ s.inTurn ++ later).find? s.progresses

/-- Whether an event placed by the outside can happen: a device without power takes nothing but power. -/
def State.accepts (s : State) (i : Instr) : Bool :=
  match i with
  | .powerOnReset => true
  | _ => s.hub.powered

end Sys2Proof.Machine
end

