-- ==== Sys2Proof/Machine/Step.lean ====
section
/-! DEFINITION. One step of the device: an event of the outside or of the device, or one instruction word issued for one
PC-set (spec 07 R127). -/

namespace Sys2Proof.Machine

/-- What follows an issue: no instance stands at issue. -/
def endIssue : Res → Res
  | .next s => .next (State.settle { s with sched := { s.sched with cur := none } })
  | .fault f => .fault f
  | .refused r => .refused r

/-- What follows an event: lanes that waited for one may issue again. -/
def endEvent : Res → Res
  | .next s => .next (State.settle { s with sched := { s.sched with cur := none, events := s.sched.events + 1 } })
  | .fault f => .fault f
  | .refused r => .refused r

/-- An instance runs the word it stands at: its packet is fetched and checked (spec 05 R94), its word decoded (R95), and the
decoded instruction performed. -/
noncomputable def runInst (c : Inst) (s : State) : Res :=
  match s.fetch c with
  | .stop s' => .next s'
  | .packet bs s' =>
    match decodeSlot (packetWords bs) (slotOf c.pc) with
    | .illegal r slot => .next (s'.illegalPacket c r slot ((packetWords bs).getD slot 0))
    | .notInstr => .next (s'.badResume c)
    | .undefinedWord r u => .next (s'.badWord c u.mods r u.word)
    | .instr i u =>
      match i.decodeReason with
      | some r => .next (s'.badWord c u.mods r u.word)
      | none =>
        match i.sig.bind fun x => x.overAllotment (s'.instKernel c).regs with
        | some k => .next (s'.badRegister c u.mods k)
        | none =>
          match s'.sickRead c i with
          | some x => .next (s'.instTrap c u.mods x)
          | none => exec i s'

/-- Whether an outcome of an issue is a trap of the group. -/
def trapped (t g : Nat) : Res → Bool
  | .next s => (s.grp t g).inh || (s.team t).status == .discarded
  | _ => false

/-- One issue of a group: one instance, unless an asynchronous cause is pending, which is taken instead; but a synchronous trap of the
instance goes first, and the asynchronous cause stays pending (spec 20 R402). (DEDUCED, log 9; DEDUCED, log 15; DEDUCED, log 144.) -/
noncomputable def issueStep (t g : Nat) (s : State) : Res :=
  match s.selectInst t g with
  | none => endEvent (if s.asyncDue t g then exec (.asyncTrapDelivery t g) s else .next s)
  | some (c, s') =>
    let r := runInst c s'
    if s.asyncDue t g && !trapped t g r then endEvent (exec (.asyncTrapDelivery t g) s) else endIssue r

/-- One event of the device that is due, or time passing. (DEDUCED, log 11.) -/
def eventStep (s : State) : Res :=
  match s.nextEvent with
  | some i => endEvent (exec i s)
  | none => endEvent (.next s)

/-- One step. What the outside does and the events it places come first; otherwise issue and the device's own events take turns, and time passes
at the turn of the events. (DESIGN CHOICE, log 5.) -/
noncomputable def step (s : State) : Host.Outcome State Fault Refusal :=
  match s.sched.inbox, s.sched.agenda with
  | x :: rest, _ => endEvent (.next (State.takeInbox { s with sched := { s.sched with inbox := rest } } x))
  | [], i :: rest =>
    let s' := { s with sched := { s.sched with agenda := rest } }
    if !s.accepts i then .next s'
    else if s.queues i then endEvent (.next { s' with sched := { s'.sched with waiting := s'.sched.waiting ++ [i] } })
    else endEvent (exec i s')
  | [], [] =>
    let s' := { s with sched := { s.sched with turn := !s.sched.turn } }
    let s' := if s.sched.turn then s'.lookTime.2 else s'
    if s.sched.turn && s'.nextEvent.isSome then eventStep s'
    else
      match s'.nextGroup with
      | some (t, g) => issueStep t g s'
      | none => eventStep s'

/-- The state with an instruction stored where `step` fetches its next one. (DESIGN CHOICE, log 12.) -/
def State.withFetchWord (s : State) (nbits w : Nat) : State :=
  s.storePacket ((tableWords nbits w).flatMap bytesOfWord)

end Sys2Proof.Machine
end

