-- ==== Sys2Proof/Safety.lean ====
section
/-! DEFINITION. The terms that claims use: the invariant that every step keeps, an instance that can go on, and how a group
stands when an instance of it has retired. -/

namespace Sys2Proof.Machine

/-! ## The invariants -/

/-- Between steps no instance stands at issue, and a resident group of a running team that has not ended either has a lane that
moves or has one that can issue: a group whose lanes all stand still has given up its slot (spec 10 R212, 20 R407). -/
def State.Inv (s : State) : Prop :=
  s.sched.cur = none ∧
  ∀ t T G, s.teams[t]? = some T → T.status = .running → G ∈ T.groups →
    G.resident = true → G.ended = false → G.idle = true → s.groupReady t G = true

/-- Memory is in its one canonical form: keys strictly rising, no listed zero. -/
def State.MemInv (s : State) : Prop := Memory.wf s.mem = true

/-! ## An instance at issue -/

/-- The instance at issue is `c`, and the word after its unit lies inside the code (spec 01 R19). -/
def State.Issues (s : State) (c : Inst) (m : Mods) : Prop :=
  s.sched.cur = some c ∧ (afterUnit c.pc m).toNat < (s.instKernel c).codeSize

/-- The group of an instance is there. -/
def State.Placed (s : State) (c : Inst) : Prop := c.team < s.teams.length ∧ c.group < (s.team c.team).groups.length

/-- A lane that goes on at offset `n`: whatever its instruction had gathered is dropped. -/
def Lane.goesTo (L : Lane) (n : W32) : Lane := { L with pc := n, stall := none, bad := [], waitFor := none, tries := 0 }

/-- A group after an instance has retired in the lanes that `next` sends on, and changed no lane otherwise. -/
def Group.goesOn (G : Group) (c : Inst) (next : Nat → Option W32) : Group :=
  G.mapLanes fun l L =>
    match (if c.mask.getLsbD l then next l else none) with
    | some n => L.goesTo n
    | none => L

/-- A group after a value-producing instance has retired (spec 08 R145, 00 R9): every lane of the instance goes on at the next
word; a lane of Active() receives what the instruction gives it, every other lane of the instance `n` pushes of zero; the flags
raised by lanes other than helper lanes are ORed into FLAGS (spec 02 R50). No other lane changes. -/
def Group.retires (G : Group) (c : Inst) (m : Mods) (act : LaneMask) (n : Nat) (res : Nat → LaneOut) : Group :=
  (G.mapLanes fun l L =>
    if c.mask.getLsbD l then (L.take (if act.getLsbD l then res l else zeroPushes n)).goesTo (afterUnit c.pc m)
    else L).orFlags (raisedFlags G act res)

/-- No lane of Active() but a helper lane raises a flag whose enable is set (spec 02 R52). -/
def Group.flagsPass (G : Group) (act : LaneMask) (res : Nat → LaneOut) : Prop :=
  ∀ l, l < 32 → act.getLsbD l = true → (G.lane l).helper = false → (res l).flags &&& G.enables = 0

/-! ## Memory instances -/

/-- Lane `l` of the instance, which has not been performed yet, meets no condition of Table 11-1, misses nothing, and finds every byte
it asks for on this device, in host memory or in a scratchpad, with no engine of its team and no other package holding it back (spec
11 R221, R222). -/
structure State.Sees (s : State) (c : Inst) (l : Nat) (r : LaneReq) : Prop where
  conds : (s.checkLane c l r).conds = []
  pages : (s.checkLane c l r).pages = []
  lines : (s.checkLane c l r).lines = []
  fifo  : (s.checkLane c l r).fifo = none
  mate  : (s.checkLane c l r).absentMate = false
  busy  : (s.checkLane c l r).busy = []
  here  : ∀ k ∈ (s.checkLane c l r).pre ++ (s.checkLane c l r).keys ++ (s.checkLane c l r).look,
    s.isPeerKey k.1 = false ∧ s.dirBlocks (k.1 / 128) true = false
  free  : ∀ g ∈ r.segs, s.segHeld c.team g = false
  fresh : s.partOf (c.team, c.group, l) = none

/-- The keys of the bytes that a lane's request names, in order. -/
def State.keysOf (s : State) (c : Inst) (l : Nat) (r : LaneReq) : List Nat := (s.checkLane c l r).keys.map (·.1)

/-- State `t` is state `s` after a memory instance has retired in all its lanes: each lane has what `res` gives it and goes on at
the next word; the flags of `res` in Active() stand in FLAGS. Its other lanes, its other registers, every other group, the teams'
banks and tiles, and every launch, register and clock are as before. A statement says of memory, the memory unit and the engines
what it needs besides. -/
structure MemRetired (s t : State) (c : Inst) (m : Mods) (act : LaneMask) (res : Nat → LaneOut) : Prop where
  lanes  : ∀ l, c.mask.getLsbD l = true → l < (s.instGrp c).lanes.length → ∃ pg,
    (t.grp c.team c.group).lane l =
      { (((s.instGrp c).lane l).take (res l)).goesTo (afterUnit c.pc m) with lastPage := pg }
  others : ∀ l, c.mask.getLsbD l = false → (t.grp c.team c.group).lane l = (s.instGrp c).lane l
  group  : { t.grp c.team c.group with lanes := [] } =
    { (s.instGrp c).orFlags (raisedFlags (s.instGrp c) act res) with lanes := [] }
  groups : ∀ u h, (u, h) ≠ (c.team, c.group) → t.grp u h = s.grp u h
  teams  : ∀ u, { t.team u with groups := [] } = { s.team u with groups := [] }
  fab    : t.fab = (s.clearAnswers c.owns).fab
  rest   : t.grids = s.grids ∧ t.cp = s.cp ∧ t.regs = s.regs ∧ t.hub = s.hub ∧ t.sched = s.sched

end Sys2Proof.Machine
end

