-- ==== Sys2Proof/Forms.lean ====
section
/-! DEFINITION. The value-producing instructions as tables: what each gives a lane of Active(). The statements about them are
made over these tables. -/

namespace Sys2Proof.Forms

open Sys2Proof.Machine

/-- A value-producing instruction: its extension and literal, its guard field, and what it gives lane `l` of group `G`, the group
of instance `c` at issue in state `s` with the mask of Active(). -/
structure ValueForm where
  m   : Mods
  g   : BitVec 3
  out : State → Inst → LaneMask → Group → Nat → LaneOut

/-- Instruction `i` completes as its form says: at every instance whose next word lies inside the code and whose lanes raise no
flag that traps, each lane of Active() receives what the form gives it, each other lane of the instance a push of zero, the flags
raised stand in FLAGS, the lanes of the instance go on at the next word, and nothing else changes. -/
def Retires (i : Instr) (v : ValueForm) : Prop :=
  ∀ s c, s.Issues c v.m →
    let G := s.instGrp c
    let act := activeOf s c v.g.toNat (guardNeg v.m)
    let res := v.out s c act G
    G.flagsPass act res →
    exec i s = .next (s.modGroup c.team c.group fun G => G.retires c v.m act 1 res)

/-- A 32-bit operation on A and B: pushed and written to D. -/
def int32 (f : V3) (m : Mods) (op : W32 → W32 → W32 × FlagBits) : ValueForm :=
  ⟨m, f.g, fun _ _ _ G l => out32 f.d (op (src32 G m l f.a) (src32 G m l f.b)).1 (op (src32 G m l f.a) (src32 G m l f.b)).2⟩

/-- A 64-bit operation on A and B, whose literals widen as type `t` says. -/
def int64 (t : Ty) (f : V3) (m : Mods) (op : W64 → W64 → W64 × FlagBits) : ValueForm :=
  ⟨m, f.g, fun _ _ _ G l =>
    out64 f.d (op (src G m l f.a t) (src G m l f.b t)).1 (op (src G m l f.a t) (src G m l f.b t)).2⟩

/-- A 64-bit bit field extracted under a 32-bit control. -/
def field64 (sg : Bool) (t : Ty) (f : V3) (m : Mods) : ValueForm :=
  ⟨m, f.g, fun _ _ _ G l => out64 f.d (bfx sg (src G m l f.a t) (src32 G m l f.b))⟩

/-- An address: A plus the signed 32-bit B times a power of two. -/
def leaForm (n : Nat) (f : V3) (m : Mods) : ValueForm :=
  ⟨m, f.g, fun _ _ _ G l => out64 f.d (lea n (src G m l f.a .b64) (src32 G m l f.b))⟩

/-- A 32-bit operation on A, B and C: pushed only. -/
def tri32 (f : V4) (m : Mods) (op : W32 → W32 → W32 → W32) : ValueForm :=
  ⟨m, f.g, fun _ _ _ G l =>
    { pushes := [(op (src32 G m l f.a) (src32 G m l f.b) (src32 G m l f.c)).zeroExtend 64] }⟩

/-- A 64-bit operation on A, B and C: pushed only. -/
def tri64 (t tc : Ty) (f : V4) (m : Mods) (op : W64 → W64 → W64 → W64) : ValueForm :=
  ⟨m, f.g, fun _ _ _ G l => { pushes := [op (src G m l f.a t) (src G m l f.b t) (src G m l f.c tc)] }⟩

/-- A selection of A or B by a predicate: pushed only. -/
def sel (t : Ty) (f : V4) (m : Mods) : ValueForm :=
  ⟨m, f.g, fun _ _ _ G l => { pushes := [src G m l (if (G.lane l).pred (lo3 f.c) then f.a else f.b) t] }⟩

/-- A vote: what a lane receives is a function of Active() and of its lanes whose predicate holds. -/
def vote (f : V3) (m : Mods) (res : LaneMask → LaneMask → LaneOut) : ValueForm :=
  ⟨m, f.g, fun _ _ act G _ => res act (laneMask fun i => act.getLsbD i && (G.lane i).pred (hi3 f.a))⟩

/-- One or zero. -/
def bit1 (b : Bool) : Nat := if b then 1 else 0

/-- A 32-bit floating-point operation on A and B. -/
def float32 (f : V3) (m : Mods) (op : FpOp) : ValueForm :=
  ⟨m, f.g, fun s c _ G l =>
    let r := op (laneMode s c m (mod3Of m) l 0) s.peerNo (src32 G m l f.a).toNat (src32 G m l f.b).toNat
    out32 f.d (BitVec.ofNat 32 r.1) r.2⟩

/-- A 64-bit floating-point operation on A and B. -/
def float64 (f : V3) (m : Mods) (op : FpOp) : ValueForm :=
  ⟨m, f.g, fun s c _ G l =>
    let r := op (laneMode s c m (mod3Of m) l 0) s.peerNo (src G m l f.a .f64).toNat (src G m l f.b .f64).toNat
    out64 f.d (BitVec.ofNat 64 r.1) r.2⟩

/-- A floating-point operation on each half of A and B. -/
def floatX2 (f : V3) (m : Mods) (op : FpOp) : ValueForm :=
  ⟨m, f.g, fun s c _ G l =>
    let r := pairOf (fun j a b => op (laneMode s c m (mod3Of m) l j) s.peerNo a.toNat b.toNat)
      (src32 G m l f.a) (src32 G m l f.b)
    out32 f.d r.1 r.2⟩

/-- A code pushed with its flags. -/
def queued (r : Nat × FlagBits) : LaneOut := { pushes := [BitVec.ofNat 64 r.1], flags := r.2 }

/-- A fused multiply-add on each half. -/
def fmaPair (fm : Fmt) (f : V4) (m : Mods) : ValueForm :=
  ⟨m, f.g, fun s c _ G l =>
    let one (j : Nat) : Nat × FlagBits := fpFma fm (laneMode s c m (mod3Of m) l j) s.peerNo
      (bitsOf (src32 G m l f.a).toNat (16 * j) 16) (bitsOf (src32 G m l f.b).toNat (16 * j) 16)
      (bitsOf (src32 G m l f.c).toNat (16 * j) 16)
    queued ((one 1).1 * 2 ^ 16 + (one 0).1, (one 0).2 ||| (one 1).2)⟩

/-- A conversion between the types that B and bits [3:0] of MIN name. -/
def cvtForm (code : Nat) (from4 : BitVec 4) (f : V3) (m : Mods) : ValueForm :=
  ⟨m, f.g, fun s c _ G l =>
    let r := convert (cvtTo f.b) (cvtFrom f.b from4) (laneMode s c m code l 0) s.peerNo
      (src G m l f.a (cvtSrcTy (cvtFrom f.b from4))).toNat
    outTy (cvtDstTy (cvtTo f.b)) f.d r.1 r.2⟩

/-- An element and the scale of the block that Active() forms. -/
def pack (ef sf : Fmt) (t : Ty) (f : V3) (m : Mods) : ValueForm :=
  ⟨m, f.g, fun s c act G l =>
    let value (i : Nat) : FVal := sf.value (src G m i f.a t).toNat
    let vs := (maskLanes act).map value
    let b := mxScale ef vs
    let e := mxElement ef (laneMode s c m (mod3Of m) l 0) b.1 b.2.1 (value l)
    out32 f.d (BitVec.ofNat 32 (b.1 * 256 + e.1)) (e.2 ||| (if (value l).isSig || (b.2.1 && !vs.any (·.isNan)) then flIV else 0))⟩

/-- Four six-bit elements widened. -/
def six (g h : Fmt) (f : V3) (m : Mods) : ValueForm :=
  ⟨m, f.g, fun _ _ _ G l => out32 f.d (BitVec.ofNat 32 (expandBytes (expandElem g h) 4 6 (src32 G m l f.a)))⟩

/-- An element decoded by the scale in B. -/
def blk (ef : Fmt) (f : V3) (m : Mods) : ValueForm :=
  ⟨m, f.g, fun s _ _ G l =>
    let r := blkScale ef s.peerNo ((src32 G m l f.a).toNat % 2 ^ ef.width) ((src32 G m l f.b).toNat % 256)
    out32 f.d (BitVec.ofNat 32 r.1) r.2⟩

/-- A value taken from the lane that Table 9-7 names. -/
def exch (t : Ty) (from_ : Nat → Nat → Nat) (f : V3) (m : Mods) : ValueForm :=
  ⟨m, f.g, fun _ _ act G l => outTy t f.d (laneValue G m act f.a t (from_ l (src32 G m l f.b).toNat)).toNat 0⟩

/-- A difference of two lanes of the quad. -/
def quad (fm : Fmt) (t : Ty) (u v : Nat → Nat) (f : V3) (m : Mods) : ValueForm :=
  ⟨m, f.g, fun s _ act G l =>
    let r := fpSub fm .rne s.peerNo (laneValue G m act f.a t (u l)).toNat (laneValue G m act f.a t (v l)).toNat
    outTy t f.d r.1 r.2⟩

/-- A reduction over Active(). -/
def red (t : Ty) (r : Reduction) (f : V3) (m : Mods) : ValueForm :=
  ⟨m, f.g, fun s _ act G l =>
    let x := r.fold s.peerNo ((maskLanes act).map fun i => (src G m i f.a t).toNat)
    outTy t f.d x.1 (x.2 ||| r.own (src G m l f.a t).toNat)⟩

/-- A reduction over the lanes of Active() that give lane `l`'s segment number; a void lane receives the identity. -/
def segRed (t : Ty) (r : Reduction) (f : V3) (m : Mods) : ValueForm :=
  ⟨m, f.g, fun s _ act G l =>
    if (src32 G m l f.b).getLsbD 31 then outTy t f.d r.ident 0
    else
      let x := r.fold s.peerNo
        (((maskLanes act).filter fun i => src32 G m i f.b == src32 G m l f.b).map fun i => (src G m i f.a t).toNat)
      outTy t f.d x.1 (x.2 ||| r.own (src G m l f.a t).toNat)⟩

/-- The integer instructions of majors 0x01 to 0x05 (spec 08 Tables 8-1 to 8-3, R146-R153). -/
inductive Integer : Instr → ValueForm → Prop where
  | iaddS32 (f : V3) (m : Mods) : Integer (.iaddS32 f m) (int32 f m (iadd true (satOf m)))
  | isubS32 (f : V3) (m : Mods) : Integer (.isubS32 f m) (int32 f m (isub true (satOf m)))
  | imulS32 (f : V3) (m : Mods) : Integer (.imulS32 f m) (int32 f m (imul true))
  | imulhS32 (f : V3) (m : Mods) : Integer (.imulhS32 f m) (int32 f m (imulh true))
  | idivS32 (f : V3) (m : Mods) : Integer (.idivS32 f m) (int32 f m (idiv true))
  | iremS32 (f : V3) (m : Mods) : Integer (.iremS32 f m) (int32 f m (irem true))
  | iminS32 (f : V3) (m : Mods) : Integer (.iminS32 f m) (int32 f m (imin true))
  | imaxS32 (f : V3) (m : Mods) : Integer (.imaxS32 f m) (int32 f m (imax true))
  | iabsS32 (f : V3) (m : Mods) : Integer (.iabsS32 f m) (int32 f m (fun a _ => iabs (satOf m) a))
  | inegS32 (f : V3) (m : Mods) : Integer (.inegS32 f m) (int32 f m (fun a _ => ineg true (satOf m) a))
  | shlS32 (f : V3) (m : Mods) : Integer (.shlS32 f m) (int32 f m (ishl))
  | shrS32 (f : V3) (m : Mods) : Integer (.shrS32 f m) (int32 f m (ishr))
  | sarS32 (f : V3) (m : Mods) : Integer (.sarS32 f m) (int32 f m (isar))
  | popcS32 (f : V3) (m : Mods) : Integer (.popcS32 f m) (int32 f m (fun a _ => ipopc a))
  | clzS32 (f : V3) (m : Mods) : Integer (.clzS32 f m) (int32 f m (fun a _ => iclz a))
  | brevS32 (f : V3) (m : Mods) : Integer (.brevS32 f m) (int32 f m (fun a _ => ibrev a))
  | iaddN32 (f : V3) (m : Mods) : Integer (.iaddN32 f m) (int32 f m (iadd false (satOf m)))
  | isubN32 (f : V3) (m : Mods) : Integer (.isubN32 f m) (int32 f m (isub false (satOf m)))
  | imulN32 (f : V3) (m : Mods) : Integer (.imulN32 f m) (int32 f m (imul false))
  | imulhN32 (f : V3) (m : Mods) : Integer (.imulhN32 f m) (int32 f m (imulh false))
  | idivN32 (f : V3) (m : Mods) : Integer (.idivN32 f m) (int32 f m (idiv false))
  | iremN32 (f : V3) (m : Mods) : Integer (.iremN32 f m) (int32 f m (irem false))
  | iminN32 (f : V3) (m : Mods) : Integer (.iminN32 f m) (int32 f m (imin false))
  | imaxN32 (f : V3) (m : Mods) : Integer (.imaxN32 f m) (int32 f m (imax false))
  | inegN32 (f : V3) (m : Mods) : Integer (.inegN32 f m) (int32 f m (fun a _ => ineg false (satOf m) a))
  | shlN32 (f : V3) (m : Mods) : Integer (.shlN32 f m) (int32 f m (ishl))
  | shrN32 (f : V3) (m : Mods) : Integer (.shrN32 f m) (int32 f m (ishr))
  | popcN32 (f : V3) (m : Mods) : Integer (.popcN32 f m) (int32 f m (fun a _ => ipopc a))
  | clzN32 (f : V3) (m : Mods) : Integer (.clzN32 f m) (int32 f m (fun a _ => iclz a))
  | brevN32 (f : V3) (m : Mods) : Integer (.brevN32 f m) (int32 f m (fun a _ => ibrev a))
  | iaddS64 (f : V3) (m : Mods) : Integer (.iaddS64 f m) (int64 .s64 f m (iadd true (satOf m)))
  | isubS64 (f : V3) (m : Mods) : Integer (.isubS64 f m) (int64 .s64 f m (isub true (satOf m)))
  | imulS64 (f : V3) (m : Mods) : Integer (.imulS64 f m) (int64 .s64 f m (imul true))
  | imulhS64 (f : V3) (m : Mods) : Integer (.imulhS64 f m) (int64 .s64 f m (imulh true))
  | idivS64 (f : V3) (m : Mods) : Integer (.idivS64 f m) (int64 .s64 f m (idiv true))
  | iremS64 (f : V3) (m : Mods) : Integer (.iremS64 f m) (int64 .s64 f m (irem true))
  | iminS64 (f : V3) (m : Mods) : Integer (.iminS64 f m) (int64 .s64 f m (imin true))
  | imaxS64 (f : V3) (m : Mods) : Integer (.imaxS64 f m) (int64 .s64 f m (imax true))
  | iabsS64 (f : V3) (m : Mods) : Integer (.iabsS64 f m) (int64 .s64 f m (fun a _ => iabs (satOf m) a))
  | inegS64 (f : V3) (m : Mods) : Integer (.inegS64 f m) (int64 .s64 f m (fun a _ => ineg true (satOf m) a))
  | shlS64 (f : V3) (m : Mods) : Integer (.shlS64 f m) (int64 .s64 f m (ishl))
  | shrS64 (f : V3) (m : Mods) : Integer (.shrS64 f m) (int64 .s64 f m (ishr))
  | sarS64 (f : V3) (m : Mods) : Integer (.sarS64 f m) (int64 .s64 f m (isar))
  | popcS64 (f : V3) (m : Mods) : Integer (.popcS64 f m) (int64 .s64 f m (fun a _ => ipopc a))
  | clzS64 (f : V3) (m : Mods) : Integer (.clzS64 f m) (int64 .s64 f m (fun a _ => iclz a))
  | brevS64 (f : V3) (m : Mods) : Integer (.brevS64 f m) (int64 .s64 f m (fun a _ => ibrev a))
  | iaddN64 (f : V3) (m : Mods) : Integer (.iaddN64 f m) (int64 .b64 f m (iadd false (satOf m)))
  | isubN64 (f : V3) (m : Mods) : Integer (.isubN64 f m) (int64 .b64 f m (isub false (satOf m)))
  | imulN64 (f : V3) (m : Mods) : Integer (.imulN64 f m) (int64 .b64 f m (imul false))
  | imulhN64 (f : V3) (m : Mods) : Integer (.imulhN64 f m) (int64 .b64 f m (imulh false))
  | idivN64 (f : V3) (m : Mods) : Integer (.idivN64 f m) (int64 .b64 f m (idiv false))
  | iremN64 (f : V3) (m : Mods) : Integer (.iremN64 f m) (int64 .b64 f m (irem false))
  | iminN64 (f : V3) (m : Mods) : Integer (.iminN64 f m) (int64 .b64 f m (imin false))
  | imaxN64 (f : V3) (m : Mods) : Integer (.imaxN64 f m) (int64 .b64 f m (imax false))
  | inegN64 (f : V3) (m : Mods) : Integer (.inegN64 f m) (int64 .b64 f m (fun a _ => ineg false (satOf m) a))
  | shlN64 (f : V3) (m : Mods) : Integer (.shlN64 f m) (int64 .b64 f m (ishl))
  | shrN64 (f : V3) (m : Mods) : Integer (.shrN64 f m) (int64 .b64 f m (ishr))
  | popcN64 (f : V3) (m : Mods) : Integer (.popcN64 f m) (int64 .b64 f m (fun a _ => ipopc a))
  | clzN64 (f : V3) (m : Mods) : Integer (.clzN64 f m) (int64 .b64 f m (fun a _ => iclz a))
  | brevN64 (f : V3) (m : Mods) : Integer (.brevN64 f m) (int64 .b64 f m (fun a _ => ibrev a))
  | iaddS16X2 (f : V3) (m : Mods) : Integer (.iaddS16X2 f m) (int32 f m (halves (iadd true (satOf m))))
  | isubS16X2 (f : V3) (m : Mods) : Integer (.isubS16X2 f m) (int32 f m (halves (isub true (satOf m))))
  | imulS16X2 (f : V3) (m : Mods) : Integer (.imulS16X2 f m) (int32 f m (halves (imul true)))
  | iminS16X2 (f : V3) (m : Mods) : Integer (.iminS16X2 f m) (int32 f m (halves (imin true)))
  | imaxS16X2 (f : V3) (m : Mods) : Integer (.imaxS16X2 f m) (int32 f m (halves (imax true)))
  | iminN16X2 (f : V3) (m : Mods) : Integer (.iminN16X2 f m) (int32 f m (halves (imin false)))
  | imaxN16X2 (f : V3) (m : Mods) : Integer (.imaxN16X2 f m) (int32 f m (halves (imax false)))
  | iabsS16X2 (f : V3) (m : Mods) : Integer (.iabsS16X2 f m) (int32 f m (halves (fun a _ => iabs (satOf m) a)))
  | inegS16X2 (f : V3) (m : Mods) : Integer (.inegS16X2 f m) (int32 f m (halves (fun a _ => ineg true (satOf m) a)))
  | shlB16X2 (f : V3) (m : Mods) : Integer (.shlB16X2 f m) (int32 f m (halves ishl))
  | shrB16X2 (f : V3) (m : Mods) : Integer (.shrB16X2 f m) (int32 f m (halves ishr))
  | sarS16X2 (f : V3) (m : Mods) : Integer (.sarS16X2 f m) (int32 f m (halves isar))

/-- Compares, moves, addresses, bit fields, three-operand integer instructions, selections, predicate logic and votes (spec 08
R147, R152, R154-R163). -/
inductive Move : Instr → ValueForm → Prop where
  | movB32 (f : V3) (m : Mods) : Move (.movB32 f m) (int32 f m (fun a _ => (a, 0)))
  | movB64 (f : V3) (m : Mods) : Move (.movB64 f m) (int64 .b64 f m (fun a _ => (a, 0)))
  | leaSh0 (f : V3) (m : Mods) : Move (.leaSh0 f m) (leaForm 0 f m)
  | leaSh1 (f : V3) (m : Mods) : Move (.leaSh1 f m) (leaForm 1 f m)
  | leaSh2 (f : V3) (m : Mods) : Move (.leaSh2 f m) (leaForm 2 f m)
  | leaSh3 (f : V3) (m : Mods) : Move (.leaSh3 f m) (leaForm 3 f m)
  | bfxS32 (f : V3) (m : Mods) : Move (.bfxS32 f m) (int32 f m (fun a b => (bfx true a b, 0)))
  | bfxN32 (f : V3) (m : Mods) : Move (.bfxN32 f m) (int32 f m (fun a b => (bfx false a b, 0)))
  | bfxS64 (f : V3) (m : Mods) : Move (.bfxS64 f m) (field64 true .s64 f m)
  | bfxN64 (f : V3) (m : Mods) : Move (.bfxN64 f m) (field64 false .b64 f m)
  | imadS32 (f : V4) (m : Mods) : Move (.imadS32 f m) (tri32 f m (fun a b c => a * b + c))
  | imadN32 (f : V4) (m : Mods) : Move (.imadN32 f m) (tri32 f m (fun a b c => a * b + c))
  | imadS64 (f : V4) (m : Mods) : Move (.imadS64 f m) (tri64 .s64 .s64 f m (fun a b c => a * b + c))
  | imadN64 (f : V4) (m : Mods) : Move (.imadN64 f m) (tri64 .b64 .b64 f m (fun a b c => a * b + c))
  | logic3B32 (f : V4) (m : Mods) : Move (.logic3B32 f m) (tri32 f m (fun a b c => logic3 (tableOf m) a b c))
  | logic3B64 (f : V4) (m : Mods) : Move (.logic3B64 f m) (tri64 .b64 .b64 f m (fun a b c => logic3 (tableOf m) a b c))
  | fshfLB32 (f : V4) (m : Mods) : Move (.fshfLB32 f m) (tri32 f m (fshf true))
  | fshfRB32 (f : V4) (m : Mods) : Move (.fshfRB32 f m) (tri32 f m (fshf false))
  | bfiB32 (f : V4) (m : Mods) : Move (.bfiB32 f m) (tri32 f m (fun a b c => bfi a b c))
  | bfiB64 (f : V4) (m : Mods) : Move (.bfiB64 f m) (tri64 .b64 .b32 f m (fun a b c => bfi a b (c.extractLsb' 0 32)))
  | selB32 (f : V4) (m : Mods) : Move (.selB32 f m) (sel .b32 f m)
  | selB64 (f : V4) (m : Mods) : Move (.selB64 f m) (sel .b64 f m)
  | voteAny (f : V3) (m : Mods) : Move (.voteAny f m) (vote f m (fun _ v => outPred (hi3 f.d) (v != 0)))
  | voteAll (f : V3) (m : Mods) : Move (.voteAll f m) (vote f m (fun act v => outPred (hi3 f.d) (v == act)))
  | voteBallot (f : V3) (m : Mods) : Move (.voteBallot f m) (vote f m (fun _ v => out32 f.d v))
  | icmp32 (cond : BitVec 4) (f : V3) (m : Mods) :
    Move (.icmp32 cond f m) ⟨m, f.g, fun _ _ _ G l => outPred (hi3 f.d) (icond cond.toNat (src32 G m l f.a) (src32 G m l f.b))⟩
  | icmp64 (cond : BitVec 4) (f : V3) (m : Mods) :
    Move (.icmp64 cond f m) ⟨m, f.g, fun _ _ _ G l =>
      outPred (hi3 f.d) (icond cond.toNat (src G m l f.a (icmpTy cond)) (src G m l f.b (icmpTy cond)))⟩
  | plogic (f : V3) (m : Mods) :
    Move (.plogic f m) ⟨m, f.g, fun _ _ _ G l => outPred (hi3 f.d) ((tableOf m).getLsbD (4 * bit1 ((G.lane l).pred (hi3 f.a)) +
      2 * bit1 ((G.lane l).pred (lo3 f.a)) + bit1 ((G.lane l).pred (hi3 f.b))))⟩

/-- Floating-point arithmetic, compares and special functions (spec 09 R175-R183). -/
inductive Float : Instr → ValueForm → Prop where
  | faddF32 (f : V3) (m : Mods) : Float (.faddF32 f m) (float32 f m (fpAdd fmt32))
  | fsubF32 (f : V3) (m : Mods) : Float (.fsubF32 f m) (float32 f m (fpSub fmt32))
  | fmulF32 (f : V3) (m : Mods) : Float (.fmulF32 f m) (float32 f m (fpMul fmt32))
  | fminF32 (f : V3) (m : Mods) : Float (.fminF32 f m) (float32 f m (fun _ _ a b => fpMinMax fmt32 false a b))
  | fmaxF32 (f : V3) (m : Mods) : Float (.fmaxF32 f m) (float32 f m (fun _ _ a b => fpMinMax fmt32 true a b))
  | frndF32 (f : V3) (m : Mods) : Float (.frndF32 f m) (float32 f m (fun r _ a _ => fpRnd fmt32 r a))
  | faddF64 (f : V3) (m : Mods) : Float (.faddF64 f m) (float64 f m (fpAdd fmt64))
  | fsubF64 (f : V3) (m : Mods) : Float (.fsubF64 f m) (float64 f m (fpSub fmt64))
  | fmulF64 (f : V3) (m : Mods) : Float (.fmulF64 f m) (float64 f m (fpMul fmt64))
  | fminF64 (f : V3) (m : Mods) : Float (.fminF64 f m) (float64 f m (fun _ _ a b => fpMinMax fmt64 false a b))
  | fmaxF64 (f : V3) (m : Mods) : Float (.fmaxF64 f m) (float64 f m (fun _ _ a b => fpMinMax fmt64 true a b))
  | frndF64 (f : V3) (m : Mods) : Float (.frndF64 f m) (float64 f m (fun r _ a _ => fpRnd fmt64 r a))
  | faddF16X2 (f : V3) (m : Mods) : Float (.faddF16X2 f m) (floatX2 f m (fpAdd fmt16))
  | fsubF16X2 (f : V3) (m : Mods) : Float (.fsubF16X2 f m) (floatX2 f m (fpSub fmt16))
  | fmulF16X2 (f : V3) (m : Mods) : Float (.fmulF16X2 f m) (floatX2 f m (fpMul fmt16))
  | fminF16X2 (f : V3) (m : Mods) : Float (.fminF16X2 f m) (floatX2 f m (fun _ _ a b => fpMinMax fmt16 false a b))
  | fmaxF16X2 (f : V3) (m : Mods) : Float (.fmaxF16X2 f m) (floatX2 f m (fun _ _ a b => fpMinMax fmt16 true a b))
  | frndF16X2 (f : V3) (m : Mods) : Float (.frndF16X2 f m) (floatX2 f m (fun r _ a _ => fpRnd fmt16 r a))
  | faddBf16X2 (f : V3) (m : Mods) : Float (.faddBf16X2 f m) (floatX2 f m (fpAdd fmtBf))
  | fsubBf16X2 (f : V3) (m : Mods) : Float (.fsubBf16X2 f m) (floatX2 f m (fpSub fmtBf))
  | fmulBf16X2 (f : V3) (m : Mods) : Float (.fmulBf16X2 f m) (floatX2 f m (fpMul fmtBf))
  | fminBf16X2 (f : V3) (m : Mods) : Float (.fminBf16X2 f m) (floatX2 f m (fun _ _ a b => fpMinMax fmtBf false a b))
  | fmaxBf16X2 (f : V3) (m : Mods) : Float (.fmaxBf16X2 f m) (floatX2 f m (fun _ _ a b => fpMinMax fmtBf true a b))
  | frndBf16X2 (f : V3) (m : Mods) : Float (.frndBf16X2 f m) (floatX2 f m (fun r _ a _ => fpRnd fmtBf r a))
  | ffmaF16X2 (f : V4) (m : Mods) : Float (.ffmaF16X2 f m) (fmaPair fmt16 f m)
  | ffmaBf16X2 (f : V4) (m : Mods) : Float (.ffmaBf16X2 f m) (fmaPair fmtBf f m)
  | fdivF32 (f : V3) (m : Mods) : Float (.fdivF32 f m) (float32 f m (fpDiv fmt32))
  | fsqrtF32 (f : V3) (m : Mods) : Float (.fsqrtF32 f m) (float32 f m (fun r p a _ => fpSqrt fmt32 r p a))
  | frcpF32 (f : V3) (m : Mods) : Float (.frcpF32 f m) (float32 f m (fun _ _ a _ => fpRcp fmt32 a))
  | frsqF32 (f : V3) (m : Mods) : Float (.frsqF32 f m) (float32 f m (fun _ p a _ => fpRsq fmt32 p a))
  | fexp2F32 (f : V3) (m : Mods) : Float (.fexp2F32 f m) (float32 f m (fun _ _ a _ => fpExp2 a))
  | flog2F32 (f : V3) (m : Mods) : Float (.flog2F32 f m) (float32 f m (fun _ p a _ => fpLog2 p a))
  | fsinF32 (f : V3) (m : Mods) : Float (.fsinF32 f m) (float32 f m (fun _ p a _ => fpTrig false p a))
  | fcosF32 (f : V3) (m : Mods) : Float (.fcosF32 f m) (float32 f m (fun _ p a _ => fpTrig true p a))
  | fdivF64 (f : V3) (m : Mods) : Float (.fdivF64 f m) (float64 f m (fpDiv fmt64))
  | fsqrtF64 (f : V3) (m : Mods) : Float (.fsqrtF64 f m) (float64 f m (fun r p a _ => fpSqrt fmt64 r p a))
  | frcpF64 (f : V3) (m : Mods) : Float (.frcpF64 f m) (float64 f m (fun _ _ a _ => fpRcp fmt64 a))
  | frsqF64 (f : V3) (m : Mods) : Float (.frsqF64 f m) (float64 f m (fun _ p a _ => fpRsq fmt64 p a))
  | fclassF32 (f : V3) (m : Mods) :
    Float (.fclassF32 f m) ⟨m, f.g, fun _ _ _ G l => out32 f.d (fpClass fmt32 (src32 G m l f.a).toNat)⟩
  | fclassF64 (f : V3) (m : Mods) :
    Float (.fclassF64 f m) ⟨m, f.g, fun _ _ _ G l => out32 f.d (fpClass fmt64 (src G m l f.a .f64).toNat)⟩
  | ffmaF32 (f : V4) (m : Mods) :
    Float (.ffmaF32 f m) ⟨m, f.g, fun s c _ G l => queued (fpFma fmt32 (laneMode s c m (mod3Of m) l 0) s.peerNo
      (src32 G m l f.a).toNat (src32 G m l f.b).toNat (src32 G m l f.c).toNat)⟩
  | ffmaF64 (f : V4) (m : Mods) :
    Float (.ffmaF64 f m) ⟨m, f.g, fun s c _ G l => queued (fpFma fmt64 (laneMode s c m (mod3Of m) l 0) s.peerNo
      (src G m l f.a .f64).toNat (src G m l f.b .f64).toNat (src G m l f.c .f64).toNat)⟩
  | fcmpF32 (cond : BitVec 3) (f : V3) (m : Mods) :
    Float (.fcmpF32 cond f m) ⟨m, f.g, fun _ _ _ G l =>
      fcmpOut f.d (fpCompare fmt32 cond.toNat (src32 G m l f.a).toNat (src32 G m l f.b).toNat)⟩
  | fcmpF64 (cond : BitVec 3) (f : V3) (m : Mods) :
    Float (.fcmpF64 cond f m) ⟨m, f.g, fun _ _ _ G l =>
      fcmpOut f.d (fpCompare fmt64 cond.toNat (src G m l f.a .f64).toNat (src G m l f.b .f64).toNat)⟩

/-- Conversions and block formats (spec 09 R184-R188). -/
inductive Convert : Instr → ValueForm → Prop where
  | cvt (from4 : BitVec 4) (f : V3) (m : Mods) : Convert (.cvt from4 f m) (cvtForm (mod3Of m) from4 f m)
  | cvtsr (from4 : BitVec 4) (f : V3) (m : Mods) : Convert (.cvtsr from4 f m) (cvtForm 4 from4 f m)
  | cvtmxMxe4m3F32 (f : V3) (m : Mods) : Convert (.cvtmxMxe4m3F32 f m) (pack fmtE4m3 fmt32 .b32 f m)
  | cvtmxMxe5m2F32 (f : V3) (m : Mods) : Convert (.cvtmxMxe5m2F32 f m) (pack fmtE5m2 fmt32 .b32 f m)
  | cvtmxMxe2m1F32 (f : V3) (m : Mods) : Convert (.cvtmxMxe2m1F32 f m) (pack fmtE2m1 fmt32 .b32 f m)
  | cvtmxMxe4m3Bf16 (f : V3) (m : Mods) : Convert (.cvtmxMxe4m3Bf16 f m) (pack fmtE4m3 fmtBf .b16 f m)
  | cvtmxMxe5m2Bf16 (f : V3) (m : Mods) : Convert (.cvtmxMxe5m2Bf16 f m) (pack fmtE5m2 fmtBf .b16 f m)
  | cvtmxMxe2m1Bf16 (f : V3) (m : Mods) : Convert (.cvtmxMxe2m1Bf16 f m) (pack fmtE2m1 fmtBf .b16 f m)
  | expandE4m3E2m3 (f : V3) (m : Mods) : Convert (.expandE4m3E2m3 f m) (six fmtE2m3 fmtE4m3 f m)
  | expandE4m3E3m2 (f : V3) (m : Mods) : Convert (.expandE4m3E3m2 f m) (six fmtE3m2 fmtE4m3 f m)
  | expandE5m2E3m2 (f : V3) (m : Mods) : Convert (.expandE5m2E3m2 f m) (six fmtE3m2 fmtE5m2 f m)
  | blkscaleMxe4m3 (f : V3) (m : Mods) : Convert (.blkscaleMxe4m3 f m) (blk fmtE4m3 f m)
  | blkscaleMxe5m2 (f : V3) (m : Mods) : Convert (.blkscaleMxe5m2 f m) (blk fmtE5m2 f m)
  | blkscaleMxe2m1 (f : V3) (m : Mods) : Convert (.blkscaleMxe2m1 f m) (blk fmtE2m1 f m)
  | expandE4m3I4 (f : V3) (m : Mods) :
    Convert (.expandE4m3I4 f m) ⟨m, f.g, fun _ _ _ G l => out64 f.d (BitVec.ofNat 64 (expandBytes int4ToE4m3 8 4 (src32 G m l f.a)))⟩

/-- Lane exchange, quad differences, reductions and the read of FLAGS (spec 09 R189-R193). -/
inductive Exchange : Instr → ValueForm → Prop where
  | shflIdxB32 (f : V3) (m : Mods) : Exchange (.shflIdxB32 f m) (exch .b32 fromIdx f m)
  | shflUpB32 (f : V3) (m : Mods) : Exchange (.shflUpB32 f m) (exch .b32 fromUp f m)
  | shflDownB32 (f : V3) (m : Mods) : Exchange (.shflDownB32 f m) (exch .b32 fromDown f m)
  | shflXorB32 (f : V3) (m : Mods) : Exchange (.shflXorB32 f m) (exch .b32 fromXor f m)
  | qswapHB32 (f : V3) (m : Mods) : Exchange (.qswapHB32 f m) (exch .b32 (fromSwap 1) f m)
  | qswapVB32 (f : V3) (m : Mods) : Exchange (.qswapVB32 f m) (exch .b32 (fromSwap 2) f m)
  | qswapDB32 (f : V3) (m : Mods) : Exchange (.qswapDB32 f m) (exch .b32 (fromSwap 3) f m)
  | qbcastB32 (f : V3) (m : Mods) : Exchange (.qbcastB32 f m) (exch .b32 fromBcast f m)
  | qderivXFineF32 (f : V3) (m : Mods) :
    Exchange (.qderivXFineF32 f m)
      (quad fmt32 .b32 (fun l => l / 2 * 2 + 1) (fun l => l / 2 * 2) f m)
  | qderivYFineF32 (f : V3) (m : Mods) :
    Exchange (.qderivYFineF32 f m)
      (quad fmt32 .b32 (fun l => l / 4 * 4 + l % 2 + 2) (fun l => l / 4 * 4 + l % 2) f m)
  | qderivXCoarseF32 (f : V3) (m : Mods) :
    Exchange (.qderivXCoarseF32 f m)
      (quad fmt32 .b32 (fun l => l / 4 * 4 + 1) (fun l => l / 4 * 4) f m)
  | qderivYCoarseF32 (f : V3) (m : Mods) :
    Exchange (.qderivYCoarseF32 f m)
      (quad fmt32 .b32 (fun l => l / 4 * 4 + 2) (fun l => l / 4 * 4) f m)
  | shflIdxB64 (f : V3) (m : Mods) : Exchange (.shflIdxB64 f m) (exch .b64 fromIdx f m)
  | shflUpB64 (f : V3) (m : Mods) : Exchange (.shflUpB64 f m) (exch .b64 fromUp f m)
  | shflDownB64 (f : V3) (m : Mods) : Exchange (.shflDownB64 f m) (exch .b64 fromDown f m)
  | shflXorB64 (f : V3) (m : Mods) : Exchange (.shflXorB64 f m) (exch .b64 fromXor f m)
  | qswapHB64 (f : V3) (m : Mods) : Exchange (.qswapHB64 f m) (exch .b64 (fromSwap 1) f m)
  | qswapVB64 (f : V3) (m : Mods) : Exchange (.qswapVB64 f m) (exch .b64 (fromSwap 2) f m)
  | qswapDB64 (f : V3) (m : Mods) : Exchange (.qswapDB64 f m) (exch .b64 (fromSwap 3) f m)
  | qbcastB64 (f : V3) (m : Mods) : Exchange (.qbcastB64 f m) (exch .b64 fromBcast f m)
  | qderivXFineF64 (f : V3) (m : Mods) :
    Exchange (.qderivXFineF64 f m)
      (quad fmt64 .f64 (fun l => l / 2 * 2 + 1) (fun l => l / 2 * 2) f m)
  | qderivYFineF64 (f : V3) (m : Mods) :
    Exchange (.qderivYFineF64 f m)
      (quad fmt64 .f64 (fun l => l / 4 * 4 + l % 2 + 2) (fun l => l / 4 * 4 + l % 2) f m)
  | qderivXCoarseF64 (f : V3) (m : Mods) :
    Exchange (.qderivXCoarseF64 f m)
      (quad fmt64 .f64 (fun l => l / 4 * 4 + 1) (fun l => l / 4 * 4) f m)
  | qderivYCoarseF64 (f : V3) (m : Mods) :
    Exchange (.qderivYCoarseF64 f m)
      (quad fmt64 .f64 (fun l => l / 4 * 4 + 2) (fun l => l / 4 * 4) f m)
  | gredSumF32 (f : V3) (m : Mods) : Exchange (.gredSumF32 f m) (red .b32 (redSumF fmt32) f m)
  | gredMinF32 (f : V3) (m : Mods) : Exchange (.gredMinF32 f m) (red .b32 (redMinMaxF fmt32 false) f m)
  | gredMaxF32 (f : V3) (m : Mods) : Exchange (.gredMaxF32 f m) (red .b32 (redMinMaxF fmt32 true) f m)
  | gredSumS32 (f : V3) (m : Mods) : Exchange (.gredSumS32 f m) (red .b32 (redSumI 32) f m)
  | gredMinS32 (f : V3) (m : Mods) : Exchange (.gredMinS32 f m) (red .b32 (redMinMaxI false) f m)
  | gredMaxS32 (f : V3) (m : Mods) : Exchange (.gredMaxS32 f m) (red .b32 (redMinMaxI true) f m)
  | gredSumF64 (f : V3) (m : Mods) : Exchange (.gredSumF64 f m) (red .f64 (redSumF fmt64) f m)
  | gredSumS64 (f : V3) (m : Mods) : Exchange (.gredSumS64 f m) (red .s64 (redSumI 64) f m)
  | gredSegSumF32 (f : V3) (m : Mods) : Exchange (.gredSegSumF32 f m) (segRed .b32 (redSumF fmt32) f m)
  | gredSegMinF32 (f : V3) (m : Mods) : Exchange (.gredSegMinF32 f m) (segRed .b32 (redMinMaxF fmt32 false) f m)
  | gredSegMaxF32 (f : V3) (m : Mods) : Exchange (.gredSegMaxF32 f m) (segRed .b32 (redMinMaxF fmt32 true) f m)
  | gredSegSumS32 (f : V3) (m : Mods) : Exchange (.gredSegSumS32 f m) (segRed .b32 (redSumI 32) f m)
  | gredSegMinS32 (f : V3) (m : Mods) : Exchange (.gredSegMinS32 f m) (segRed .b32 (redMinMaxI false) f m)
  | gredSegMaxS32 (f : V3) (m : Mods) : Exchange (.gredSegMaxS32 f m) (segRed .b32 (redMinMaxI true) f m)
  | gredSegSumF64 (f : V3) (m : Mods) : Exchange (.gredSegSumF64 f m) (segRed .f64 (redSumF fmt64) f m)
  | gredSegSumS64 (f : V3) (m : Mods) : Exchange (.gredSegSumS64 f m) (segRed .s64 (redSumI 64) f m)
  | flagrd (f : V3) (m : Mods) :
    Exchange (.flagrd f m) ⟨m, f.g, fun _ _ _ G _ => out32 f.d G.flags⟩

/-- The read of a system register (spec 20 R409). -/
inductive SystemRead : Instr → ValueForm → Prop where
  | sysrd (f : FY) (m : Mods) :
    SystemRead (.sysrd f m) ⟨m, 0, fun s c _ G l => wordOut (sysWide f.n.toNat) f.d (s.sysReg c G l f.n.toNat)⟩

/-! ## Memory -/

/-- An element load: the space, the bytes read, the slots pushed, and what a lane receives for the value read (spec 11 R223). -/
inductive Load : Instr → V3 → Mods → Space → Nat → Nat → (Nat → LaneOut) → Prop where
  | ldN8 (f : V3) (m : Mods) : Load (.ldN8 f m) f m .global 1 1 (loadZero f.d)
  | ldS8 (f : V3) (m : Mods) : Load (.ldS8 f m) f m .global 1 1 (loadSign 8 f.d)
  | ldN16 (f : V3) (m : Mods) : Load (.ldN16 f m) f m .global 2 1 (loadZero f.d)
  | ldS16 (f : V3) (m : Mods) : Load (.ldS16 f m) f m .global 2 1 (loadSign 16 f.d)
  | ldB32 (f : V3) (m : Mods) : Load (.ldB32 f m) f m .global 4 1 (loadZero f.d)
  | ldB64 (f : V3) (m : Mods) : Load (.ldB64 f m) f m .global 8 1 (load64 f.d)
  | ldB128 (f : V3) (m : Mods) : Load (.ldB128 f m) f m .global 16 2 (load128 f.d)
  | ldN8Scr (f : V3) (m : Mods) : Load (.ldN8Scr f m) f m .scratch 1 1 (loadZero f.d)
  | ldS8Scr (f : V3) (m : Mods) : Load (.ldS8Scr f m) f m .scratch 1 1 (loadSign 8 f.d)
  | ldN16Scr (f : V3) (m : Mods) : Load (.ldN16Scr f m) f m .scratch 2 1 (loadZero f.d)
  | ldS16Scr (f : V3) (m : Mods) : Load (.ldS16Scr f m) f m .scratch 2 1 (loadSign 16 f.d)
  | ldB32Scr (f : V3) (m : Mods) : Load (.ldB32Scr f m) f m .scratch 4 1 (loadZero f.d)
  | ldB64Scr (f : V3) (m : Mods) : Load (.ldB64Scr f m) f m .scratch 8 1 (load64 f.d)
  | ldB128Scr (f : V3) (m : Mods) : Load (.ldB128Scr f m) f m .scratch 16 2 (load128 f.d)
  | ldN8Cscr (f : V3) (m : Mods) : Load (.ldN8Cscr f m) f m .cluster 1 1 (loadZero f.d)
  | ldS8Cscr (f : V3) (m : Mods) : Load (.ldS8Cscr f m) f m .cluster 1 1 (loadSign 8 f.d)
  | ldN16Cscr (f : V3) (m : Mods) : Load (.ldN16Cscr f m) f m .cluster 2 1 (loadZero f.d)
  | ldS16Cscr (f : V3) (m : Mods) : Load (.ldS16Cscr f m) f m .cluster 2 1 (loadSign 16 f.d)
  | ldB32Cscr (f : V3) (m : Mods) : Load (.ldB32Cscr f m) f m .cluster 4 1 (loadZero f.d)
  | ldB64Cscr (f : V3) (m : Mods) : Load (.ldB64Cscr f m) f m .cluster 8 1 (load64 f.d)
  | ldB128Cscr (f : V3) (m : Mods) : Load (.ldB128Cscr f m) f m .cluster 16 2 (load128 f.d)

/-- An element store: the space, the bytes written, and the number a lane stores (spec 11 R223). -/
inductive Store : Instr → V3 → Mods → Space → Nat → (Group → Nat → Nat) → Prop where
  | stB8 (f : V3) (m : Mods) : Store (.stB8 f m) f m .global 1 (dataOf f m .b8)
  | stB16 (f : V3) (m : Mods) : Store (.stB16 f m) f m .global 2 (dataOf f m .b16)
  | stB32 (f : V3) (m : Mods) : Store (.stB32 f m) f m .global 4 (dataOf f m .b32)
  | stB64 (f : V3) (m : Mods) : Store (.stB64 f m) f m .global 8 (dataOf f m .b64)
  | stB128 (f : V3) (m : Mods) : Store (.stB128 f m) f m .global 16 (data128 f.d)
  | stB8Scr (f : V3) (m : Mods) : Store (.stB8Scr f m) f m .scratch 1 (dataOf f m .b8)
  | stB16Scr (f : V3) (m : Mods) : Store (.stB16Scr f m) f m .scratch 2 (dataOf f m .b16)
  | stB32Scr (f : V3) (m : Mods) : Store (.stB32Scr f m) f m .scratch 4 (dataOf f m .b32)
  | stB64Scr (f : V3) (m : Mods) : Store (.stB64Scr f m) f m .scratch 8 (dataOf f m .b64)
  | stB128Scr (f : V3) (m : Mods) : Store (.stB128Scr f m) f m .scratch 16 (data128 f.d)
  | stB8Cscr (f : V3) (m : Mods) : Store (.stB8Cscr f m) f m .cluster 1 (dataOf f m .b8)
  | stB16Cscr (f : V3) (m : Mods) : Store (.stB16Cscr f m) f m .cluster 2 (dataOf f m .b16)
  | stB32Cscr (f : V3) (m : Mods) : Store (.stB32Cscr f m) f m .cluster 4 (dataOf f m .b32)
  | stB64Cscr (f : V3) (m : Mods) : Store (.stB64Cscr f m) f m .cluster 8 (dataOf f m .b64)
  | stB128Cscr (f : V3) (m : Mods) : Store (.stB128Cscr f m) f m .cluster 16 (data128 f.d)

/-- A tile load: the space, and whether it checks the tile's version (spec 11 R229, R231). -/
inductive TileLoad : Instr → V3 → Mods → Space → Bool → Prop where
  | tld (f : V3) (m : Mods) : TileLoad (.tld f m) f m .global false
  | tldVer (f : V3) (m : Mods) : TileLoad (.tldVer f m) f m .global true
  | tldScr (f : V3) (m : Mods) : TileLoad (.tldScr f m) f m .scratch false
  | tldVerScr (f : V3) (m : Mods) : TileLoad (.tldVerScr f m) f m .scratch true

/-- A tile store: the space, and whether the lanes' runs are one store (spec 11 R230). -/
inductive TileStore : Instr → V3 → Mods → Space → Bool → Prop where
  | tst (f : V3) (m : Mods) : TileStore (.tst f m) f m .global false
  | tstWhole (f : V3) (m : Mods) : TileStore (.tstWhole f m) f m .global true
  | tstScr (f : V3) (m : Mods) : TileStore (.tstScr f m) f m .scratch false
  | tstWholeScr (f : V3) (m : Mods) : TileStore (.tstWholeScr f m) f m .scratch true

/-- A ragged access: the space, and whether it stores (spec 11 R232). -/
inductive Ragged : Instr → V3 → Mods → Space → Bool → Prop where
  | rld (f : V3) (m : Mods) : Ragged (.rld f m) f m .global false
  | rst (f : V3) (m : Mods) : Ragged (.rst f m) f m .global true
  | rldScr (f : V3) (m : Mods) : Ragged (.rldScr f m) f m .scratch false
  | rstScr (f : V3) (m : Mods) : Ragged (.rstScr f m) f m .scratch true

/-- An atomic: the space, whether it is 64 bits wide, and its operation (spec 11 Table 11-3). -/
inductive Atom : Instr → V3 → Mods → Space → Bool → AtomOp → Prop where
  | atomAddB32 (f : V3) (m : Mods) : Atom (.atomAddB32 f m) f m .global false .add
  | atomAddB64 (f : V3) (m : Mods) : Atom (.atomAddB64 f m) f m .global true .add
  | atomAddB32Scr (f : V3) (m : Mods) : Atom (.atomAddB32Scr f m) f m .scratch false .add
  | atomAddB64Scr (f : V3) (m : Mods) : Atom (.atomAddB64Scr f m) f m .scratch true .add
  | atomMinSB32 (f : V3) (m : Mods) : Atom (.atomMinSB32 f m) f m .global false .minS
  | atomMinSB64 (f : V3) (m : Mods) : Atom (.atomMinSB64 f m) f m .global true .minS
  | atomMinSB32Scr (f : V3) (m : Mods) : Atom (.atomMinSB32Scr f m) f m .scratch false .minS
  | atomMinSB64Scr (f : V3) (m : Mods) : Atom (.atomMinSB64Scr f m) f m .scratch true .minS
  | atomMaxSB32 (f : V3) (m : Mods) : Atom (.atomMaxSB32 f m) f m .global false .maxS
  | atomMaxSB64 (f : V3) (m : Mods) : Atom (.atomMaxSB64 f m) f m .global true .maxS
  | atomMaxSB32Scr (f : V3) (m : Mods) : Atom (.atomMaxSB32Scr f m) f m .scratch false .maxS
  | atomMaxSB64Scr (f : V3) (m : Mods) : Atom (.atomMaxSB64Scr f m) f m .scratch true .maxS
  | atomMinNB32 (f : V3) (m : Mods) : Atom (.atomMinNB32 f m) f m .global false .minN
  | atomMinNB64 (f : V3) (m : Mods) : Atom (.atomMinNB64 f m) f m .global true .minN
  | atomMinNB32Scr (f : V3) (m : Mods) : Atom (.atomMinNB32Scr f m) f m .scratch false .minN
  | atomMinNB64Scr (f : V3) (m : Mods) : Atom (.atomMinNB64Scr f m) f m .scratch true .minN
  | atomMaxNB32 (f : V3) (m : Mods) : Atom (.atomMaxNB32 f m) f m .global false .maxN
  | atomMaxNB64 (f : V3) (m : Mods) : Atom (.atomMaxNB64 f m) f m .global true .maxN
  | atomMaxNB32Scr (f : V3) (m : Mods) : Atom (.atomMaxNB32Scr f m) f m .scratch false .maxN
  | atomMaxNB64Scr (f : V3) (m : Mods) : Atom (.atomMaxNB64Scr f m) f m .scratch true .maxN
  | atomAndB32 (f : V3) (m : Mods) : Atom (.atomAndB32 f m) f m .global false .and
  | atomAndB64 (f : V3) (m : Mods) : Atom (.atomAndB64 f m) f m .global true .and
  | atomAndB32Scr (f : V3) (m : Mods) : Atom (.atomAndB32Scr f m) f m .scratch false .and
  | atomAndB64Scr (f : V3) (m : Mods) : Atom (.atomAndB64Scr f m) f m .scratch true .and
  | atomOrB32 (f : V3) (m : Mods) : Atom (.atomOrB32 f m) f m .global false .or
  | atomOrB64 (f : V3) (m : Mods) : Atom (.atomOrB64 f m) f m .global true .or
  | atomOrB32Scr (f : V3) (m : Mods) : Atom (.atomOrB32Scr f m) f m .scratch false .or
  | atomOrB64Scr (f : V3) (m : Mods) : Atom (.atomOrB64Scr f m) f m .scratch true .or
  | atomXorB32 (f : V3) (m : Mods) : Atom (.atomXorB32 f m) f m .global false .xor
  | atomXorB64 (f : V3) (m : Mods) : Atom (.atomXorB64 f m) f m .global true .xor
  | atomXorB32Scr (f : V3) (m : Mods) : Atom (.atomXorB32Scr f m) f m .scratch false .xor
  | atomXorB64Scr (f : V3) (m : Mods) : Atom (.atomXorB64Scr f m) f m .scratch true .xor
  | atomExchB32 (f : V3) (m : Mods) : Atom (.atomExchB32 f m) f m .global false .exch
  | atomExchB64 (f : V3) (m : Mods) : Atom (.atomExchB64 f m) f m .global true .exch
  | atomExchB32Scr (f : V3) (m : Mods) : Atom (.atomExchB32Scr f m) f m .scratch false .exch
  | atomExchB64Scr (f : V3) (m : Mods) : Atom (.atomExchB64Scr f m) f m .scratch true .exch
  | atomCasB32 (f : V3) (m : Mods) : Atom (.atomCasB32 f m) f m .global false .cas
  | atomCasB64 (f : V3) (m : Mods) : Atom (.atomCasB64 f m) f m .global true .cas
  | atomCasB32Scr (f : V3) (m : Mods) : Atom (.atomCasB32Scr f m) f m .scratch false .cas
  | atomCasB64Scr (f : V3) (m : Mods) : Atom (.atomCasB64Scr f m) f m .scratch true .cas
  | atomFaddF32 (f : V3) (m : Mods) : Atom (.atomFaddF32 f m) f m .global false .fadd
  | atomFaddF64 (f : V3) (m : Mods) : Atom (.atomFaddF64 f m) f m .global true .fadd
  | atomFaddF32Scr (f : V3) (m : Mods) : Atom (.atomFaddF32Scr f m) f m .scratch false .fadd
  | atomFaddF64Scr (f : V3) (m : Mods) : Atom (.atomFaddF64Scr f m) f m .scratch true .fadd

/-- A scalar load: the bytes read (spec 11 R237). -/
inductive ScalarLoad : Instr → FS → Mods → Nat → Prop where
  | sldB32 (f : FS) (m : Mods) : ScalarLoad (.sldB32 f m) f m 4
  | sldB64 (f : FS) (m : Mods) : ScalarLoad (.sldB64 f m) f m 8

/-- A scalar store: the bytes written (spec 11 R237). -/
inductive ScalarStore : Instr → FS → Mods → Nat → Prop where
  | sstB32 (f : FS) (m : Mods) : ScalarStore (.sstB32 f m) f m 4
  | sstB64 (f : FS) (m : Mods) : ScalarStore (.sstB64 f m) f m 8

/-- A scalar atomic: whether it is 64 bits wide, and its operation (spec 11 R237). -/
inductive ScalarAtom : Instr → FS → Mods → Bool → AtomOp → Prop where
  | atomsAddB32 (f : FS) (m : Mods) : ScalarAtom (.atomsAddB32 f m) f m false .add
  | atomsMaxN32 (f : FS) (m : Mods) : ScalarAtom (.atomsMaxN32 f m) f m false .maxN
  | atomsExchB32 (f : FS) (m : Mods) : ScalarAtom (.atomsExchB32 f m) f m false .exch
  | atomsAddB64 (f : FS) (m : Mods) : ScalarAtom (.atomsAddB64 f m) f m true .add
  | atomsMaxN64 (f : FS) (m : Mods) : ScalarAtom (.atomsMaxN64 f m) f m true .maxN
  | atomsExchB64 (f : FS) (m : Mods) : ScalarAtom (.atomsExchB64 f m) f m true .exch

/-! ## Scalars -/

/-- A scalar instruction: what `s[SD]` becomes from `s[SA]` and SB (spec 08 R168, R169). -/
inductive Scalar : Instr → FS → Mods → (W64 → W64 → W64) → Prop where
  | sadd (f : FS) (m : Mods) : Scalar (.sadd f m) f m (· + ·)
  | ssub (f : FS) (m : Mods) : Scalar (.ssub f m) f m (· - ·)
  | smul (f : FS) (m : Mods) : Scalar (.smul f m) f m (· * ·)
  | sand (f : FS) (m : Mods) : Scalar (.sand f m) f m (· &&& ·)
  | sor (f : FS) (m : Mods) : Scalar (.sor f m) f m (· ||| ·)
  | sxor (f : FS) (m : Mods) : Scalar (.sxor f m) f m (· ^^^ ·)
  | sshl (f : FS) (m : Mods) : Scalar (.sshl f m) f m (fun a b => (ishl a b).1)
  | sshr (f : FS) (m : Mods) : Scalar (.sshr f m) f m (fun a b => (ishr a b).1)
  | scmp (f : FS) (m : Mods) : Scalar (.scmp f m) f m (fun a b => if icond (f.sx.toNat / 2) a b then 1 else 0)
  | smov (f : FS) (m : Mods) : Scalar (.smov f m) f m (fun _ b => b)

/-! ## Control -/

/-- Every lane goes on at the next word. -/
def toNext (c : Inst) (m : Mods) : Nat → Option W32 := fun _ => some (afterUnit c.pc m)

/-- The lanes of `act` go to their targets; every other lane, and a helper lane whose target may not be taken, to the next word. -/
def toTargets (c : Inst) (m : Mods) (G : Group) (act : LaneMask) (target : Nat → W32) (may : W32 → Bool) : Nat → Option W32 :=
  fun l => if act.getLsbD l && !((G.lane l).helper && !may (target l)) then some (target l) else some (afterUnit c.pc m)

/-- An offset inside the code of an instance. -/
def inCode (s : State) (c : Inst) (n : W32) : Bool := decide (n.toNat < (s.instKernel c).codeSize)

/-- A packet inside the code of an instance. -/
def isPacket (s : State) (c : Inst) (n : W32) : Bool := n.toNat % 12 == 0 && inCode s c n

/-- Every lane of `act` but a helper lane has a target that may be taken. -/
def AllMay (G : Group) (act : LaneMask) (target : Nat → W32) (may : W32 → Bool) : Prop :=
  ∀ l, l < 32 → act.getLsbD l = true → (G.lane l).helper = false → may (target l) = true

/-- The word that REJOIN, ENROL and JMPI share with BR: the number of a rejoin mask. -/
def rejoinMask (G : Group) (f : FB) : W64 := G.masks.getD (maskNo f) 0

/-! ## Traps of an instance -/

/-- A mask holds exactly the lanes of which `p` holds. -/
def Exactly (mask : LaneMask) (p : Nat → Prop) : Prop := ∀ k, k < 32 → (mask.getLsbD k = true ↔ p k)

/-- Outcome `r` is a trap of instance `c` in exactly the lanes of which `p` holds. -/
def TrapsIn (r : Res) (s : State) (c : Inst) (m : Mods) (x : LaneMask → TrapInfo) (p : Nat → Prop) : Prop :=
  ∃ mask, Exactly mask p ∧ r = .next (s.instTrap c m (x mask))

/-- Instruction `i` traps in exactly the lanes of which `bad` holds when one does, reporting the lowest of them with `v` in
TRAPDETAIL1. -/
def TrapsWhere (i : Instr) (s : State) (c : Inst) (m : Mods) (bad : Nat → Prop) (cause reason : Nat) (v : Nat → W32) : Prop :=
  ∀ l, l < 32 → bad l → (∀ k, k < l → ¬ bad k) →
    TrapsIn (exec i s) s c m (fun mask => trapOf cause l reason 0x20 (v l) 0 mask) bad

/-- Instruction `i`, whose next word lies outside the code, traps in its lanes other than helper lanes (spec 01 R19); an instance of
helper lanes alone ends in outcome `done`. -/
def FallsOut (i : Instr) (s : State) (c : Inst) (m : Mods) (done : Res) : Prop :=
  (∀ l, l ∈ maskLanes c.mask → ((s.instGrp c).lane l).helper = false →
    (∀ k ∈ maskLanes c.mask, ((s.instGrp c).lane k).helper = false → l ≤ k) →
    TrapsIn (exec i s) s c m (fun mask => trapOf 7 l 11 0x20 (afterUnit c.pc m) 0 mask)
      fun k => c.mask.getLsbD k = true ∧ ((s.instGrp c).lane k).helper = false) ∧
  ((∀ l ∈ maskLanes c.mask, ((s.instGrp c).lane l).helper = true) → exec i s = done)

/-! ## What memory instances ask for and leave -/

/-- The lanes of Active() that take part in an instruction that helper lanes do not perform. -/
def performing (G : Group) (act : LaneMask) : List Nat := (maskLanes act).filter fun l => !(G.lane l).helper

/-- What lane `l` of an element access asks for. -/
def elemOf (G : Group) (f : V3) (m : Mods) (sp : Space) (acc : Acc) (n l : Nat) : LaneReq :=
  elemReq sp acc n n n (elemAddr G m f n l)

/-- The bytes at the keys of a request of lane `l`, as a number. -/
def valueAt (s : State) (c : Inst) (l : Nat) (r : LaneReq) : Nat := leNat ((s.keysOf c l r).map (memRead s.mem))

/-- The cells of a number at the keys of a request of lane `l`. -/
def cellsAt (s : State) (c : Inst) (l : Nat) (r : LaneReq) (v : Nat) : List Host.Cell :=
  (s.keysOf c l r).zip (leBytes (s.keysOf c l r).length v)

/-- The cells of lanes written in order, each lane's as one write. -/
def writeLanes (s : State) (ls : List Nat) (cells : Nat → List Host.Cell) : State :=
  ls.foldl (fun s l => s.wrCells (cells l)) s

/-- The operation of an atomic in lane `l`. -/
def atomOf (op : AtomOp) (wide : Bool) (f : V3) (m : Mods) (G : Group) (l : Nat) : PeerAtomic :=
  ⟨op, wide, src G m l f.b (atomTy op wide), if op == .cas then src G m l f.d (atomTy op wide) else 0⟩

/-- What lane `l` of an atomic asks for. -/
def atomReq (sp : Space) (op : AtomOp) (wide : Bool) (f : V3) (m : Mods) (G : Group) (l : Nat) : LaneReq :=
  elemReq sp (.atomic (atomOf op wide f m G l)) (if wide then 8 else 4) (if wide then 8 else 4) (if wide then 8 else 4)
    (baseAddr G m f.a l)

/-- One atomic on the bytes at `ks` in state `u`: the old value, the new one and its flags. -/
def atomStep (peer : Nat) (p : PeerAtomic) (u : State) (ks : List Nat) : Nat × Nat × FlagBits :=
  let x := leNat (ks.map (memRead u.mem))
  let r := atomNew (if p.wide then 64 else 32) p.op peer x p.operand.toNat p.cmp.toNat
  (x, r.1, r.2)

/-- The state after one atomic: a compare that fails writes nothing. -/
def atomDone (peer : Nat) (p : PeerAtomic) (u : State) (ks : List Nat) : State :=
  let r := atomStep peer p u ks
  if p.op = .cas ∧ r.1 ≠ p.cmp.toNat then u else u.wrCells (ks.zip (leBytes ks.length r.2.1))

/-- The atomics of lanes performed in order. -/
def atomLanes (peer : Nat) (p : Nat → PeerAtomic) (ks : Nat → List Nat) (ls : List Nat) (s : State) : State :=
  ls.foldl (fun u l => atomDone peer (p l) u (ks l)) s

/-- What a lane receives for the old value of its location and the flags. -/
def atomOut (op : AtomOp) (wide : Bool) (d : BitVec 6) (x : Nat) (fl : FlagBits) : LaneOut :=
  if op = .cas then { pushes := [BitVec.ofNat 64 x] }
  else if wide then out64 d (BitVec.ofNat 64 x) fl else out32 d (BitVec.ofNat 32 x) fl

/-- What lane `l` of a tile access asks for. -/
def tileOf (sp : Space) (acc : Acc) (ver : Bool) (f : V3) (m : Mods) (G : Group) (l : Nat) : LaneReq :=
  tileReq sp acc ver (baseAddr G m f.a l) (src G m l f.b .b64)

/-- The run of elements that lane `l` of a tile access moves. -/
def runOf (ver : Bool) (f : V3) (m : Mods) (G : Group) (l : Nat) : TileRun :=
  tileRunOf ver (baseAddr G m f.a l) (src G m l f.b .b64)

/-- The elements of a run as lane `l` reads them in state `u` at the keys its request has in state `s`. -/
def runAt (u s : State) (c : Inst) (l : Nat) (r : LaneReq) (t : TileRun) : Nat :=
  gatherRun t.bits t.es t.offs ((s.keysOf c l r).map (memRead u.mem))

/-- The cells that lane `l` writes for a run in state `u`: the bits of other elements are kept. -/
def runCellsAt (u s : State) (c : Inst) (l : Nat) (r : LaneReq) (t : TileRun) (v : Nat) : List Host.Cell :=
  (s.keysOf c l r).zip (spreadRun t.bits t.es t.offs ((s.keysOf c l r).map (memRead u.mem)) v)

/-- Runs stored by lanes in order. -/
def storeRuns (s : State) (c : Inst) (r : Nat → LaneReq) (t : Nat → TileRun) (v : Nat → Nat) (ls : List Nat) : State :=
  ls.foldl (fun u l => u.wrCells (runCellsAt u s c l (r l) (t l) (v l))) s

/-- The state in which a ragged access fetches its records: cache entries that show another version are gone. -/
def freshShapes (s : State) (c : Inst) (act : LaneMask) (f : V3) (m : Mods) (store : Bool) : State :=
  s.dropStale c (((maskLanes act).filter fun l => !(((s.instGrp c).lane l).helper && store)).map fun l =>
    (l, (raggedArg (s.instGrp c) m f l).ra))

/-- The record that lane `l` of a ragged access fetches. -/
def recordOf (s : State) (c : Inst) (act : LaneMask) (f : V3) (m : Mods) (store : Bool) (l : Nat) : RecFetch :=
  (freshShapes s c act f m store).recordFor c l (raggedArg (s.instGrp c) m f l).ra
    (Acc.kind (if store then .write else .read))

/-- What lane `l` of a ragged access asks for. -/
def raggedOf (s : State) (c : Inst) (act : LaneMask) (f : V3) (m : Mods) (sp : Space) (store : Bool) (l : Nat) : LaneReq :=
  raggedReq sp (if store then .write else .read) m (raggedArg (s.instGrp c) m f l) (recordOf s c act f m store l)

/-- What the instance of a scalar access asks for. -/
def scalarOf (G : Group) (f : FS) (m : Mods) (n : Nat) (acc : Acc) : LaneReq :=
  elemReq (scalarSpace f.sx) acc n n n (scalarAddr G f m)

/-- The operation of a scalar atomic. -/
def scalarAtomOf (G : Group) (f : FS) (op : AtomOp) (wide : Bool) : PeerAtomic :=
  ⟨op, wide, if wide then G.sreg f.sd.toNat else (G.sreg f.sd.toNat &&& 0xFFFFFFFF), 0⟩

/-- A memory instruction leaves memory, its unit but for translations, and the engines as they were. -/
def SameMemory (s t : State) : Prop :=
  t.mem = s.mem ∧ t.poison = s.poison ∧ t.eng = s.eng ∧ ∃ tlb, t.mm = { s.mm with tlb := tlb }

/-- Memory after a store is that of state `w`; the memory unit but for translations and the engines are as they were. -/
def MemoryOf (w s t : State) : Prop :=
  t.mem = w.mem ∧ t.poison = w.poison ∧ t.eng = s.eng ∧ ∃ tlb, t.mm = { s.mm with tlb := tlb }

/-- The memory instructions of lanes whose checks one statement covers: fields, extension and literal, slots pushed, whether helper
lanes take part (spec 11 R241), whether the lanes are one event (spec 11 R230, R231), the state in which they are checked, and what
a lane asks for. -/
inductive Accesses : Instr → V3 → Mods → Nat → Bool → Bool → (State → Inst → State) → (State → Inst → Nat → LaneReq) → Prop
  | load {i f m sp n pushes out} : Load i f m sp n pushes out →
    Accesses i f m pushes true false (fun s _ => s) fun s c => elemOf (s.instGrp c) f m sp .read n
  | store {i f m sp n val} : Store i f m sp n val →
    Accesses i f m 0 false false (fun s _ => s) fun s c => elemOf (s.instGrp c) f m sp .write n
  | atom {i f m sp wide op} : Atom i f m sp wide op →
    Accesses i f m 1 false false (fun s _ => s) fun s c => atomReq sp op wide f m (s.instGrp c)
  | tileLoad {i f m sp ver} : TileLoad i f m sp ver →
    Accesses i f m 2 true ver (fun s _ => s) fun s c => tileOf sp .read ver f m (s.instGrp c)
  | tileStore {i f m sp whole} : TileStore i f m sp whole →
    Accesses i f m 0 false whole (fun s _ => s) fun s c => tileOf sp .write false f m (s.instGrp c)
  | ragged {i f m sp store} : Ragged i f m sp store →
    Accesses i f m (if store then 0 else 2) (!store) false
      (fun s c => freshShapes s c (activeOf s c f.g.toNat (guardNeg m)) f m store)
      fun s c => raggedOf s c (activeOf s c f.g.toNat (guardNeg m)) f m sp store

/-- Whether bytes are there for a unit that reads or writes them: on this device or in host memory, held back by no package. -/
def KeysHere (s : State) (ks : List (Nat × Bool)) : Prop := ∀ k ∈ ks, s.isPeerKey k.1 = false ∧ s.dirBlocks (k.1 / 128) true = false

/-- Nothing but the checks of the lanes `ls` decides: none has been performed, no page table that they need is held by another
package, and what they read first is here. -/
def Decided (s : State) (c : Inst) (ls : List Nat) (seen : Nat → LaneAcc) : Prop :=
  ∀ l ∈ ls, s.partOf (c.team, c.group, l) = none ∧ (seen l).busy = [] ∧ KeysHere s ((seen l).pre ++ (seen l).look)

/-- Entries in the `b`-th SCRATCH bank of a team (spec 10 R201). -/
def entriesIn (T : Team) (b : Nat) : Nat :=
  ((T.scratchBanks.getD b ⟨0, .off, false, 0, 0⟩).tail + 4096 - (T.scratchBanks.getD b ⟨0, .off, false, 0, 0⟩).head) % 4096

/-- A lane that met no condition misses a page, an absent line, or an entry or a free slot of its queue (spec 10 R201, R203, R211). -/
def Misses (T : Team) (reads : Bool) (a : LaneAcc) : Prop :=
  a.pages ≠ [] ∨ a.lines ≠ [] ∨ ∃ b, a.fifo = some b ∧ if reads then entriesIn T b = 0 else 2048 ≤ entriesIn T b

/-- An aligned access of `n` bytes in cluster space lies within the scratchpad of a team of the set, each of whose teams that stands
dispatched has the banks its kernel asks for (spec 10 R196, R198). -/
def InSet (s : State) (c : Inst) (K : Kernel) (a : W64) (n : Nat) : Prop :=
  a.toNat % n = 0 ∧ a.toNat < 2 ^ 35 ∧ a.toNat / 2 ^ 32 < K.setSize ∧
    a.toNat % 2 ^ 32 + n ≤ 32768 * ceilDiv K.scratch 32768 ∧
    ∀ T ∈ s.teams, T.grid = (s.team c.team).grid → ceilDiv K.scratch 32768 ≤ T.scratchBanks.length

/-- A scalar access: its bytes and what it does to them (spec 11 R237). -/
inductive ScalarAccess (G : Group) : Instr → FS → Mods → Nat → Acc → Prop
  | load {i f m n} : ScalarLoad i f m n → ScalarAccess G i f m n .read
  | store {i f m n} : ScalarStore i f m n → ScalarAccess G i f m n .write
  | atomic {i f m wide op} : ScalarAtom i f m wide op →
    ScalarAccess G i f m (if wide then 8 else 4) (.atomic (scalarAtomOf G f op wide))

/-- The value that a trap of Table 11-1 reports in AUX: of the lanes that meet the condition, the reporting lane's, but the smallest
for a crossing into another sequence (spec 11 R233). -/
def AuxOf (k : Cond) (aux : Nat) (hit : Nat → Cond → Prop) : Prop :=
  if k.cause = 9 ∧ k.reason = 2 then (∃ l x, hit l x ∧ x.aux = aux) ∧ ∀ l x, hit l x → aux ≤ x.aux else aux = k.aux

/-- A 16-byte access whose first byte is that of a bank of the team's SCRATCH list in FIFO mode (spec 10 R201). -/
def AtQueue (T : Team) (a : W64) : Prop :=
  T.live = true ∧ a.toNat < 2 ^ 32 ∧ a.toNat % 32768 = 0 ∧
    (T.scratchBanks.getD (a.toNat / 32768) ⟨0, .off, false, 0, 0⟩).mode = .fifo

/-- The lanes of `ls` below `l` whose accesses name lane `l`'s bank. -/
def turnAt (ls : List Nat) (bank : Nat → Nat) (l : Nat) : Nat := (ls.filter fun k => decide (k < l) && bank k == bank l).length

/-- The lanes of `ls` whose accesses name bank `b`. -/
def usersOf (ls : List Nat) (bank : Nat → Nat) (b : Nat) : Nat := (ls.filter fun k => bank k == b).length

/-- The key of the entry at counter `n` of the `b`-th SCRATCH bank of team `t`. -/
def entryKey (t b n : Nat) : Nat := scratchKey t (b * 32768 + n % 2048 * 16)

/-- The 16 keys of an entry. -/
def entryKeys (k : Nat) : List Nat := (List.range 16).map (k + ·)

/-- The banks of a team after a queue's access by `users b` lanes: `move` advances a counter of a bank; tape banks stay. -/
def QueuesMoved (T T' : Team) (users : Nat → Nat) (move : Bank → Nat → Bank) : Prop :=
  T'.scratchBanks = mapIdx (fun b B => if users b = 0 then B else move B (users b)) T.scratchBanks ∧
    (T'.banks.filter fun B => B.tape) = T.banks.filter fun B => B.tape

/-! ## Matrix instructions and structures in the scratchpad -/

/-- An operation accepted on tile `i`: it stands last among the tile's operations, the form goes on, and nothing else changes from
state `s`, which holds what acceptance writes. -/
def accepted (s : State) (c : Inst) (m : Mods) (i : Nat) (o : TileOp) : State :=
  (s.modTile c.team i fun T => { T with ops := T.ops ++ [o], taken := T.taken + 1 }).modGroup c.team c.group fun G =>
    G.goesOn c (toNext c m)

/-- The block of `n` bytes at a scratchpad offset can be read by lane `e`. -/
def HasBlock (s : State) (c : Inst) (e : Nat) (off : W32) (n : Nat) : Prop :=
  let r : LaneReq := { segs := [⟨.scratch, off.zeroExtend 64, n, .read, false⟩], rep := off.zeroExtend 64 }
  (s.checkLane c e r).conds = [] ∧ (s.checkLane c e r).lines = []

/-- The bytes of a block. -/
def blockAt (s : State) (c : Inst) (off : W32) (n : Nat) : List Byte :=
  (List.range n).map fun i => memRead s.mem (scratchKey c.team off.toNat + i)

/-- Tile `i` can take an operation: it is allotted, holds no undelivered failure, and its engine holds fewer than eight. -/
def TileTakes (s : State) (c : Inst) (i : Nat) : Prop :=
  i < (s.instKernel c).acc ∧ (s.tile c.team i).fails = [] ∧ s.engineLoad c.team i < 8

/-- The format words of the lanes of Active() that are not helper lanes are lane `e`'s. -/
def FormatsAgree (G : Group) (m : Mods) (act : LaneMask) (f : V4) (e : Nat) : Prop :=
  ∀ l ∈ performing G act, src32 G m l f.b = src32 G m e f.b

/-- What an accepted MMA holds. -/
def mmaOp (G : Group) (c : Inst) (m : Mods) (f : V4) (pb fw : W32) (form : Bool) (bs shape : List Byte) : TileOp :=
  { kind := .mma, group := c.group, off := pb.toNat, block := bs, fmtWord := fw
    metas := if bitsOf (fieldAt bs 4 4) 1 1 == 1 then (List.range 32).map fun l => src32 G m l f.c else []
    next := fieldAt bs 0x4C 4, form := form, shape := shape }

/-- The bytes a barrier object's instruction asks for in a lane. -/
def objectOf (s : State) (c : Inst) (m : Mods) (f : V4) (acc : Nat → Acc) (l : Nat) : LaneReq :=
  structReq s c.team (src32 (s.instGrp c) m l f.a) 8 (acc l)

/-- What lane `l` of an MCOMPRESS asks for, and the dense groups it processes. -/
def pruneOf (G : Group) (y d : Layout) (row0 : Nat) (srcA dst : W64) (l : Nat) : LaneReq :=
  let sp := sourceSeg (parseSource srcA)
  let dp := sourceSeg (parseSource dst)
  let gs := groupsOf y row0 l
  { pre := runSegs sp.1 sp.2 .read (groupBytes y 8 gs)
    segs := runSegs dp.1 dp.2 .write (if (G.lane l).helper then [] else groupBytes d 4 gs)
    rep := match gs with
      | g :: _ => sp.2 + BitVec.ofNat 64 (y.index g.2.1 (8 * g.2.2))
      | [] => srcA
    kind := 0 }

/-- What lane `l` of an MCOMPRESS pushes and keeps in state `u`, whose source bytes stand where they stand in state `s`. -/
def pruned (u s : State) (c : Inst) (y d : Layout) (row0 : Nat) (r : LaneReq) (l : Nat) : LaneOut × List (Nat × Byte) :=
  let tab := (groupBytes y 8 (groupsOf y row0 l)).zip ((s.checkLane c l r).pre.map fun k => memRead u.mem k.1)
  compressLane y d (groupsOf y row0 l) fun o => assocGet tab o 0

/-- The destination cells that a lane of an MCOMPRESS writes in state `u`. -/
def prunedCells (u s : State) (c : Inst) (G : Group) (y d : Layout) (row0 : Nat) (r : LaneReq) (l : Nat) : List Host.Cell :=
  ((if (G.lane l).helper then [] else groupBytes d 4 (groupsOf y row0 l)).zip (s.keysOf c l r)).map fun x =>
    (x.2, assocGet (pruned u s c y d row0 r l).2 x.1 (0 : Byte))

/-- The card that KICK submits from the bytes of its 64-byte description. -/
def cardAt (s : State) (c : Inst) (bs : List Byte) : Card :=
  let bare : Card :=
    { bytes := bs, core := (s.team c.team).core, team := c.team, grid := (s.team c.team).grid, ctx := s.ctxOf c.team, nitem := 0 }
  { bare with nitem := bare.items }

/-! ## Texture and traversal instructions -/

/-- The instructions of major 0x32: fields, extension and literal, slots pushed, the ordering key of a lane's contributions, and
what a lane reads, sends and pushes. -/
inductive Sampled : Instr → V4 → Mods → Nat → (Group → Nat → W32) → (State → Inst → Nat → TtLane) → Prop
  | texs f m : Sampled (.texs f m) f m 2 (fun G l => (srcWords G l f.b 4).getD 3 0) (texLane .sample f m)
  | texg f m : Sampled (.texg f m) f m 2 (fun G l => (srcWords G l f.b 4).getD 3 0) (texLane .gather f m)
  | texadj f m : Sampled (.texadj f m) f m 2 (fun G l => (srcWords G l f.b 4).getD 3 0) (texLane .adjoint f m)
  | trace f m : Sampled (.trace f m) f m 2 (fun _ _ => 0) (traceLane f m)
  | traceadj f m : Sampled (.traceadj f m) f m 4 (fun G l => (rayWords G f l).getD 7 0) (traceadjLane f m)
  | edgeq f m : Sampled (.edgeq f m) f m 4 (fun _ _ => 0) (edgeqLane f m)

/-- The contributions that lane `l` sends: a helper lane sends none. -/
def sentBy (G : Group) (l : Nat) (x : TtLane) : List (Nat × Nat) := if (G.lane l).helper then [] else x.conts

/-- What lane `l` asks for: the bytes it reads, then the words it contributes to. -/
def sampleReq (G : Group) (f : V4) (m : Mods) (l : Nat) (x : TtLane) : LaneReq :=
  { pre := x.pre, rep := src G m l f.a .b64, own := x.own
    segs := (sentBy G l x).map fun z => ⟨.global, BitVec.ofNat 64 z.1, 4, .scatter, false⟩ }

/-- The physical keys of the words that a request contributes to. -/
def wordsOf (s : State) (c : Inst) (l : Nat) (r : LaneReq) : List Nat := contWords (s.checkLane c l r).keys

/-- The contributions of lane `l`, without their places in the order of arrival. -/
def heldOf (s : State) (c : Inst) (key : Group → Nat → W32) (x : TtLane) (r : LaneReq) (l : Nat) : List Contribution :=
  let G := s.instGrp c
  let T := s.team c.team
  ((sentBy G l x).zip (wordsOf s c l r)).map fun y =>
    ⟨s.ctxOf c.team, y.2, BitVec.ofNat 64 y.1.1, key G l, BitVec.ofNat 64 (s.lid c.team c.group l), 0, BitVec.ofNat 32 y.1.2,
      T.grid, T.core, c.team, c.group⟩

/-! ## Tape instructions -/

/-- The tape instructions: fields, extension and literal, what they do, and a lane's value or name. -/
inductive Taped : Instr → V4 → Mods → TapeKind → (Group → Nat → W64) → Prop
  | trecB32 f m : Taped (.trecB32 f m) f m (.trec false) (fun G l => src G m l f.a .b32)
  | trecB64 f m : Taped (.trecB64 f m) f m (.trec true) (fun G l => src G m l f.a .b64)
  | tpopB32 f m : Taped (.tpopB32 f m) f m (.tpop false) (fun _ _ => 0)
  | tpopB64 f m : Taped (.tpopB64 f m) f m (.tpop true) (fun _ _ => 0)
  | tmark f m : Taped (.tmark f m) f m .tmark (fun G l => src G m l f.a .b32)
  | tseal f m : Taped (.tseal f m) f m .tseal (fun _ _ => 0)

/-- The slots that a tape instruction pushes. -/
def tapePushes : TapeKind → Nat
  | .tpop _ => 1
  | _ => 0

/-- What the lanes of a tape instruction carry to their streams on tape `d`. -/
def tapeLanesOf (s : State) (c : Inst) (k : TapeKind) (desc : Nat) (d : TapeDesc) (val : Group → Nat → W64) (lanes : List Nat) :
    List TapeLane :=
  s.tapeLanes c k desc d (lanes.map fun l => (l, s.lid c.team c.group l, val (s.instGrp c) l))

end Sys2Proof.Forms
end

