-- ==== Sys2Proof/WellFormed.lean ====
section
/-! DEFINITION. Well-formed instructions: those that pass every check of Table 5-10 by themselves (reserved destinations, idle
values, SB codes, extension contents, type pairs, register alignment, extensions that may not stand). Events are inputs of the
device and have no form to break. -/

namespace Sys2Proof

/-- Whether an instruction passes the checks of cause group 1 that its own fields decide (spec 05 Table 5-10). -/
def Instr.wellFormed (i : Instr) : Bool := i.decodeReason.isNone

end Sys2Proof
end

