-- ==== Sys2Proof/Certificates/Slice0/Obligations.lean ====
section
/-! DEFINITION. The statements for the provers, made from the numbered rules of the manual. -/

open Sys2Proof Sys2Proof.Machine Sys2Proof.Forms

/-- For every instruction that has a word, with every field, literal and extension at every value its form admits: in a legal
packet that begins with its encoded words the decoder reads, at slot 0, that instruction with those words; and such a packet
exists, for its words followed by words of zero (NOPs) are legal when its chain bits tie nothing to what follows. -/
def Obligations.DecodeOfEncode : Prop :=
  ∀ (i : Instr) (w : W32) (m : Mods), i.word = some w → i.mods = some m →
    m.lit.isSome = hasLit w → (m.ext.isSome = true → m.chain = true) →
    (∀ rest, (m.ext = none → m.chain = true → extAt rest 0 = false) →
      (∃ us, packetUnits (encode i ++ rest) 3 0 false 0 [] = .ok us) →
      decodeSlot (encode i ++ rest) 0 = .instr i ⟨0, w, m⟩) ∧
    (m.chain = (m.lit.isSome || m.ext.isSome) → (∀ e, m.ext = some e → e.chain = false) →
      decodeSlot (encode i ++ List.replicate (3 - (encode i).length) 0) 0 = .instr i ⟨0, w, m⟩)

/-- From every state, a step that answers a next state keeps the canonical form of memory (keys strictly rising, no entry equal
to what an unlisted byte reads as). And if State.Inv holds of a state and the step from it answers a next state, State.Inv
holds of that state: no instance stands at issue between steps, and every resident group of a running team that has not
ended and whose lanes all stand still has a lane that can issue. (That a standing group gives up its slot at the end of the
step is the model's reading of spec 10 R212 and 19 R387.) (Where the manual leaves it open, this rests on the model: log 5,
10.) -/
def Obligations.StepKeepsStanding : Prop :=
  ∀ s t : State, step s = .next t → (s.Inv → t.Inv) ∧ (s.MemInv → t.MemInv)

/-- State.reset satisfies State.Inv, and its memory is in canonical form. (Where the manual leaves it open, this rests on the
model: log 1, 2.) -/
def Obligations.ResetStanding : Prop :=
  State.reset.Inv ∧ State.reset.MemInv

/-- When nothing is placed by the outside and it is a group's turn (or the events' turn, at which time passes first, and no
event is due), and the group chosen has no asynchronous cause due: if the instance chosen fetches its packet, the bytes at
the program counter's slot decode to a well-formed instruction i that names no register beyond the allotment, and no
register it reads holds an uncorrectable error, then the step is exec of i in the state after the fetch, followed by
endIssue (no instance stands at issue; and what follows every step: rungs are picked, writes of the hub and the command
processor go on, requests and messages that can leave do, and standing groups give up their slots). (Where the manual leaves
it open, this rests on the model: log 5, 8, 12.) -/
def Obligations.StepRunsDecoded : Prop :=
  ∀ (s s0 s1 s2 : State) (t g : Nat) (c : Inst) (bs : List Byte) (i : Instr) (u : Sys2Proof.PUnit),
    s.sched.inbox = [] → s.sched.agenda = [] →
    s0 = (if s.sched.turn then { s with sched := { s.sched with turn := false } }.lookTime.2
      else { s with sched := { s.sched with turn := true } }) →
    (s.sched.turn = false ∨ s0.nextEvent = none) →
    s0.nextGroup = some (t, g) → s0.asyncDue t g = false → s0.selectInst t g = some (c, s1) →
    s1.fetch c = .packet bs s2 → decodeBytes bs (slotOf c.pc) = .instr i u → i.wellFormed = true →
    (∀ x, i.sig = some x → x.overAllotment (s2.instKernel c).regs = none) → s2.sickRead c i = none →
    step s = endIssue (exec i s2)

/-- When the packet of the instance meets no condition and translates at once to bytes that no other package owns, and none of
its lanes has found a page unresolvable, the fetch delivers those bytes in order, and the state it leaves differs at most in
the translation buffer and in the answers kept for the fetch. (Where the manual leaves it open, this rests on the model: log
18.) -/
def Obligations.FetchReadsPacket : Prop :=
  ∀ (s : State) (c : Inst) (ks : List (Nat × Bool)),
    s.packetKeys c = some ks →
    (∀ k ∈ ks, s.isPeerKey k.1 = false ∧ s.dirBlocks (k.1 / 128) true = false) →
    (∀ l, c.mask.getLsbD l = true → ((s.instGrp c).lane l).bad = []) →
    ∃ s', s.fetch c = .packet (ks.map fun k => memRead s.mem k.1) s' ∧
      ∃ tlb, s' = { s.clearAnswers (fun w => w == (c.team, c.group, 32)) with
        mm := { s.mm with tlb := tlb } }

/-- In the setting of StepRunsDecoded, with the trap of cause group c entered by takeTrap (statement TrapEntry): an illegal
packet traps with cause group 2, its reason and the word's slot, TRAPPC at the packet and NEXTPC after it, for whatever
lanes fetched it; an unassigned major or minor or a word that fails a check of its own fields traps with cause group 1 and
its reason; a register named beyond the allotment traps with cause group 3, the allotment and the slot in the auxiliary
field and the register's number in TRAPDETAIL1. (Where the manual leaves it open, this rests on the model: log 16, 17, 193.) -/
def Obligations.BadWordsTrap : Prop :=
  ∀ (s s0 s1 s2 : State) (t g : Nat) (c : Inst) (bs : List Byte),
    s.sched.inbox = [] → s.sched.agenda = [] →
    s0 = (if s.sched.turn then { s with sched := { s.sched with turn := false } }.lookTime.2
      else { s with sched := { s.sched with turn := true } }) →
    (s.sched.turn = false ∨ s0.nextEvent = none) →
    s0.nextGroup = some (t, g) → s0.asyncDue t g = false → s0.selectInst t g = some (c, s1) →
    s1.fetch c = .packet bs s2 →
    (∀ r slot, decodeBytes bs (slotOf c.pc) = .illegal r slot →
      step s = endIssue (.next (s2.takeTrap c.team c.group
        (trapOf 2 0x3F r slot ((packetWords bs).getD slot 0) 0 c.mask) false
        (BitVec.ofNat 32 (packetOf c.pc)) (BitVec.ofNat 32 (packetOf c.pc) + 12)))) ∧
    (∀ r u, decodeBytes bs (slotOf c.pc) = .undefinedWord r u →
      step s = endIssue (.next ((s2.dropGathered c).takeTrap c.team c.group
        (trapOf 1 0x3F r (slotOf c.pc) u.word 0 c.mask) false c.pc (afterUnit c.pc u.mods)))) ∧
    (∀ i u r, decodeBytes bs (slotOf c.pc) = .instr i u → i.decodeReason = some r →
      step s = endIssue (.next ((s2.dropGathered c).takeTrap c.team c.group
        (trapOf 1 0x3F r (slotOf c.pc) u.word 0 c.mask) false c.pc (afterUnit c.pc u.mods)))) ∧
    (∀ i u x k, decodeBytes bs (slotOf c.pc) = .instr i u → i.decodeReason = none → i.sig = some x →
      x.overAllotment (s2.instKernel c).regs = some k →
      step s = endIssue (.next ((s2.dropGathered c).takeTrap c.team c.group
        (trapOf 3 0x3F 0 ((s2.instKernel c).regs * 256 + slotOf c.pc) (BitVec.ofNat 32 k) 0 c.mask) false c.pc
        (afterUnit c.pc u.mods))))

/-- IADD.s32 k2, q1, k0; the same tied to an extension word that turns its guard round; FFMA.f32 with selectors q0, q1, q2; SMOV
s3, 5; BR two packets on under p1; EXIT; SYSRD k0, register 4; LD.b32 k1 at the address in q0; MZERO; FENCE of kind 0;
TREC.b32 of q0: each word, its fields written at the places of Table 5-1 with the major and minor of Tables 5-5 to 5-8,
decodes to exactly that instruction, and a word of major 63 in slot 0 or of the unassigned major 13 to none. -/
def Obligations.WordsOfEveryFamily : Prop :=
  decodeTableWord 32 0x02902800 = some (.iaddS32 ⟨18, 1, 16, 0⟩ {}) ∧
  decodeTableWord 64 0x7F00000082902800 = some (.iaddS32 ⟨18, 1, 16, 0⟩
    { chain := true, ext := some ⟨false, true, 0, 0, 0, 0⟩ }) ∧
  decodeTableWord 32 0x28002100 = some (.ffmaF32 ⟨0, 1, 2, 0⟩ {}) ∧
  decodeTableWord 32 0x16304A09 = some (.smov ⟨3, 0, 37, 0⟩ {}) ∧
  decodeTableWord 32 0x18200020 = some (.br ⟨0, 1, 2⟩ {}) ∧
  decodeTableWord 32 0x18000006 = some (.exit ⟨0, 0, 0⟩ {}) ∧
  decodeTableWord 32 0x0087E045 = some (.sysrd ⟨16, 63, 4⟩ {}) ∧
  decodeTableWord 32 0x40881F84 = some (.ldB32 ⟨17, 0, 63, 0⟩ {}) ∧
  decodeTableWord 32 0x6007FF81 = some (.mzero ⟨0, 63, 63, 0⟩ {}) ∧
  decodeTableWord 32 0x63FFE000 = some (.fence ⟨63, 63, 0, 0⟩ {}) ∧
  decodeTableWord 32 0x6607FF80 = some (.trecB32 ⟨0, 63, 63, 0⟩ {}) ∧
  decodeTableWord 32 0x7F000000 = none ∧
  decodeTableWord 32 0x1A000000 = none

/-- A group that is not in handler mode and whose kernel has a handler takes a trap that is not fatal: only this group changes.
TRAPCAUSE holds INH, the asynchronous bit and the cause; the details, TRAPPC (the virtual address), TRAPMASK and NEXTPC hold
what the trap gives; HMASK holds the lanes that were running, PARKMASK the parked and WAITMASK the waiting ones; FLAGS[4:0]
is saved; the handler's rejoin masks are zero; the lanes of HMASK save their queues and stand at TRAPOFF, running; every
other lane keeps its program counter, queue and status; every lane that has not exited has its old program counter in EPC.
Scalar registers, rejoin masks, FLAGS, registers and predicates of all lanes are as before. (Where the manual leaves it
open, this rests on the model: log 23, 199.) -/
def Obligations.TrapEntry : Prop :=
  ∀ (s : State) (t g : Nat) (x : TrapInfo) (async : Bool) (pc next : W32),
    t < s.teams.length → g < (s.team t).groups.length →
    (s.grp t g).inh = false → x.fatal = false → (s.kernelOf t).trapOff ≠ 0xFFFFFFFF →
    ∃ G', s.takeTrap t g x async pc next = s.modGroup t g (fun _ => G') ∧
      G'.trapCause = BitVec.ofNat 32 (2 ^ 31 + (if async then 256 else 0) + x.cause) ∧
      G'.trapD0 = x.d0 ∧ G'.trapD1 = x.d1 ∧ G'.trapD2 = x.d2 ∧ G'.trapMask = x.mask ∧ G'.nextPc = next ∧
      G'.trapPc = BitVec.ofNat 64 (((s.kernelOf t).codeBase + pc.toNat) % 2 ^ 57) ∧
      G'.savedFlags = (s.grp t g).flags.extractLsb' 0 5 ∧ G'.jh = List.replicate 8 0 ∧
      G'.flags = (s.grp t g).flags ∧ G'.s = (s.grp t g).s ∧ G'.j = (s.grp t g).j ∧
      G'.trapCtl = (s.grp t g).trapCtl ∧ G'.lanes.length = (s.grp t g).lanes.length ∧
      ∀ l, l < 32 → l < (s.grp t g).lanes.length →
        let L := (s.grp t g).lane l
        let L' := G'.lane l
        G'.hmask.getLsbD l = L.stopsRunning ∧ G'.parkMask.getLsbD l = L.isParked ∧
        G'.waitMask.getLsbD l = L.isWaiting ∧
        L'.epc = (if L.isExited then L.epc else L.pc) ∧ L'.k = L.k ∧ L'.p = L.p ∧ L'.q = L.q ∧
        L'.helper = L.helper ∧ L'.resume = L.resume ∧
        (L.stopsRunning = true → L'.savedQ = L.q ∧ L'.pc = (s.kernelOf t).trapOff ∧ L'.status = .run) ∧
        (L.stopsRunning = false → L'.savedQ = L.savedQ ∧ L'.pc = L.pc ∧ L'.status = L.status)

/-- When the group is in handler mode, the trap is fatal or the kernel has no handler, taking the trap halts the grid of a
launch: the grid is marked halted, its report has STATUS 10 and holds the trap of this group if it held none; every team of
the grid that was live is discarded and has no matrix operation left, with the flags of its groups ORed into the report;
teams of other grids are as they were; memory is as it was unless an event log is set up. -/
def Obligations.TrapHalts : Prop :=
  ∀ (s : State) (t g : Nat) (x : TrapInfo) (async : Bool) (pc next : W32),
    t < s.teams.length → g < (s.team t).groups.length → (s.team t).grid < s.grids.length →
    (s.grid (s.team t).grid).par.card = none → (s.grid (s.team t).grid).par.issuer = none →
    (s.team t).live = true →
    ((s.grp t g).inh = true ∨ x.fatal = true ∨ (s.kernelOf t).trapOff = 0xFFFFFFFF) →
    let s' := s.takeTrap t g x async pc next
    let n := (s.team t).grid
    (s'.grid n).halted = true ∧ (s'.grid n).report.status = 10 ∧
    (∀ r, (s'.grid n).report.trap = some r → (s.grid n).report.trap = none →
      r.cause = BitVec.ofNat 32 ((if (s.grp t g).inh then 2 ^ 31 else 0) + (if async then 256 else 0) + x.cause) ∧
      r.d0 = x.d0 ∧ r.d1 = x.d1 ∧ r.d2 = x.d2 ∧ r.mask = x.mask ∧ r.group = g ∧ r.core = (s.team t).core) ∧
    (s'.grid n).report.trap.isSome = true ∧
    (∀ u, u < s.teams.length → (s.team u).grid = n → (s.team u).live = true →
      (s'.team u).status = .discarded ∧ (∀ T ∈ (s'.team u).tiles, T.ops = [] ∧ T.fails = []) ∧
      ∀ G ∈ (s.team u).groups, G.ended = false →
        G.flags.extractLsb' 0 5 &&& ~~~(s'.grid n).report.flags = 0) ∧
    (∀ u, (s.team u).grid ≠ n → s'.team u = s.team u) ∧
    (s.regs.elSize = 0 → s'.mem = s.mem)

/-- ERET of an instance in handler mode completes. When every other lane of HMASK already stands at ERET or has exited, and the
saved program counter of each lane that returns is a word inside the code, the group leaves handler mode: INH is 0 and the
other bits of TRAPCAUSE stand, FLAGS[4:0] is the saved value and FLAGS's other bits stand, and each lane that returns has
its saved queue, its EPC as program counter, and runs. While another lane of HMASK has not come, the lanes of the instance
stand at ERET and nothing else changes. Outside handler mode ERET traps with cause group 7 reason 12 if a lane of the
instance is not a helper lane. (Where the manual leaves it open, this rests on the model: log 21, 22.) -/
def Obligations.HandlerReturn : Prop :=
  ∀ (f : FY) (m : Mods) (s : State) (c : Inst), s.sched.cur = some c → s.Placed c →
    let G := s.instGrp c
    let waits (l : Nat) : Bool := c.mask.getLsbD l || (G.lane l).status == .eret
    (G.inh = true → (∀ l, l < 32 → G.hmask.getLsbD l = true → waits l = true ∨ (G.lane l).isExited = true) →
      (∀ l, l < 32 → G.hmask.getLsbD l = true → waits l = true →
        (G.lane l).epc.toNat % 4 = 0 ∧ (G.lane l).epc.toNat < (s.instKernel c).codeSize) →
      G.lanes.length = 32 →
      ∃ G', exec (.eret f m) s = .next (s.modGroup c.team c.group fun _ => G') ∧
        G'.inh = false ∧ (∀ k, k < 31 → G'.trapCause.getLsbD k = G.trapCause.getLsbD k) ∧
        G'.flags.extractLsb' 0 5 = G.savedFlags ∧ G'.flags.extractLsb' 5 27 = G.flags.extractLsb' 5 27 ∧
        G'.s = G.s ∧ G'.j = G.j ∧ G'.trapPc = G.trapPc ∧ G'.nextPc = G.nextPc ∧
        ∀ l, l < 32 → G.hmask.getLsbD l = true → waits l = true →
          (G'.lane l).q = (G.lane l).savedQ ∧ (G'.lane l).pc = (G.lane l).epc ∧ (G'.lane l).status = .run ∧
          (G'.lane l).k = (G.lane l).k ∧ (G'.lane l).p = (G.lane l).p) ∧
    (G.inh = true → (∃ l, l < 32 ∧ G.hmask.getLsbD l = true ∧ waits l = false ∧ (G.lane l).isExited = false) →
      G.lanes.length = 32 →
      exec (.eret f m) s = .next (s.modGroup c.team c.group fun G => G.mapLanes fun l L =>
        if c.mask.getLsbD l then { L with status := .eret, stall := none, bad := [] } else L)) ∧
    (G.inh = false → electLane G c.mask ≠ none →
      exec (.eret f m) s = .next (s.instTrap c m (trapOf 7 ((maskLanes c.mask).headD 0) 12 0 0 0 c.mask)))

/-- For every integer instruction and the value the manual's operation gives (table Forms.Integer: both operands read, the
result pushed and written to the destination register the field names), at an instance whose next word lies inside the code
and no enabled flag of which is raised: exec answers the next state in which each lane of Active() has that result, each
other lane of the instance a push of zero, the raised flags stand in FLAGS, those lanes stand at the next word, and nothing
else has changed. -/
def Obligations.IntegerResults : Prop :=
  ∀ i v, Integer i v → Retires i v

/-- As IntegerResults for MOV, LEA, ICMP, BFX, BFI, IMAD, LOGIC3, FSHF, SEL, PLOGIC and VOTE (table Forms.Move): each lane of
Active() has the result the table gives (a predicate result also written to its predicate), each other lane of the instance
a push of zero, and nothing else has changed. -/
def Obligations.MoveResults : Prop :=
  ∀ i v, Move i v → Retires i v

/-- As IntegerResults for the floating-point instructions of majors 0x10 to 0x16 (table Forms.Float): each result is the
operation of the manual on the operands' bit patterns under the instruction's rounding mode, with the flags it raises.
(Where the manual leaves it open, this rests on the model: log 30.) -/
def Obligations.FloatResults : Prop :=
  ∀ i v, Float i v → Retires i v

/-- As IntegerResults for CVT, CVTSR, CVTMX, EXPAND and BLKSCALE (table Forms.Convert). (Where the manual leaves it open, this
rests on the model: log 31.) -/
def Obligations.ConvertResults : Prop :=
  ∀ i v, Convert i v → Retires i v

/-- As IntegerResults for SHFL, QSWAP, QBCAST, QDERIV, GRED and FLAGRD (table Forms.Exchange): what a lane receives is a
function of the operands of the lanes of Active(). -/
def Obligations.ExchangeResults : Prop :=
  ∀ i v, Exchange i v → Retires i v

/-- For every value-producing instruction of the tables: when lane l is the lowest lane of Active() other than a helper lane
that raises a flag whose enable is set, exec answers the state in which the group takes the trap of cause group 5 whose
detail holds that lane, its flags and the flags of all lanes, and whose mask holds every such lane; no lane receives a
result, and FLAGS is as it was before the trap. -/
def Obligations.FlagTraps : Prop :=
  ∀ i v, (Integer i v ∨ Move i v ∨ Float i v ∨ Convert i v ∨ Exchange i v) → ∀ s c l, s.sched.cur = some c →
    let G := s.instGrp c
    let act := activeOf s c v.g.toNat (guardNeg v.m)
    let res := v.out s c act G
    let raises (k : Nat) : Prop := act.getLsbD k = true ∧ (G.lane k).helper = false ∧ (res k).flags &&& G.enables ≠ 0
    l < 32 → raises l → (∀ k, k < l → ¬ raises k) →
    ∃ mask : LaneMask, (∀ k, k < 32 → (mask.getLsbD k = true ↔ raises k)) ∧
      exec i s = .next (s.instTrap c v.m
        (trapOf 5 l 0 ((res l).flags.toNat * 256 + (raisedFlags G act res).toNat) 0 0 mask))

/-- NOP, every hint minor and REGN at an instance whose next word lies inside the code: every lane of the instance stands at the
next word, nothing is pushed, and nothing else changes. Where the next word lies outside the code, these words, every
value-producing instruction of the tables (whose lanes raise no flag that traps) and every scalar instruction of table
Forms.Scalar trap instead with cause group 7 reason 11: the trap reports the lowest lane of the instance that is not a
helper lane, its mask holds exactly those lanes, TRAPDETAIL1 holds the offset that would have been fetched, and the
instruction commits in no lane. An instance of helper lanes alone goes on. (Where the manual leaves it open, this rests on
the model: log 194.) -/
def Obligations.RetireOnly : Prop :=
  (∀ (h : BitVec 2) (f : FY) (m : Mods) (s : State) (c : Inst), s.Issues c m → ∀ i ∈ [Instr.nop f m, .hint h f m, .regn f m],
    exec i s = .next (s.modGroup c.team c.group fun G => G.goesOn c (toNext c m))) ∧
  ∀ (s : State) (c : Inst) (m : Mods), s.sched.cur = some c → (s.instKernel c).codeSize ≤ (afterUnit c.pc m).toNat →
    (∀ (h : BitVec 2) (f : FY), ∀ i ∈ [Instr.nop f m, .hint h f m, .regn f m],
      FallsOut i s c m (.next (s.modGroup c.team c.group fun G => G.goesOn c (toNext c m)))) ∧
    (∀ i v, (Integer i v ∨ Move i v ∨ Float i v ∨ Convert i v ∨ Exchange i v) → v.m = m →
      let act := activeOf s c v.g.toNat (guardNeg m)
      let res := v.out s c act (s.instGrp c)
      (s.instGrp c).flagsPass act res →
      FallsOut i s c m (.next (s.modGroup c.team c.group fun G => G.retires c m act 1 res))) ∧
    ∀ i f op, Scalar i f m op →
      FallsOut i s c m (.next (s.modGroup c.team c.group fun G =>
        (G.setS f.sd.toNat (op (G.sreg f.sa.toNat) (srcS G m f.sb))).goesOn c (toNext c m)))

/-- BR and CALL target the packet OFF packets on from their own; BRS sends every lane or none, by its scalar; RET targets the
lane's link register, the last of the allotment, and JMPI its operand. When every target of a lane other than a helper lane
may be taken (inside the code; for RET and JMPI also a packet's offset), exec answers the next state: those lanes stand at
their targets, every other lane of the instance at the next word, and CALL has written the offset of the packet after its
own into the link register of the lanes it sent; nothing else changes. Otherwise they trap, and nothing else changes first:
JMPI and RET with cause group 8 reason 6 where such a lane's target is no packet's offset; BR, CALL, BRS, and JMPI and RET
when no lane fails that check, with cause group 7 reason 11 where such a lane's target lies outside the code. The trap
reports the lowest failing lane and its target in TRAPDETAIL1, and its mask holds exactly the failing lanes. (Where the
manual leaves it open, this rests on the model: log 19, 20, 194.) -/
def Obligations.Branches : Prop :=
  ∀ (f : FB) (b : FBrs) (m : Mods) (s : State) (c : Inst), s.Issues c m →
    let G := s.instGrp c
    let act := activeOf s c f.g.toNat (f.gn == 1)
    let P : W32 := BitVec.ofNat 32 (c.pc.toNat / 12 * 12)
    let dest : Nat → W32 := fun _ => P + 12 * f.off.signExtend 32
    let toS : Nat → W32 := fun _ => P + 12 * b.off.signExtend 32
    let link : Nat := (s.instKernel c).regs - 1
    let back : Nat → W32 := fun l => (G.lane l).reg link
    let there : Nat → W32 := fun l => src32 G m l (f.off.extractLsb' 11 6)
    let allZ : LaneMask := if G.sreg b.sa.toNat = 0 then c.mask else 0
    let allNz : LaneMask := if G.sreg b.sa.toNat = 0 then 0 else c.mask
    let goes (act : LaneMask) (target : Nat → W32) (may : W32 → Bool) : Res :=
      .next (s.modGroup c.team c.group fun G => G.goesOn c (toTargets c m G act target may))
    let leaves (act : LaneMask) (target : Nat → W32) (l : Nat) : Prop :=
      act.getLsbD l = true ∧ (G.lane l).helper = false ∧ inCode s c (target l) = false
    let odd (act : LaneMask) (target : Nat → W32) (l : Nat) : Prop :=
      act.getLsbD l = true ∧ (G.lane l).helper = false ∧ (target l).toNat % 12 ≠ 0
    (AllMay G act dest (inCode s c) → exec (.br f m) s = goes act dest (inCode s c)) ∧
    (AllMay G allZ toS (inCode s c) → exec (.brsZ b m) s = goes allZ toS (inCode s c)) ∧
    (AllMay G allNz toS (inCode s c) → exec (.brsNz b m) s = goes allNz toS (inCode s c)) ∧
    (AllMay G act dest (inCode s c) → exec (.call f m) s =
      .next (s.modGroup c.team c.group fun G =>
        (G.mapLanes fun l L => if act.getLsbD l && !(L.helper && !inCode s c (dest l)) then L.setReg link (P + 12) else L).goesOn c
          (toTargets c m G act dest (inCode s c)))) ∧
    (AllMay G act back (isPacket s c) → exec (.ret f m) s = goes act back (isPacket s c)) ∧
    (AllMay G act there (isPacket s c) → exec (.jmpi f m) s = goes act there (isPacket s c)) ∧
    TrapsWhere (.br f m) s c m (leaves act dest) 7 11 dest ∧ TrapsWhere (.call f m) s c m (leaves act dest) 7 11 dest ∧
    TrapsWhere (.brsZ b m) s c m (leaves allZ toS) 7 11 toS ∧ TrapsWhere (.brsNz b m) s c m (leaves allNz toS) 7 11 toS ∧
    TrapsWhere (.jmpi f m) s c m (odd act there) 8 6 there ∧ TrapsWhere (.ret f m) s c m (odd act back) 8 6 back ∧
    ((∀ k, k < 32 → ¬ odd act there k) → TrapsWhere (.jmpi f m) s c m (leaves act there) 7 11 there) ∧
    ((∀ k, k < 32 → ¬ odd act back k) → TrapsWhere (.ret f m) s c m (leaves act back) 7 11 back)

/-- In a group of 32 lanes at an instance whose next word lies inside the code. ENROL adds the lanes of Active() to its mask's
enrolled lanes and takes them out of the arrived ones; every lane of the instance goes on. REJOIN makes the enrolled lanes W
of Active() wait. While an enrolled lane has not arrived, they stand waiting with the next word to go on at, the mask counts
them as arrived, and the other lanes of the instance go on. When all enrolled lanes have arrived (and there is one), the
mask is zero and every lane that waited at it and had arrived, W among them, runs at the word after its REJOIN. Masks other
than the one named, queues, registers, predicates, scalars and FLAGS are as before. In handler mode the masks are the
handler's. (Where the manual leaves it open, this rests on the model: log 19.) -/
def Obligations.RejoinMasks : Prop :=
  ∀ (f : FB) (m : Mods) (s : State) (c : Inst), s.Issues c m → s.Placed c → (s.instGrp c).lanes.length = 32 →
    let G := s.instGrp c
    let n := maskNo f
    let act := activeOf s c f.g.toNat (f.gn == 1)
    let j := rejoinMask G f
    let W := act &&& enrOf j
    let arrived := arrOf j ||| W
    n < G.masks.length →
    (exec (.enrol f m) s = .next (s.modGroup c.team c.group fun G =>
      (G.setMask n (maskOf (arrOf j &&& ~~~act) (enrOf j ||| act))).goesOn c (toNext c m))) ∧
    ∃ G', exec (.rejoin f m) s = .next (s.modGroup c.team c.group fun _ => G') ∧
      G'.s = G.s ∧ G'.flags = G.flags ∧ G'.trapCause = G.trapCause ∧ (∀ k, k ≠ n → G'.masks.getD k 0 = G.masks.getD k 0) ∧
      (∀ l, l < 32 → (G'.lane l).q = (G.lane l).q ∧ (G'.lane l).k = (G.lane l).k ∧ (G'.lane l).p = (G.lane l).p ∧
        (c.mask.getLsbD l = true → W.getLsbD l = false → (G.lane l).status = .run →
          (G'.lane l).status = .run ∧ (G'.lane l).pc = afterUnit c.pc m)) ∧
      (enrOf j &&& ~~~arrived ≠ 0 → G'.masks.getD n 0 = maskOf arrived (enrOf j) ∧
        ∀ l, l < 32 → W.getLsbD l = true → (G'.lane l).status = .rejoin n ∧ (G'.lane l).resume = afterUnit c.pc m) ∧
      (enrOf j ≠ 0 → enrOf j &&& ~~~arrived = 0 → G'.masks.getD n 0 = 0 ∧
        ∀ l, l < 32 → arrived.getLsbD l = true →
          (W.getLsbD l = true → (G'.lane l).status = .run ∧ (G'.lane l).pc = afterUnit c.pc m) ∧
          (c.mask.getLsbD l = false → (G.lane l).status = .rejoin n →
            (G'.lane l).status = .run ∧ (G'.lane l).pc = (G.lane l).resume))

/-- EXIT of an instance whose lanes all leave, or whose next word lies inside the code, in a group of 32 lanes (in handler mode:
where every other lane that waits at ERET has an EPC it may return to): exec answers a next state. The lanes of Active()
have exited; every other lane of the instance that was running stands at the next word. Each rejoin mask of the kernel, and
in handler mode each of the handler's, has lost those lanes; a mask whose remaining enrolled lanes have all arrived (and
there is one) is zero, and its arrived lanes go on after their REJOIN. When every lane of the team that has not exited now
waits at one team barrier, or every lane of every team of its set at one cluster barrier, the lanes that wait there go on.
In handler mode, when every lane of HMASK has exited or waits at ERET, the group has left handler mode and those waiting run
at their EPC with the queues that were saved. Every lane's registers and predicates are as before. The group has ended if
all its lanes have exited. Memory, the memory unit, the hub, the fabric and every register of the device are as before.
(Where the manual leaves it open, this rests on the model: log 25.) -/
def Obligations.ExitEndsLanes : Prop :=
  ∀ (f : FB) (m : Mods) (s : State) (c : Inst), s.sched.cur = some c → s.Placed c → (s.instGrp c).lanes.length = 32 →
    let G := s.instGrp c
    let act := activeOf s c f.g.toNat (f.gn == 1)
    let enrolled (j : W64) : LaneMask := enrOf j &&& ~~~act
    let opens (j : W64) : Bool := enrolled j != 0 && enrolled j &&& ~~~(arrOf j &&& ~~~act) == 0
    let left (j : W64) : W64 := if opens j then 0 else maskOf (arrOf j &&& ~~~act) (enrolled j)
    let stays (l : Nat) : Prop := act.getLsbD l = false ∧ c.mask.getLsbD l = false
    let gone (u h l : Nat) : Prop := (u, h) = (c.team, c.group) ∧ act.getLsbD l = true
    (act = c.mask ∨ (afterUnit c.pc m).toNat < (s.instKernel c).codeSize) →
    (G.inh = true → ∀ l, l < 32 → G.hmask.getLsbD l = true → act.getLsbD l = false → (G.lane l).status = .eret →
      (G.lane l).epc.toNat % 4 = 0 ∧ inCode s c (G.lane l).epc = true) →
    ∃ t, exec (.exit f m) s = .next t ∧
      (∀ l, l < 32 →
        (act.getLsbD l = true → ((t.instGrp c).lane l).isExited = true) ∧
        (c.mask.getLsbD l = true → act.getLsbD l = false → (G.lane l).status = .run →
          ((t.instGrp c).lane l).pc = afterUnit c.pc m ∧ ((t.instGrp c).lane l).status = .run) ∧
        ((t.instGrp c).lane l).k = (G.lane l).k ∧ ((t.instGrp c).lane l).p = (G.lane l).p) ∧
      (∀ n, enrOf ((t.instGrp c).j.getD n 0) &&& act = 0) ∧
      (∀ n, n < 8 → (t.instGrp c).j.getD n 0 = left (G.j.getD n 0) ∧
        (t.instGrp c).jh.getD n 0 = if G.inh then left (G.jh.getD n 0) else G.jh.getD n 0) ∧
      (∀ n l j, n < 8 → l < 32 → stays l → (G.lane l).status = .rejoin n →
        (j = G.j.getD n 0 ∨ G.inh = true ∧ j = G.jh.getD n 0) → (arrOf j).getLsbD l = true → opens j = true →
        ((t.instGrp c).lane l).status = .run ∧ ((t.instGrp c).lane l).pc = (G.lane l).resume) ∧
      (∀ ms n cl, n < 8 → (cl = false ∧ ms = [c.team] ∨ cl = true ∧ s.setMates c.team = some ms) →
        (∀ u ∈ ms, ∀ h, h < (s.team u).groups.length → ∀ l, l < (s.grp u h).lanes.length →
          ((s.grp u h).lane l).isExited = true ∨ ((s.grp u h).lane l).arrived cl n = true ∨ gone u h l) →
        ∀ u ∈ ms, ∀ h, h < (s.team u).groups.length → ∀ l, l < (s.grp u h).lanes.length →
          ((s.grp u h).lane l).arrived cl n = true → ((u, h) = (c.team, c.group) → stays l) →
          ((t.grp u h).lane l).status = .run ∧ ((t.grp u h).lane l).pc = ((s.grp u h).lane l).resume) ∧
      (G.inh = true →
        (∀ l, l < 32 → G.hmask.getLsbD l = true → act.getLsbD l = true ∨ (G.lane l).isExited = true ∨ (G.lane l).status = .eret) →
        (t.instGrp c).inh = false ∧ ∀ l, l < 32 → G.hmask.getLsbD l = true → stays l → (G.lane l).status = .eret →
          ((t.instGrp c).lane l).status = .run ∧ ((t.instGrp c).lane l).pc = (G.lane l).epc ∧
          ((t.instGrp c).lane l).q = (G.lane l).savedQ) ∧
      ((∀ l, l < 32 → act.getLsbD l = true ∨ (G.lane l).isExited = true) → (t.instGrp c).ended = true) ∧
      t.mem = s.mem ∧ t.mm = s.mm ∧ t.hub = s.hub ∧ t.fab = s.fab ∧ t.regs = s.regs ∧ t.cp = s.cp ∧ t.sched = s.sched

/-- SADD, SSUB, SMUL, SAND, SOR, SXOR, SSHL, SSHR, SCMP and SMOV (table Forms.Scalar), at an instance whose next word lies
inside the code: s[SD] becomes the operation of s[SA] and SB, once for the instance, whatever lanes a guard would choose; no
lane receives a push; every lane of the instance goes on; nothing else changes. -/
def Obligations.ScalarResults : Prop :=
  ∀ i f m op, Scalar i f m op → ∀ (s : State) (c : Inst), s.Issues c m →
    exec i s = .next (s.modGroup c.team c.group fun G =>
      (G.setS f.sd.toNat (op (G.sreg f.sa.toNat) (srcS G m f.sb))).goesOn c (toNext c m))

/-- MOVS.b32 and MOVS.b64 write the value of the lowest lane of Active() that is not a helper lane to the scalar register of the
field, and nothing when there is none. MVRD gives each lane of Active() the register whose number is the base plus the
lane's signed index, MVWR writes its data operand there and pushes it; both complete when every such number of a lane other
than a helper lane is inside the allotment (a helper lane with another number receives a push of zero), and otherwise trap
with cause group 3 at the lowest lane that fails, with its number in TRAPDETAIL1, the allotment in the auxiliary field and
exactly the failing lanes in the trap's mask. -/
def Obligations.ElectedMoves : Prop :=
  ∀ (f : V3) (h : V4) (m : Mods) (s : State) (c : Inst), s.Issues c m →
    let G := s.instGrp c
    let regs : Nat := (s.instKernel c).regs
    let setsS (t : Ty) : Res := match electLane G (activeOf s c f.g.toNat (guardNeg m)) with
      | none => .next (s.modGroup c.team c.group fun G => G.goesOn c (toNext c m))
      | some e => .next (s.modGroup c.team c.group fun G =>
          (G.setS (f.d.extractLsb' 0 5).toNat (src G m e f.a t)).goesOn c (toNext c m))
    let rd : Nat → Int := fun l => ((f.b.extractLsb' 0 5).toNat : Int) + (src32 G m l f.a).toInt
    let wr : Nat → Int := fun l => ((h.c.extractLsb' 0 5).toNat : Int) + (src32 G m l h.b).toInt
    let ok : Int → Bool := fun n => decide (0 ≤ n) && decide (n < (regs : Int))
    let actR := activeOf s c f.g.toNat (guardNeg m)
    let actW := activeOf s c h.g.toNat (guardNeg m)
    let fails (act : LaneMask) (n : Nat → Int) (l : Nat) : Prop :=
      act.getLsbD l = true ∧ (G.lane l).helper = false ∧ ok (n l) = false
    exec (.movsB32 f m) s = setsS .b32 ∧ exec (.movsB64 f m) s = setsS .b64 ∧
    ((∀ l, l < 32 → actR.getLsbD l = true → (G.lane l).helper = false → ok (rd l) = true) →
      exec (.mvrd f m) s = .next (s.modGroup c.team c.group fun G => G.retires c m actR 1 fun l =>
        if ok (rd l) then out32 f.d ((G.lane l).reg (rd l).toNat) else zeroPushes 1)) ∧
    ((∀ l, l < 32 → actW.getLsbD l = true → (G.lane l).helper = false → ok (wr l) = true) →
      exec (.mvwr h m) s = .next (s.modGroup c.team c.group fun G => G.retires c m actW 1 fun l =>
        if ok (wr l) then
          { pushes := [(src32 G m l h.a).zeroExtend 64], named := [((wr l).toNat, src32 G m l h.a)] }
        else zeroPushes 1)) ∧
    (∀ l, l < 32 → fails actR rd l → (∀ k, k < l → ¬ fails actR rd k) →
      TrapsIn (exec (.mvrd f m) s) s c m (fun mask =>
        trapOf 3 l 0 (1 * 2 ^ 16 + regs * 256 + c.pc.toNat % 12 / 4) (BitVec.ofInt 32 (rd l)) 0 mask) (fails actR rd)) ∧
    ∀ l, l < 32 → fails actW wr l → (∀ k, k < l → ¬ fails actW wr k) →
      TrapsIn (exec (.mvwr h m) s) s c m (fun mask =>
        trapOf 3 l 0 (2 * 2 ^ 16 + regs * 256 + c.pc.toNat % 12 / 4) (BitVec.ofInt 32 (wr l)) 0 mask) (fails actW wr)

/-- At an instance whose next word lies inside the code. FLAGCLR gives every lane of Active() the FLAGS it finds and clears the
flag bits that any operand of Active() names. SYSRD gives every lane the system register named, at its width. SREAD gives
the launch or lane value named; TIME and CYCLES are read once for the instance, after some time has passed. SYSWR writes EPC
in each lane in handler mode only, TRAPCTL[1:0] and TAPEDESC[56:0] with the elected lane's value, and no other register.
YIELD sends the lanes on and bars them until the core's cycle counter has advanced 16 n. TRAP, and BKPT unless
TRAPCTL.BKIGN, send the lanes on and take the trap of cause group 18 or 19 with the elected lane's number and operand,
TRAPPC naming the instruction; with BKIGN, BKPT is a NOP. Nothing else changes in any of them. (Where the manual leaves it
open, this rests on the model: log 7, 24.) -/
def Obligations.SystemInstructions : Prop :=
  ∀ (v : V3) (f : FY) (m : Mods) (s : State) (c : Inst), s.Issues c m →
    let G := s.instGrp c
    let act := activeOf s c v.g.toNat (guardNeg m)
    let all := activeOf s c 0 (guardNeg m)
    let lead := electLane G c.mask
    let M : FlagBits := (maskLanes act).foldl (fun x l => x ||| (src32 G m l v.a).extractLsb' 0 5) 0
    let onward : State := s.modGroup c.team c.group fun G => G.goesOn c (toNext c m)
    let trap (cause e : Nat) : Res := .next ((s.modGroup c.team c.group fun G => G.mapLanes fun l L =>
        if c.mask.getLsbD l then { L with pc := afterUnit c.pc m, stall := none } else L).instTrap c m
      (trapAddr cause e 0 f.n.toNat (src G m e f.a .b64) c.mask))
    exec (.flagclr v m) s = .next (s.modGroup c.team c.group fun G =>
      { G.retires c m act 1 (fun _ => out32 v.d G.flags) with flags := G.flags &&& ~~~(M.zeroExtend 32) }) ∧
    exec (.sysrd f m) s = .next (s.modGroup c.team c.group fun G =>
      G.retires c m all 1 fun l => wordOut (sysWide f.n.toNat) f.d (s.sysReg c (s.instGrp c) l f.n.toNat)) ∧
    (f.n ≠ 24 → f.n ≠ 25 → exec (.sread f m) s = .next (s.modGroup c.team c.group fun G =>
      G.retires c m all 1 fun l => wordOut (sreadWide f.n.toNat) f.d (s.sreadValue c (s.instGrp c) l f.n.toNat))) ∧
    (f.n = 24 → exec (.sread f m) s = .next (s.lookTime.2.modGroup c.team c.group fun G =>
      G.retires c m all 1 fun _ => out64 f.d s.lookTime.1)) ∧
    (f.n = 25 → exec (.sread f m) s = .next ((s.lookCycles (s.team c.team).core).2.modGroup c.team c.group fun G =>
      G.retires c m all 1 fun _ => out64 f.d (s.lookCycles (s.team c.team).core).1)) ∧
    (f.n = 6 → exec (.syswr f m) s = .next (s.modGroup c.team c.group fun G =>
      (if G.inh then G.mapLanes fun l L => if c.mask.getLsbD l then { L with epc := src32 (s.instGrp c) m l f.a } else L
        else G).goesOn c (toNext c m))) ∧
    (∀ e, lead = some e → f.n = 11 → exec (.syswr f m) s = .next (s.modGroup c.team c.group fun G =>
      ({ G with trapCtl := src32 (s.instGrp c) m e f.a &&& 3 } : Group).goesOn c (toNext c m))) ∧
    (∀ e, lead = some e → f.n = 12 → exec (.syswr f m) s = .next ((s.modTeam c.team fun T =>
        { T with tapeDesc := BitVec.ofNat 64 ((src G m e f.a .b64).toNat % 2 ^ 57) }).modGroup c.team c.group fun G =>
      G.goesOn c (toNext c m))) ∧
    (f.n ≠ 6 → f.n ≠ 11 → f.n ≠ 12 → exec (.syswr f m) s = .next onward) ∧
    exec (.yield f m) s = .next ((s.lookCycles (s.team c.team).core).2.modGroup c.team c.group fun G =>
      (G.mapLanes fun l L => if c.mask.getLsbD l then
        { L with status := .yielding ((s.lookCycles (s.team c.team).core).1.toNat + 16 * f.n.toNat) } else L).goesOn c
        (toNext c m)) ∧
    (∀ e, lead = some e → exec (.trap f m) s = trap 18 e) ∧
    (lead = none → exec (.trap f m) s = .next onward ∧ exec (.bkpt f m) s = .next onward ∧
      (f.n ≠ 6 → exec (.syswr f m) s = .next onward)) ∧
    (G.trapCtl.getLsbD 1 = true → exec (.bkpt f m) s = .next onward) ∧
    (∀ e, lead = some e → G.trapCtl.getLsbD 1 = false → exec (.bkpt f m) s = trap 19 e)

/-- For every element load (table Forms.Load, in global, scratch and cluster space), when every lane of Active() meets no
condition, misses nothing and finds its bytes here: exec answers a next state in which each lane of Active() has the value
of the bytes at its own address, extended as the form says and pushed or written to the destination's registers, each other
lane of the instance pushes of zero; the lanes go on; all of memory, the engines, every other lane, group, team and register
are as before. LD.b128.scr of banks in FIFO mode, each holding an entry for every lane that names it and no poison: the
lanes of Active() receive their bank's entries from HEAD on, in ascending lane order, and each bank's HEAD has advanced by
their number, modulo 4,096; its TAIL, the tape's banks and memory are as before. (Where the manual leaves it open, this
rests on the model: log 6, 33, 34, 167, 168, 197.) -/
def Obligations.LoadResults : Prop :=
  (∀ i f m sp n pushes out, Load i f m sp n pushes out → ∀ s c, s.Issues c m → s.Placed c →
    let act := activeOf s c f.g.toNat (guardNeg m)
    let req := elemOf (s.instGrp c) f m sp .read n
    (∀ l, act.getLsbD l = true → s.Sees c l (req l)) →
    ∃ t, exec i s = .next t ∧
      MemRetired s t c m act (fun l => if act.getLsbD l then out (valueAt s c l (req l)) else zeroPushes pushes) ∧
      SameMemory s t ∧ ∀ a, memRead t.mem a = memRead s.mem a) ∧
  ∀ (f : V3) (m : Mods) (s : State) (c : Inst), s.Issues c m → s.Placed c →
    let G := s.instGrp c
    let T := s.team c.team
    let act := activeOf s c f.g.toNat (guardNeg m)
    let ls := maskLanes act
    let addr : Nat → W64 := fun l => elemAddr G m f 16 l
    let bank : Nat → Nat := fun l => (addr l).toNat / 32768
    let entry : Nat → Nat := fun l =>
      entryKey c.team (bank l) ((T.scratchBanks.getD (bank l) ⟨0, .off, false, 0, 0⟩).head + turnAt ls bank l)
    (∀ l ∈ ls, AtQueue T (addr l) ∧ turnAt ls bank l < entriesIn T (bank l) ∧ s.poisonAt T.core (entry l) 16 = none ∧
      s.partOf (c.team, c.group, l) = none) →
    ∃ t, exec (.ldB128Scr f m) s = .next t ∧ SameMemory s t ∧
      QueuesMoved T (t.team c.team) (usersOf ls bank) (fun B n => { B with head := (B.head + n) % 4096 }) ∧
      ∀ l, c.mask.getLsbD l = true → l < G.lanes.length → (G.lane l).status = .run → (t.instGrp c).lane l =
        ((G.lane l).take (if act.getLsbD l then load128 f.d (leNat ((entryKeys (entry l)).map (memRead s.mem)))
          else zeroPushes 2)).goesTo (afterUnit c.pc m)

/-- For every element store (table Forms.Store), when every lane of Active() that is not a helper lane meets no condition,
misses nothing and finds its bytes here (and no write of the team is on its way to another package, if the store is a
release at system scope): exec answers a next state whose memory is that of the lanes' values written in ascending order at
the keys their addresses name; every byte at a key that no such lane's address names reads as before; the lanes go on
without a push; every register, other lane, group and team is as before. ST.b128.scr to banks in FIFO mode, each with a free
slot for every lane that names it: the lanes of Active() that are not helper lanes append their data from TAIL on, in
ascending lane order, and each bank's TAIL has advanced by their number, modulo 4,096; its HEAD, the tape's banks and every
other byte are as before. (Where the manual leaves it open, this rests on the model: log 6, 34, 167, 168, 170, 197.) -/
def Obligations.StoreResults : Prop :=
  (∀ i f m sp n val, Store i f m sp n val → ∀ s c, s.Issues c m → s.Placed c →
    let G := s.instGrp c
    let act := activeOf s c f.g.toNat (guardNeg m)
    let req := elemOf G f m sp .write n
    (∀ l ∈ performing G act, s.Sees c l (req l)) → (sysRelease m = true → s.teamPending c.team = false) →
    ∃ t, exec i s = .next t ∧ MemRetired s t c m act (fun _ => {}) ∧
      MemoryOf (writeLanes s (performing G act) fun l => cellsAt s c l (req l) (val G l)) s t ∧
      ∀ a, (∀ l ∈ performing G act, a ∉ s.keysOf c l (req l)) → memRead t.mem a = memRead s.mem a) ∧
  ∀ (f : V3) (m : Mods) (s : State) (c : Inst), s.Issues c m → s.Placed c →
    let G := s.instGrp c
    let T := s.team c.team
    let act := activeOf s c f.g.toNat (guardNeg m)
    let ls := performing G act
    let addr : Nat → W64 := fun l => elemAddr G m f 16 l
    let bank : Nat → Nat := fun l => (addr l).toNat / 32768
    let entry : Nat → Nat := fun l =>
      entryKey c.team (bank l) ((T.scratchBanks.getD (bank l) ⟨0, .off, false, 0, 0⟩).tail + turnAt ls bank l)
    (∀ l ∈ ls, AtQueue T (addr l) ∧ entriesIn T (bank l) + turnAt ls bank l < 2048 ∧
      s.heldBack c.team (256 + c.team) (addr l).toNat 16 = false ∧ s.partOf (c.team, c.group, l) = none) →
    (sysRelease m = true → s.teamPending c.team = false) →
    ∃ t, exec (.stB128Scr f m) s = .next t ∧
      MemoryOf (writeLanes s ls fun l => (entryKeys (entry l)).zip (leBytes 16 (data128 f.d G l))) s t ∧
      (∀ a, (∀ l ∈ ls, a ∉ entryKeys (entry l)) → memRead t.mem a = memRead s.mem a) ∧
      QueuesMoved T (t.team c.team) (usersOf ls bank) (fun B n => { B with tail := (B.tail + n) % 4096 }) ∧
      ∀ l, c.mask.getLsbD l = true → l < G.lanes.length → (G.lane l).status = .run →
        (t.instGrp c).lane l = (G.lane l).goesTo (afterUnit c.pc m)

/-- For every atomic (table Forms.Atom), under the conditions of StoreResults: the lanes of Active() that are not helper lanes
act one after another in ascending order; each finds the value its location then has, and receives it; the location then
holds the operation's value (a compare that fails writes nothing); the flags of a floating-point addition stand in FLAGS;
other lanes of the instance receive a push of zero; every byte outside the named locations reads as before, and nothing else
changes. (Where the manual leaves it open, this rests on the model: log 6, 34, 167, 168, 197.) -/
def Obligations.AtomicResults : Prop :=
  ∀ i f m sp wide op, Atom i f m sp wide op → ∀ s c, s.Issues c m → s.Placed c →
    let G := s.instGrp c
    let act := activeOf s c f.g.toNat (guardNeg m)
    let req := atomReq sp op wide f m G
    let keys : Nat → List Nat := fun l => s.keysOf c l (req l)
    let after : Nat → State := fun n =>
      atomLanes s.peerNo (atomOf op wide f m G) keys ((performing G act).filter fun l => decide (l < n)) s
    (∀ l ∈ performing G act, s.Sees c l (req l)) → (sysRelease m = true → s.teamPending c.team = false) →
    ∃ t, exec i s = .next t ∧
      MemRetired s t c m act (fun l =>
        if l ∈ performing G act then
          atomOut op wide f.d (atomStep s.peerNo (atomOf op wide f m G l) (after l) (keys l)).1
            (atomStep s.peerNo (atomOf op wide f m G l) (after l) (keys l)).2.2
        else zeroPushes 1) ∧
      MemoryOf (after 32) s t ∧
      ∀ a, (∀ l ∈ performing G act, a ∉ keys l) → memRead t.mem a = memRead s.mem a

/-- For TLD and TLD.ver in both spaces, when every lane of Active() meets no condition, misses nothing, finds its bytes here
and, with .ver, finds an even version word (and no answer from another package is kept for the instance): each lane of
Active() receives the elements of its run as 128 bits, each other lane of the instance two pushes of zero; memory, the
engines and everything else are as before. (Where the manual leaves it open, this rests on the model: log 6, 33, 35, 167.) -/
def Obligations.TileLoadResults : Prop :=
  ∀ i f m sp ver, TileLoad i f m sp ver → ∀ s c, s.Issues c m → s.Placed c →
    let G := s.instGrp c
    let act := activeOf s c f.g.toNat (guardNeg m)
    let req := tileOf sp .read ver f m G
    (∀ l, act.getLsbD l = true → s.Sees c l (req l)) →
    (ver = true → (∀ a ∈ s.fab.answers, c.owns a.who = false) ∧ ∀ l, act.getLsbD l = true →
      leNat ((s.checkLane c l (req l)).look.map fun k => memRead s.mem k.1) % 2 = 0) →
    ∃ t, exec i s = .next t ∧
      MemRetired s t c m act (fun l =>
        if act.getLsbD l then load128 f.d (runAt s s c l (req l) (runOf ver f m G l)) else zeroPushes 2) ∧
      SameMemory s t

/-- For TST and TST.whole in both spaces, under the conditions of StoreResults, in a memory in canonical form: every byte reads
as after the lanes' runs, stored in ascending lane order with the bits of other elements kept, so every byte that no lane's
run touches reads as before; TST leaves exactly that memory, and TST.whole clears the poison of a line only where the lanes'
runs together cover it; the lanes go on without a push and nothing else changes. (Where the manual leaves it open, this
rests on the model: log 6, 167, 171.) -/
def Obligations.TileStoreResults : Prop :=
  ∀ i f m sp whole, TileStore i f m sp whole → ∀ s c, s.Issues c m → s.Placed c → s.MemInv →
    let G := s.instGrp c
    let act := activeOf s c f.g.toNat (guardNeg m)
    let req := tileOf sp .write false f m G
    let w := storeRuns s c req (runOf false f m G) (data128 f.d G) (performing G act)
    (∀ l ∈ performing G act, s.Sees c l (req l)) → (sysRelease m = true → s.teamPending c.team = false) →
    ∃ t, exec i s = .next t ∧ MemRetired s t c m act (fun _ => {}) ∧ t.eng = s.eng ∧
      (∃ tlb, t.mm = { s.mm with tlb := tlb }) ∧ (whole = false → t.mem = w.mem ∧ t.poison = w.poison) ∧
      (∀ a, memRead t.mem a = memRead w.mem a) ∧
      (∀ n ∈ s.poison, n ∉ t.poison → ∀ b, b < 128 → ∃ l ∈ performing G act, n * 128 + b ∈ s.keysOf c l (req l)) ∧
      ∀ a, (∀ l ∈ performing G act, a ∉ s.keysOf c l (req l)) → memRead t.mem a = memRead s.mem a

/-- For RLD and RST in both spaces, when every lane that takes part has its shape record and meets no condition, misses nothing
and finds its bytes here: RLD gives each lane of Active() the elements of the run that its record places (an absent run
reads zero), RST writes each lane's run in ascending lane order and keeps every other bit; only the bytes of those runs
change; other lanes of RLD's instance receive two pushes of zero; nothing else changes but translations and the shape-record
cache. (Where the manual leaves it open, this rests on the model: log 35, 36.) -/
def Obligations.RaggedResults : Prop :=
  ∀ i f m sp store, Ragged i f m sp store → ∀ s c, s.Issues c m → s.Placed c →
    let G := s.instGrp c
    let act := activeOf s c f.g.toNat (guardNeg m)
    let s0 := freshShapes s c act f m store
    let req := raggedOf s c act f m sp store
    let run := fun l => raggedRunOf (raggedArg G m f l) (recordOf s c act f m store l)
    let parts := if store then performing G act else maskLanes act
    (∀ l ∈ parts, s0.Sees c l (req l)) → (∀ l ∈ parts, (recordOf s c act f m store l).got.isSome = true) →
    (store = true → sysRelease m = true → s.teamPending c.team = false) →
    ∃ t, exec i s = .next t ∧
      MemRetired s t c m act (fun l =>
        if store then {} else if act.getLsbD l then load128 f.d (runAt s s0 c l (req l) (run l)) else zeroPushes 2) ∧
      t.eng = s.eng ∧ (∃ tlb shapes, t.mm = { s.mm with tlb := tlb, shapes := shapes }) ∧
      (store = false → t.mem = s.mem ∧ t.poison = s.poison) ∧
      (store = true →
        t.mem = ((performing G act).foldl (fun u l => u.wrCells (runCellsAt u s0 c l (req l) (run l) (data128 f.d G l))) s).mem) ∧
      ∀ a, (store = true → ∀ l ∈ performing G act, a ∉ s0.keysOf c l (req l)) → memRead t.mem a = memRead s.mem a

/-- For SLD, SST and ATOMS, at an instance with a lane that is not a helper lane, when the access meets no condition, misses
nothing and finds its bytes here: SLD writes the value of the bytes to s[SD], SST writes the low bytes of s[SD], ATOMS
performs its operation on the location with s[SD] and s[SD] receives the old value; every lane of the instance goes on, none
receives a push; every other byte of memory, register, lane, group and team is as before. An instance of helper lanes alone
performs no store and no atomic. (Where the manual leaves it open, this rests on the model: log 6, 49.) -/
def Obligations.ScalarMemoryResults : Prop :=
  ∀ (s : State) (c : Inst) (m : Mods) (lead : Nat) (rest : List Nat), s.Issues c m → s.Placed c →
    maskLanes c.mask = lead :: rest →
    let G := s.instGrp c
    let gives (f : FS) (v : Nat) : State := s.modGroup c.team c.group fun G => G.setS f.sd.toNat (BitVec.ofNat 64 v)
    (∀ i f n, ScalarLoad i f m n → let r := scalarOf G f m n .read
      s.Sees c lead r → (∃ l ∈ maskLanes c.mask, (G.lane l).helper = false) →
      (sysRelease m = true → s.teamPending c.team = false) →
      ∃ t, exec i s = .next t ∧ MemRetired (gives f (valueAt s c lead r)) t c m 0 (fun _ => {}) ∧ SameMemory s t) ∧
    (∀ i f n, ScalarStore i f m n → let r := scalarOf G f m n .write
      s.Sees c lead r → (∃ l ∈ maskLanes c.mask, (G.lane l).helper = false) →
      (sysRelease m = true → s.teamPending c.team = false) →
      ∃ t, exec i s = .next t ∧ MemRetired s t c m 0 (fun _ => {}) ∧
        MemoryOf (s.wrCells (cellsAt s c lead r (G.sreg f.sd.toNat).toNat)) s t ∧
        ∀ a, a ∉ s.keysOf c lead r → memRead t.mem a = memRead s.mem a) ∧
    (∀ i f wide op, ScalarAtom i f m wide op →
      let p := scalarAtomOf G f op wide
      let r := scalarOf G f m (if wide then 8 else 4) (.atomic p)
      let keys := s.keysOf c lead r
      s.Sees c lead r → (∃ l ∈ maskLanes c.mask, (G.lane l).helper = false) →
      (sysRelease m = true → s.teamPending c.team = false) →
      ∃ t, exec i s = .next t ∧
        MemRetired (gives f (atomStep s.peerNo p s keys).1) t c m 0 (fun _ => {}) ∧
        MemoryOf (atomDone s.peerNo p s keys) s t ∧ ∀ a, a ∉ keys → memRead t.mem a = memRead s.mem a) ∧
    ((∀ l ∈ maskLanes c.mask, (G.lane l).helper = true) →
      (∀ i f n, ScalarStore i f m n → exec i s = .next (s.modGroup c.team c.group fun G => G.goesOn c (toNext c m))) ∧
      ∀ i f wide op, ScalarAtom i f m wide op →
        exec i s = .next (s.modGroup c.team c.group fun G => G.goesOn c (toNext c m)))

/-- When the lanes of Active() meet no condition, miss nothing and find their bytes here: DISCARD makes the 128-byte line of the
byte each lane that is not a helper lane names all zero and clears its poison; LASTUSE first gives every lane of Active()
its 16 bytes as they were, then discards those lines. Every byte outside those lines reads as before, the lanes go on, other
lanes of LASTUSE's instance receive two pushes of zero, and nothing else changes. (Where the manual leaves it open, this
rests on the model: log 39, 167, 169.) -/
def Obligations.DiscardAndLastUse : Prop :=
  ∀ (f : V3) (m : Mods) (s : State) (c : Inst), s.Issues c m → s.Placed c → s.MemInv →
    let G := s.instGrp c
    let act := activeOf s c f.g.toNat (guardNeg m)
    let named (r : Nat → LaneReq) (a : Nat) : Prop :=
      ∃ l ∈ performing G act, ∃ k, (s.keysOf c l (r l)).head? = some k ∧ a / 128 = k / 128
    let d := elemOf G f m .global .discard 1
    let u := elemOf G f m .global .lastuse 16
    ((∀ l ∈ performing G act, s.Sees c l (d l)) →
      ∃ t, exec (.discard f m) s = .next t ∧ MemRetired s t c m act (fun _ => {}) ∧ t.eng = s.eng ∧
        (∃ tlb, t.mm = { s.mm with tlb := tlb }) ∧ (∀ a, named d a → memRead t.mem a = 0 ∧ a / 128 ∉ t.poison) ∧
        ∀ a, ¬ named d a → memRead t.mem a = memRead s.mem a ∧ (a / 128 ∈ t.poison ↔ a / 128 ∈ s.poison)) ∧
    ((∀ l, act.getLsbD l = true → s.Sees c l (u l)) →
      ∃ t, exec (.lastuse f m) s = .next t ∧
        MemRetired s t c m act (fun l => if act.getLsbD l then load128 f.d (valueAt s c l (u l)) else zeroPushes 2) ∧
        t.eng = s.eng ∧ (∃ tlb, t.mm = { s.mm with tlb := tlb }) ∧
        (∀ a, named u a → memRead t.mem a = 0 ∧ a / 128 ∉ t.poison) ∧
        ∀ a, ¬ named u a → memRead t.mem a = memRead s.mem a ∧ (a / 128 ∈ t.poison ↔ a / 128 ∈ s.poison))

/-- PREF only goes on. SCATADD adds one held contribution for each lane of Active() that is not a helper lane, in ascending
order, with the word's physical key, its address, the sort key and the lane's value, when the lanes meet no condition and no
slice would pass its quota; memory is as before. BPREF takes a free token slot (which one, the manual leaves open), gives
every lane of Active() its new handle and begins the prefetch of the range's lines; an empty range ends at once. BPREF.bo
begins it for a barrier object. SHINV drops the issuing core's entries for the addresses its lanes name, SHINV.all all of
them if Active() holds a lane. All of them go on at the next word. (Where the manual leaves it open, this rests on the
model: log 39, 40, 42, 52.) -/
def Obligations.ScatterPrefetchShinv : Prop :=
  ∀ (f : V3) (m : Mods) (s : State) (c : Inst), s.Issues c m → s.Placed c →
    let G := s.instGrp c
    let T := s.team c.team
    let act := activeOf s c f.g.toNat (guardNeg m)
    let on (u : State) : Res := .next (u.modGroup c.team c.group fun G => G.goesOn c (toNext c m))
    let req : Nat → LaneReq := fun l => elemReq .global .scatter 4 4 4 (baseAddr G m f.a l)
    let word : Nat → Nat := fun l => (s.keysOf c l (req l)).headD 0
    let lanes := performing G act
    let contribution (l n : Nat) : Contribution :=
      ⟨s.ctxOf c.team, word l, baseAddr G m f.a l,
        if f.b = 0b111111 then BitVec.ofNat 32 (s.lid c.team c.group l) else src32 G m l f.b,
        BitVec.ofNat 64 (s.lid c.team c.group l), s.eng.scatSeq + n, src32 G m l f.d, T.grid, T.core, c.team, c.group⟩
    exec (.pref f m) s = on s ∧
    ((∀ l ∈ lanes, s.Sees c l (req l)) → (∀ l ∈ lanes, s.scatOver (s.ctxOf c.team) (lanes.map word) (word l) = false) →
      ∃ t, exec (.scataddF32 f m) s = .next t ∧ MemRetired s t c m act (fun _ => {}) ∧ t.mem = s.mem ∧ t.poison = s.poison ∧
        t.eng.scatter = s.eng.scatter ++ (indexed lanes).map (fun x => contribution x.2 x.1) ∧ t.eng.cards = s.eng.cards ∧
        t.eng.streams = s.eng.streams ∧ t.eng.prefetches = s.eng.prefetches) ∧
    (∀ e, electLane G act = some e →
      let a := baseAddr G m f.a e
      let n := (src32 G m e f.b).toNat
      a.toNat < 2 ^ 57 → a.toNat + n ≤ 2 ^ 57 → G.freeTokens ≠ [] →
      ∃ slot gen, slot ∈ G.freeTokens ∧ gen = (G.tokens.getD slot {}).gen + 1 ∧
        ∃ t, exec (.bpref f m) s = .next t ∧
          (∀ l, c.mask.getLsbD l = true → l < G.lanes.length → (t.instGrp c).lane l =
            ((G.lane l).take (if act.getLsbD l then out32 f.d (gen ++ BitVec.ofNat 5 slot) else zeroPushes 1)).goesTo
              (afterUnit c.pc m)) ∧
          (slot < G.tokens.length → ((t.instGrp c).tokens.getD slot {}).busy = (lineCount a.toNat n != 0) ∧
            ((t.instGrp c).tokens.getD slot {}).gen = gen) ∧
          (lineCount a.toNat n = 0 → t.eng = s.eng) ∧
          (lineCount a.toNat n ≠ 0 → t.eng = (s.addPrefetch ⟨s.prefetchId, c.team, c.group, s.ctxOf c.team, a.toNat / 128,
            lineCount a.toNat n, some slot, none, 0⟩).eng) ∧ t.mem = s.mem) ∧
    (electLane G act = none → exec (.bprefBo f m) s = on s ∧
      exec (.bpref f m) s = .next (s.modGroup c.team c.group fun G => G.retires c m act 1 fun _ => zeroPushes 1)) ∧
    (∀ e, electLane G act = some e →
      let a := baseAddr G m f.a e
      let n := (src32 G m e f.b).toNat
      let off : W64 := (src32 G m e f.d).zeroExtend 64
      a.toNat < 2 ^ 57 → a.toNat + n ≤ 2 ^ 57 →
      s.Sees c e { segs := [⟨.scratch, off, 8, .write, false⟩], rep := off, kind := 1, own := misaligned off 8 1 } →
      ∃ t, exec (.bprefBo f m) s = .next t ∧ MemRetired s t c m act (fun _ => {}) ∧ t.mem = s.mem ∧
        t.eng = (if lineCount a.toNat n = 0 then s else s.addPrefetch ⟨s.prefetchId, c.team, c.group, s.ctxOf c.team,
          a.toNat / 128, lineCount a.toNat n, none, some off.toNat, 0⟩).eng) ∧
    exec (.shinv f m) s = on (s.dropShapes c fun x =>
      (maskLanes act).any fun l => (src G m l f.a .b64).toNat == x.addr) ∧
    exec (.shinvAll f m) s = on (if act = 0 then s else s.dropShapes c fun _ => true)

/-- For every element load and store, atomic, tile and ragged access (table Forms.Accesses), when nothing but the lanes' checks
decides (Forms.Decided): if a lane that takes part, other than a helper lane, meets a condition, the instance traps with the
first one of Table 11-1's order: it reports the lowest lane that meets it and that lane's cause, reason and address, AUX as
the table says, and its mask holds exactly the lanes that meet it; nothing is read or written. If no lane meets one, the
lanes that miss a page, an absent line, an entry or a free slot park as one sub-group where they stand, with a fault record
for every missing page; the other lanes that find what they ask for retire; a byte that none of those stores to reads as
before. TST.whole and TLD.ver park in every lane of Active() and read and write nothing. A scalar access traps in all lanes
of the instance, or parks it whole. A store or atomic to cluster space (ST.cscr; SST and ATOMS with SX = 2) that is aligned
and lies within a team's scratchpad traps with cause group 7 reason 4: ST in exactly the lanes of Active() that are not
helper lanes, SST and ATOMS in the instance. (Where the manual leaves it open, this rests on the model: log 33, 34, 43, 164,
187, 195, 197.) -/
def Obligations.MemoryTrapsAndParks : Prop :=
  (∀ i f m pushes reads whole start req, Accesses i f m pushes reads whole start req → ∀ (s : State) (c : Inst),
    s.Issues c m → s.Placed c →
    let G := s.instGrp c
    let T := s.team c.team
    let act := activeOf s c f.g.toNat (guardNeg m)
    let ls := if reads then maskLanes act else performing G act
    let s0 := start s c
    let seen : Nat → LaneAcc := fun l => s0.checkLane c l (req s c l)
    let meets (l : Nat) (k : Cond) : Prop := l ∈ performing G act ∧ (seen l).first = some k
    let parks (l : Nat) : Prop := l ∈ ls ∧ Misses T reads (seen l)
    Decided s0 c ls seen →
    (∀ l k, meets l k → (∀ l' k', meets l' k' → k.ord < k'.ord ∨ (k.ord = k'.ord ∧ l ≤ l')) →
      (k.ord < ordVersion ∨ maxTries ≤ triesOf G c.mask + 1 ∨ ∀ l' k', l' ∈ ls → (seen l').first = some k' → k'.ord ≠ ordVersion) →
      (∀ l' ∈ ls, (seen l').fifo = none ∨ k.ord ≤ 900) →
      ∃ aux, AuxOf k aux (fun l' k' => meets l' k' ∧ k'.ord = k.ord) ∧
        TrapsIn (exec i s) (s0.clearAnswers c.owns) c m (fun mask => trapAddr k.cause l k.reason aux k.addr mask)
          fun l' => ∃ k', meets l' k' ∧ k'.ord = k.ord) ∧
    ((∀ l ∈ ls, (seen l).conds = [] ∧ ((seen l).pages ≠ [] → (G.lane l).helper = false) ∧
        (¬ Misses T reads (seen l) → s0.Sees c l (req s c l))) →
      (∃ l, parks l) → (whole = false → reads = false → sysRelease m = true → s.teamPending c.team = false) →
      ∃ t, exec i s = .next t ∧ t.eng = s.eng ∧
        (∀ l ∈ ls, ∀ p ∈ (seen l).pages, ∃ r ∈ t.mm.faults, r.ctx = s.ctxOf c.team ∧ r.page = p.1) ∧
        (reads = true ∨ whole = true → t.mem = s.mem) ∧
        (∀ a, (∀ l ∈ ls, ¬ Misses T reads (seen l) → a ∉ s0.keysOf c l (req s c l)) → memRead t.mem a = memRead s.mem a) ∧
        ∀ l, l < G.lanes.length →
          (parks l ∨ whole = true ∧ act.getLsbD l = true → ((t.instGrp c).lane l).status = .parked s.mm.parkId ∧
            ((t.instGrp c).lane l).pc = (G.lane l).pc ∧ ((t.instGrp c).lane l).q = (G.lane l).q ∧
            ((t.instGrp c).lane l).k = (G.lane l).k) ∧
          (whole = false → c.mask.getLsbD l = true → ¬ parks l → ((t.instGrp c).lane l).pc = afterUnit c.pc m ∧
            ((t.instGrp c).lane l).status = (G.lane l).status) ∧
          (whole = false → c.mask.getLsbD l = true → act.getLsbD l = false → (t.instGrp c).lane l =
            ((G.lane l).take (zeroPushes pushes)).goesTo (afterUnit c.pc m)) ∧
          (whole = true → act.getLsbD l = false → ((t.instGrp c).lane l).pc = (G.lane l).pc ∧
            ((t.instGrp c).lane l).status = (G.lane l).status))) ∧
  (∀ i f m n val, Store i f m .cluster n val → ∀ (s : State) (c : Inst) (e : Nat) (ls : List Nat), s.Issues c m → s.Placed c →
    let G := s.instGrp c
    let K := s.kernelOf c.team
    let addr : Nat → W64 := fun l => elemAddr G m f n l
    performing G (activeOf s c f.g.toNat (guardNeg m)) = e :: ls →
    (∀ l ∈ e :: ls, s.partOf (c.team, c.group, l) = none ∧ InSet s c K (addr l) n) →
    TrapsIn (exec i s) (s.clearAnswers c.owns) c m (fun mask => trapAddr 7 e 4 (kindAux 1) (addr e) mask) fun l => l ∈ e :: ls) ∧
  ∀ (s : State) (c : Inst) (f : FS) (m : Mods) (lead : Nat) (rest : List Nat), s.Issues c m → s.Placed c →
    maskLanes c.mask = lead :: rest → (∃ l ∈ maskLanes c.mask, ((s.instGrp c).lane l).helper = false) →
    let G := s.instGrp c
    ∀ i n acc, ScalarAccess G i f m n acc →
      let r := scalarOf G f m n acc
      let x := s.checkLane c lead r
      (scalarSpace f.sx = .cluster → acc.writes = true → InSet s c (s.kernelOf c.team) (scalarAddr G f m) n →
        exec i s = .next ((s.clearAnswers c.owns).instTrap c m
          (trapAddr 7 lead 4 (kindAux acc.kind) (scalarAddr G f m) c.mask))) ∧
      (∀ k, x.busy = [] → x.first = some k →
        exec i s = .next ((s.clearAnswers c.owns).instTrap c m (trapAddr k.cause lead k.reason k.aux k.addr c.mask))) ∧
      (x.busy = [] → x.conds = [] → x.pages ≠ [] ∨ x.lines ≠ [] →
        ∃ t, exec i s = .next t ∧ t.mem = s.mem ∧ t.eng = s.eng ∧
          (∀ p ∈ x.pages, ∃ q ∈ t.mm.faults, q.ctx = s.ctxOf c.team ∧ q.page = p.1) ∧
          ∀ l, l < G.lanes.length → c.mask.getLsbD l = true → ((t.instGrp c).lane l).status = .parked s.mm.parkId ∧
            ((t.instGrp c).lane l).pc = (G.lane l).pc ∧ ((t.instGrp c).lane l).q = (G.lane l).q ∧
            ((t.instGrp c).lane l).k = (G.lane l).k)

/-- FENCE goes on, unless it is a release at system scope while a write of the team is on its way to another package. At BARTEAM
n and BARCLU n, whose set of teams is the team alone or the team-set, the lanes of the instance outside Active() go on. When
with the lanes of Active() every lane of every team of the set has arrived at the barrier or exited, every lane that had
arrived runs at the word after its barrier, and so do the lanes of Active(); otherwise the lanes of Active() wait at the
barrier with the next word to go on at. Queues, registers and memory are as before. (Where the manual leaves it open, this
rests on the model: log 6, 19.) -/
def Obligations.FencesAndBarriers : Prop :=
  ∀ (f : V4) (m : Mods) (s : State) (c : Inst), s.Issues c m → s.Placed c →
    let G := s.instGrp c
    let act := activeOf s c f.g.toNat (guardNeg m)
    let n := f.c.toNat / 8
    let kind := f.c.toNat % 8
    let laneOf (u h l : Nat) (w : State) : Lane := (w.grp u h).lane l
    let there (u h l : Nat) : Prop := h < (s.team u).groups.length ∧ l < (s.grp u h).lanes.length
    let atBarrier (cluster : Bool) (ms : List Nat) (i : Instr) : Prop :=
      let here (u h l : Nat) : Prop := u = c.team ∧ h = c.group ∧ act.getLsbD l = true
      let all : Prop := ∀ u ∈ ms, ∀ h l, there u h l →
        ((s.grp u h).lane l).isExited = true ∨ ((s.grp u h).lane l).arrived cluster n = true ∨ here u h l
      ∃ t, exec i s = .next t ∧ t.mem = s.mem ∧
        (∀ u h l, there u h l → (laneOf u h l t).q = (laneOf u h l s).q ∧ (laneOf u h l t).k = (laneOf u h l s).k ∧
          (laneOf u h l t).p = (laneOf u h l s).p) ∧
        (∀ l, l < G.lanes.length → c.mask.getLsbD l = true → act.getLsbD l = false → (G.lane l).status = .run →
          ((t.instGrp c).lane l).status = .run ∧ ((t.instGrp c).lane l).pc = afterUnit c.pc m) ∧
        (all → (∀ l, l < G.lanes.length → act.getLsbD l = true →
            ((t.instGrp c).lane l).status = .run ∧ ((t.instGrp c).lane l).pc = afterUnit c.pc m) ∧
          ∀ u ∈ ms, ∀ h l, there u h l → ((s.grp u h).lane l).arrived cluster n = true → ¬ here u h l →
            (laneOf u h l t).status = .run ∧ (laneOf u h l t).pc = (laneOf u h l s).resume) ∧
        (¬ all → ∀ l, l < G.lanes.length → act.getLsbD l = true →
          ((t.instGrp c).lane l).arrived cluster n = true ∧ ((t.instGrp c).lane l).resume = afterUnit c.pc m)
    (((kind = 0 ∨ kind = 2 ∨ kind = 3) → n = 5 → act ≠ 0 → s.teamPending c.team = false) →
      exec (.fence f m) s = .next (s.modGroup c.team c.group fun G => G.goesOn c (toNext c m))) ∧
    (c.mask.toNat ≠ 0 → (∀ l, c.mask.getLsbD l = true → l < G.lanes.length ∧ (G.lane l).status = .run) →
      atBarrier false [c.team] (.barteam f m) ∧
      ∀ ms, s.setMates c.team = some ms → c.team ∈ ms → atBarrier true ms (.barclu f m))

/-- When the lanes that take part meet no condition and find their object: BOINIT writes the elected lane's 64-bit value to its
object and nothing else; BOARR adds each lane's value to its object's count in ascending lane order and pushes the count
found; at BOWAIT each lane of Active() whose object's count is at or below zero receives it and goes on, and each other one
waits, standing where it is with the next word to go on at; other lanes of BOARR and BOWAIT receive a push of zero. Every
byte of memory outside the objects written is as before. -/
def Obligations.BarrierObjects : Prop :=
  ∀ (f : V4) (m : Mods) (s : State) (c : Inst), s.Issues c m → s.Placed c →
    let G := s.instGrp c
    let act := activeOf s c f.g.toNat (guardNeg m)
    let w := objectOf s c m f fun _ => .write
    let add (l : Nat) : PeerAtomic := ⟨.add, true, src G m l f.b .s64, 0⟩
    let a := objectOf s c m f fun l => .atomic (add l)
    let r := objectOf s c m f fun _ => .read
    let after : Nat → State := fun n =>
      atomLanes s.peerNo add (fun l => s.keysOf c l (a l)) ((performing G act).filter fun l => decide (l < n)) s
    let s1 := s.lookTime.2.modGroup c.team c.group fun G => G.mapLanes fun l L =>
      if c.mask.getLsbD l then { L with status := .run } else L
    let waits (l : Nat) : Prop := act.getLsbD l = true ∧ 0 < (BitVec.ofNat 64 (valueAt s1 c l (r l))).toInt
    (∀ e, electLane G act = some e → s.Sees c e (w e) →
      ∃ t, exec (.boinit f m) s = .next t ∧ MemRetired s t c m act (fun _ => {}) ∧
        MemoryOf (s.wrCells (cellsAt s c e (w e) (src G m e f.b .s64).toNat)) s t ∧
        ∀ x, x ∉ s.keysOf c e (w e) → memRead t.mem x = memRead s.mem x) ∧
    (electLane G act = none →
      exec (.boinit f m) s = .next (s.modGroup c.team c.group fun G => G.goesOn c (toNext c m))) ∧
    ((∀ l ∈ performing G act, s.Sees c l (a l)) →
      ∃ t, exec (.boarr f m) s = .next t ∧
        MemRetired s t c m act (fun l => if l ∈ performing G act then
          { pushes := [BitVec.ofNat 64 (atomStep s.peerNo (add l) (after l) (s.keysOf c l (a l))).1] } else zeroPushes 1) ∧
        MemoryOf (after 32) s t ∧
        ∀ x, (∀ l ∈ performing G act, x ∉ s.keysOf c l (a l)) → memRead t.mem x = memRead s.mem x) ∧
    ((∀ l, act.getLsbD l = true → s1.Sees c l (r l)) →
      ∃ t, exec (.bowait f m) s = .next t ∧ t.mem = s.mem ∧ t.poison = s.poison ∧ t.eng = s.eng ∧
        ∀ l, l < G.lanes.length → c.mask.getLsbD l = true →
          (waits l → (∃ since, ((t.instGrp c).lane l).status =
              .boWait (src32 G m l f.a).toNat since) ∧ ((t.instGrp c).lane l).pc = (G.lane l).pc ∧
            ((t.instGrp c).lane l).resume = afterUnit c.pc m ∧ ((t.instGrp c).lane l).q = (G.lane l).q) ∧
          (¬ waits l → ((t.instGrp c).lane l).status = .run ∧ ((t.instGrp c).lane l).pc = afterUnit c.pc m ∧
            ((t.instGrp c).lane l).q = ((G.lane l).push
              (if act.getLsbD l then BitVec.ofNat 64 (valueAt s1 c l (r l)) else 0)).q ∧
            ((t.instGrp c).lane l).k = (G.lane l).k))

/-- TOKWAIT pushes the lines that each lane's prefetch skipped when no lane's prefetch is busy, and waits at issue otherwise.
KICK submits the 64 bytes at the elected lane's offset as a card of its team when the card is well formed and the core holds
fewer than 64, and waits at issue when it holds 64; a malformed card traps with cause group 13 reason 16. SCATFLUSH flushes
each word that a held contribution within its scope names, drops those contributions and goes on. GLAUNCH pushes 2 for a
queue that is disabled or serves another context, 1 for a full one, and otherwise stores the packet in the slot at QWRITE,
advances QWRITE and pushes the slot's number above a status of zero; a slot that cannot be written counts in the grid's
record, and QWRITE advances over it. With no elected lane none of them does anything, and GLAUNCH pushes zero. (Where the
manual leaves it open, this rests on the model: log 53, 141, 142, 172, 173.) -/
def Obligations.TokensCardsAndLaunches : Prop :=
  ∀ (f : V4) (m : Mods) (s : State) (c : Inst), s.Issues c m → s.Placed c →
    let G := s.instGrp c
    let act := activeOf s c f.g.toNat (guardNeg m)
    let on (u : State) : Res := .next (u.modGroup c.team c.group fun G => G.goesOn c (toNext c m))
    let push (u : State) (v : W64) : Res :=
      .next (u.modGroup c.team c.group fun G => G.retires c m act 1 fun _ => { pushes := [v] })
    let slot (l : Nat) : Token := G.tokens.getD ((src32 G m l f.a).toNat % 32) {}
    let busy (l : Nat) : Prop := (slot l).busy = true ∧ (slot l).gen = (src32 G m l f.a).extractLsb' 5 27
    ((∀ l ∈ maskLanes act, ¬ busy l) → exec (.tokwait f m) s = .next (s.modGroup c.team c.group fun G =>
      G.retires c m act 1 fun l => { pushes := [(slot l).skipped.zeroExtend 64] })) ∧
    ((∃ l ∈ maskLanes act, busy l) → exec (.tokwait f m) s = .next (s.stall c)) ∧
    (electLane G act = none → exec (.kick f m) s = on s ∧ exec (.scatflush f m) s = on s ∧ exec (.glaunch f m) s = push s 0) ∧
    (∀ e, electLane G act = some e →
      let off := src32 G m e f.a
      let C : Card := cardAt s c (blockAt s c off 64)
      let x := s.checkLane c e (structReq s c.team off 64 .read)
      x.conds = [] → x.lines = [] →
      (s.cardBad c.team C = true → exec (.kick f m) s = .next ((s.clearAnswers c.owns).instTrap c m
        (trapOf 13 e 16 0 0 off c.mask))) ∧
      (s.cardBad c.team C = false → s.coreCards (s.team c.team).core < 64 → exec (.kick f m) s = on (s.acceptCard C)) ∧
      (s.cardBad c.team C = false → 64 ≤ s.coreCards (s.team c.team).core → exec (.kick f m) s = .next (s.stall c))) ∧
    (∀ e, electLane G act = some e →
      let covered := s.eng.scatter.filter fun x => s.scopeCovers c (scopeOf f) x
      let words := sortBy (fun a b => decide (a < b)) (covered.map (·.pa)).eraseDups
      (∀ k ∈ words, s.dirBlocks (k / 128) true = false) → (scopeOf f = 5 → s.teamPending c.team = false) →
      ∃ t, exec (.scatflush f m) s = .next t ∧
        (s.regs.elSize = 0 → ∀ a, (∀ k ∈ words, ¬ (k ≤ a ∧ a < k + 4)) → memRead t.mem a = memRead s.mem a) ∧
        t.eng.scatter = s.eng.scatter.filter (fun x => !s.scopeCovers c (scopeOf f) x) ∧
        on (words.foldl (fun u k => u.flushKey (s.team c.team).grid covered k)
          { s with eng := { s.eng with scatter := s.eng.scatter.filter fun x => !s.scopeCovers c (scopeOf f) x } }) = .next t) ∧
    (∀ e, electLane G act = some e →
      let pk := src G m e f.a .b64
      let x := parseSource pk
      let q := (src32 G m e f.b).toNat
      let Q := s.queue q
      let rq : LaneReq :=
        if x.space = 1 then structReq s c.team (BitVec.ofNat 32 x.addr) 128 .read
        else { segs := [⟨.global, BitVec.ofNat 64 x.addr, 128, .read, false⟩], rep := pk }
      let w := s.slotUnit c.team
      let u := (s.noteLeaves c [(e, s.checkLane c e rq)]).clearAnswers fun w => w == unitOf c e
      x.bad = false → x.space ≤ 1 → x.rank = 0 → q < 64 → x.addr % 128 = 0 → s.Sees c e rq →
      ((Q.en = false ∨ Q.ctx ≠ s.ctxOf c.team) → exec (.glaunch f m) s = push u 2) ∧
      (Q.en = true → Q.ctx = s.ctxOf c.team → (Q.qsize = 0 ∨ Q.qsize.toNat - 1 ≤ Q.count) →
        exec (.glaunch f m) s = push u 1) ∧
      (Q.en = true → Q.ctx = s.ctxOf c.team → Q.qsize ≠ 0 → Q.count < Q.qsize.toNat - 1 →
        (∀ v ps, u.hubRange w Q (Q.slotAt Q.qwrite.toNat) 128 .write = .ok v ps →
          exec (.glaunch f m) s = push (v.placePacket w q ps ((s.keysOf c e rq).map (memRead s.mem)))
            (BitVec.ofNat 64 (Q.qwrite.toNat * 65536))) ∧
        ∀ x, u.hubRange w Q (Q.slotAt Q.qwrite.toNat) 128 .write = .bad x →
          exec (.glaunch f m) s = push ((if u.unitFailed w.who then u
              else u.errorEntry w.grid 1 (BitVec.ofNat 64 (Q.slotAt Q.qwrite.toNat))).placePacket w q [] [])
            (BitVec.ofNat 64 (Q.qwrite.toNat * 65536))))

/-- SRAMMODE of a SCRATCH bank that the team has and no card uses pushes the old mode times 256 plus a status in every lane of
Active(): status 4 for a mode above 3; 3 for a tape bank; 2 for a CACHE bank that would leave fewer than four CACHE banks on
the core; else 0. Only with status 0 and another mode does anything change: the bank has the new mode, its FIFO counters are
zero, every byte of the bank reads zero, no line of it is absent; every byte outside it reads as before. A bank that a card
uses makes it wait at issue. (Where the manual leaves it open, this rests on the model: log 143.) -/
def Obligations.BankModes : Prop :=
  ∀ (f : V4) (m : Mods) (s : State) (c : Inst) (e : Nat) (B : Bank), s.Issues c m → s.Placed c → s.MemInv →
    let G := s.instGrp c
    let act := activeOf s c f.g.toNat (guardNeg m)
    let T := s.team c.team
    let b := (src32 G m e f.a).toNat
    let md := (src32 G m e f.b).toNat
    let old := modeCode B.mode
    let push (u : State) (status : Nat) : Res :=
      .next (u.modGroup c.team c.group fun G => G.retires c m act 1 fun _ => { pushes := [BitVec.ofNat 64 (old * 256 + status)] })
    let inBank (a : Nat) : Prop := scratchKey c.team (b * 32768) ≤ a ∧ a < scratchKey c.team (b * 32768) + 32768
    electLane G act = some e → T.banks[b]? = some B →
    (s.bankBusy c.team b = true → exec (.srammode f m) s = .next (s.stall c)) ∧
    (s.bankBusy c.team b = false →
      (3 < md → exec (.srammode f m) s = push s 4) ∧
      (md ≤ 3 → B.tape = true → exec (.srammode f m) s = push s 3) ∧
      (md ≤ 3 → B.tape = false → old = 0 → md ≠ 0 → s.cacheBanks T.core < 5 → exec (.srammode f m) s = push s 2) ∧
      (md ≤ 3 → B.tape = false → md = old → exec (.srammode f m) s = push s 0) ∧
      (md ≤ 3 → B.tape = false → md ≠ old → (old = 0 → 5 ≤ s.cacheBanks T.core) →
        ∃ u : State, exec (.srammode f m) s = push u 0 ∧
          (∀ a, inBank a → memRead u.mem a = 0) ∧ (∀ a, ¬ inBank a → memRead u.mem a = memRead s.mem a) ∧
          (∀ l ∈ (u.team c.team).absent, l / 256 ≠ b) ∧
          ((T.banks.take (b + 1)).all (fun x => !x.tape) = true →
            (u.team c.team).banks[b]? = some { B with mode := modeOf md, head := 0, tail := 0 })))

/-- For MMA with an issuing lane (the elected lane, or the lane .lane names): when the format words of the lanes agree on a
legal pair, the block is aligned, inside the scratchpad and readable, it passes every check, its tile takes an operation,
and a sparse operation's metadata are well formed, MMA of a block without shape record completes: the operation stands last
on the tile with the block's bytes, PSTAT is cleared, the lanes go on. With a shape record that the issuing lane has fetched
it does so with the record's bytes. Without an issuing lane MMA only goes on, unless .lane names a lane outside Active(),
other than a helper lane, of an instance that has a lane to elect, which traps with cause group 14 reason 12. A failed check
traps with cause group 14 and its number. (Where the manual leaves it open, this rests on the model: log 55, 56, 57, 59.) -/
def Obligations.MmaAccepted : Prop :=
  ∀ (f : V4) (m : Mods) (s : State) (c : Inst), s.Issues c m → s.Placed c →
    let G := s.instGrp c
    let act := activeOf s c f.g.toNat (guardNeg m)
    let n := (immOf m).toNat % 32
    (mmaLane G m act = none → (act = 0 ∨ (xopOf m).getLsbD 0 = false ∨ electLane G act = none ∨ act.getLsbD n = true ∨
        (G.lane n).helper = true) →
      exec (.mma f m) s = .next (s.modGroup c.team c.group fun G => G.goesOn c (toNext c m))) ∧
    ((xopOf m).getLsbD 0 = true → act.getLsbD n = false → (G.lane n).helper = false → electLane G act ≠ none →
      exec (.mma f m) s = .next ((s.clearAnswers c.owns).instTrap c m (trapOf 14 n 12 0 0 0 c.mask))) ∧
    ∀ e, mmaLane G m act = some e →
      let pb := src32 G m e f.a
      let fw := src32 G m e f.b
      let bs := blockAt s c pb 128
      let tile := bitsOf (fieldAt bs 4 4) 4 3
      let sparse := bitsOf (fieldAt bs 4 4) 1 1 = 1
      let fields := dimM (fieldAt bs 8 4) * fieldAt bs 12 4 / 8
      ∀ form, FormatsAgree G m act f e → formatPair fw = some form →
        pb.toNat % 128 = 0 → pb.toNat + 128 ≤ s.scratchBytes c.team → HasBlock s c e pb 128 →
        (∀ r, s.checkMma c.team bs fw form = some r → exec (.mma f m) s = .next ((s.clearAnswers c.owns).instTrap c m
          (trapOf 14 e r (tile * 2 ^ 16) (if r = 5 then fw else 0) pb c.mask))) ∧
        (s.checkMma c.team bs fw form = none → TileTakes s c tile → (sparse → badMeta G m f.c act fields = none) →
          (bitsOf (fieldAt bs 4 4) 2 2 = 0 → exec (.mma f m) s = .next
            (accepted (s.blockWrite c.team (pb.toNat + 0x50) [0, 0, 0, 0]) c m tile (mmaOp G c m f pb fw form bs []))) ∧
          (bitsOf (fieldAt bs 4 4) 2 2 ≠ 0 →
            let ra : W64 := BitVec.ofNat 64 (fieldAt bs 0x38 8)
            let s0 := s.dropStale c [(e, ra)]
            let rf := s0.recordFor c e ra 0
            let x := s0.checkLane c e { pre := rf.pre, look := rf.look, own := rf.own, rep := ra }
            ∀ r v shape, rf.got = some (r, v, shape) → x.conds = [] → x.pages = [] → x.busy = [] →
              (∀ k ∈ x.pre ++ x.look, s.isPeerKey k.1 = false ∧ s.dirBlocks (k.1 / 128) true = false) →
              ∃ u : State, exec (.mma f m) s = .next (accepted (u.blockWrite c.team (pb.toNat + 0x50) [0, 0, 0, 0]) c m tile
                  (mmaOp G c m f pb fw form bs shape)) ∧
                u.mem = s.mem ∧ u.teams = s.teams ∧ u.eng = s.eng))

/-- For each of the four forms with an elected lane, a tile that takes an operation, and operands and a block that pass the
form's checks: the operation stands last on the tile, with the form it leaves, its source or its block's bytes (MUPD clears
its status word), and the lanes go on. With no elected lane they only go on. A tile not allotted traps with cause group 14
reason 4. On a tile that holds an undelivered failure, a form that passes its checks instead traps with that failure's
cause, reason, position and block offset, and the failure is delivered once. (Where the manual leaves it open, this rests on
the model: log 55, 57, 59.) -/
def Obligations.TileFormsAccepted : Prop :=
  ∀ (f : V4) (m : Mods) (s : State) (c : Inst), s.Issues c m → s.Placed c →
    let G := s.instGrp c
    let act := activeOf s c f.g.toNat (guardNeg m)
    let i := f.c.toNat / 8
    (electLane G act = none → ∀ x ∈ [Instr.mzero f m, .mload f m, .mdrain f m, .mupd f m],
      exec x s = .next (s.modGroup c.team c.group fun G => G.goesOn c (toNext c m))) ∧
    ∀ e, electLane G act = some e →
      let A := src32 G m e f.a
      let fm := src32 G m e f.b
      let w := src G m e f.a .b64
      let x := parseSource w
      let room : Nat := if x.space = 1 then s.scratchBytes c.team else 32768 * ceilDiv (s.instKernel c).scratch 32768
      let d := blockAt s c A 64
      let u := blockAt s c A 128
      let zeroOk : Prop := fm.toNat < 2
      let loadOk : Prop := fm.toNat < 2 ∧ s.sourceBad c.team w.toNat = false ∧ x.addr % 128 = 0 ∧
        (x.space = 0 ∨ x.addr + 32768 ≤ room)
      let drainOk : Prop := A.toNat % 64 = 0 ∧ A.toNat + 64 ≤ s.scratchBytes c.team ∧ HasBlock s c e A 64 ∧
        s.checkDrain c.team i d = none
      let updOk : Prop := A.toNat % 128 = 0 ∧ A.toNat + 128 ≤ s.scratchBytes c.team ∧ HasBlock s c e A 128 ∧
        s.checkUpd c.team i u = none
      let takes (ok : Prop) (z : Instr) (s' : State) (o : TileOp) : Prop :=
        ok → TileTakes s c i → exec z s = .next (accepted s' c m i o)
      let fails (ok : Prop) (z : Instr) : Prop :=
        ok → i < (s.instKernel c).acc → ∀ b rest, (s.tile c.team i).fails = b :: rest →
          exec z s = .next (((s.modTile c.team i fun T => { T with fails := rest }).clearAnswers c.owns).instTrap c m
            (trapOf b.cause e b.reason (i * 2 ^ 16) b.aux1 b.off c.mask))
      ((s.instKernel c).acc ≤ i → exec (.mzero f m) s =
        .next ((s.clearAnswers c.owns).instTrap c m (trapOf 14 e 4 (i * 2 ^ 16) 0 0 c.mask))) ∧
      takes zeroOk (.mzero f m) s { kind := .mzero, group := c.group, off := 0, block := [], form := fm.getLsbD 0 } ∧
      takes loadOk (.mload f m) s
        { kind := .mload, group := c.group, off := 0, block := leBytes 8 w.toNat, form := fm.getLsbD 0 } ∧
      takes drainOk (.mdrain f m) s { kind := .mdrain, group := c.group, off := A.toNat, block := d } ∧
      takes updOk (.mupd f m) (s.blockWrite c.team (A.toNat + 0x68) [0, 0, 0, 0])
        { kind := .mupd, group := c.group, off := A.toNat, block := u } ∧
      fails zeroOk (.mzero f m) ∧ fails loadOk (.mload f m) ∧ fails drainOk (.mdrain f m) ∧ fails updOk (.mupd f m)

/-- MWAIT of an allotted tile whose accepted operations have all ended (or of a tile that no lane's count still waits for) and
that holds no undelivered failure pushes the tile's status word in each lane of Active(); while one has not ended and no
lane has waited before, the lanes of Active() park where they stand and nothing is pushed; helper lanes alone receive zero
of a tile that holds one. AMAXRD pushes the register's value; AMAXRD.sync does when the drains on the core that name it have
ended; AMAXCLR pushes the value held and sets the register to +0, unless Active() is empty, when it clears nothing. Memory
is as before in all of them. (Where the manual leaves it open, this rests on the model: log 58.) -/
def Obligations.MatrixWaitsAndMaxima : Prop :=
  ∀ (f : V4) (m : Mods) (s : State) (c : Inst), s.Issues c m → s.Placed c →
    let G := s.instGrp c
    let act := activeOf s c f.g.toNat (guardNeg m)
    let i := f.c.toNat / 8
    let n := f.c.toNat / 4
    let core := (s.team c.team).core
    let T := s.tile c.team i
    let push (u : State) (v : W64) : Res :=
      .next (u.modGroup c.team c.group fun G => G.retires c m act 1 fun _ => { pushes := [v] })
    let met (now : List (Nat × Nat × Nat)) : Prop :=
      ∀ l, act.getLsbD l = true → s.targetsMet c.team ((G.lane l).waits now) = true
    (∀ e, electLane G act = some e → i < (s.instKernel c).acc → met [(c.team, i, T.taken)] → T.fails = [] →
      exec (.mwait f m) s = push s (BitVec.ofNat 64 ((if T.int then 256 else 0) + T.flags.toNat))) ∧
    (∀ e, electLane G act = some e → i < (s.instKernel c).acc → i < (s.team c.team).tiles.length →
      (s.team c.team).status = .running → T.ended < T.taken → (∀ l, act.getLsbD l = true → (G.lane l).waitFor = none) →
      ∃ t, exec (.mwait f m) s = .next t ∧ t.mem = s.mem ∧ ∀ l, l < G.lanes.length → act.getLsbD l = true →
        (∃ id, ((t.instGrp c).lane l).status = .parked id) ∧ ((t.instGrp c).lane l).pc = (G.lane l).pc ∧
        ((t.instGrp c).lane l).q = (G.lane l).q ∧ ((t.instGrp c).lane l).waitFor = some (false, [(c.team, i, T.taken)])) ∧
    (act ≠ 0 → electLane G act = none → i < (s.instKernel c).acc → met [(c.team, i, T.taken)] →
      exec (.mwait f m) s = push s (if T.fails = [] then BitVec.ofNat 64 ((if T.int then 256 else 0) + T.flags.toNat) else 0)) ∧
    (act = 0 → exec (.mwait f m) s = push s 0 ∧ exec (.amaxclr f m) s = push s 0) ∧
    exec (.amaxrd f m) s = push s (BitVec.ofNat 64 (s.amax core n)) ∧
    (met (s.amaxDrains core n) → exec (.amaxrdSync f m) s = push s (BitVec.ofNat 64 (s.amax core n))) ∧
    (act ≠ 0 → exec (.amaxclr f m) s = push (s.setAmax core n 0) (BitVec.ofNat 64 (s.amax core n)))

/-- For MCOMPRESS with an elected lane whose operands pass the checks, when the lanes of Active() meet no condition, miss
nothing and find their source and destination bytes here: each lane of Active(), in ascending order, pushes the indices of
the kept columns of its dense groups and, unless it is a helper lane, writes the kept values at their places in the
destination tile; other lanes of the instance receive a push of zero; every other byte is as before. Among eight columns
four are kept, and every kept one has a larger magnitude than a dropped one or the same and a lower index. With no elected
lane it pushes zero and writes nothing. (Where the manual leaves it open, this rests on the model: log 57.) -/
def Obligations.CompressedPruning : Prop :=
  (∀ fmt xs, (keptOf fmt xs).length = 4 ∧ ∀ a b, a ∈ keptOf fmt xs → b < 8 → b ∉ keptOf fmt xs →
    pruneRank fmt (xs.getD b 0) < pruneRank fmt (xs.getD a 0) ∨
      (pruneRank fmt (xs.getD b 0) = pruneRank fmt (xs.getD a 0) ∧ a < b)) ∧
  ∀ (f : V4) (m : Mods) (s : State) (c : Inst), s.Issues c m → s.Placed c →
    let G := s.instGrp c
    let act := activeOf s c f.g.toNat (guardNeg m)
    (electLane G act = none → exec (.mcompress f m) s =
      .next (s.modGroup c.team c.group fun G => G.retires c m act 1 fun _ => zeroPushes 1)) ∧
    ∀ e y d, electLane G act = some e →
      s.checkCompress c e (src G m e f.a .b64) (src G m e f.b .b64) (src G m e f.c .b64) = .inr (y, d) →
      let row0 := bitsOf (src G m e f.b .b64).toNat 32 16
      let req := pruneOf G y d row0 (src G m e f.c .b64) (src G m e f.a .b64)
      let after : Nat → State := fun n => ((maskLanes act).filter fun l => decide (l < n)).foldl (fun u l =>
        u.wrCells (prunedCells u s c G y d row0 (req l) l)) s
      (∀ l, act.getLsbD l = true → s.Sees c l (req l)) →
      ∃ t, exec (.mcompress f m) s = .next t ∧
        MemRetired s t c m act (fun l =>
          if act.getLsbD l then (pruned (after l) s c y d row0 (req l) l).1 else zeroPushes 1) ∧
        MemoryOf (after 32) s t ∧
        ∀ a, (∀ l ∈ performing G act, a ∉ s.keysOf c l (req l)) → memRead t.mem a = memRead s.mem a

/-- For TEXS, TEXG, TEXADJ, TRACE, TRACEADJ and EDGEQ, when every lane of Active() meets no condition, misses nothing and finds
the bytes it reads here, and no slice would pass its quota: each lane of Active() receives what its instruction computes
from what it reads, each other lane of the instance as many pushes of zero; the contributions of the lanes that are not
helper lanes are held after those held before, in ascending lane order, each with its word's physical key, address, ordering
key and value; memory is as before. (Where the manual leaves it open, this rests on the model: log 32, 64, 65, 66, 67, 68,
69, 184, 189.) -/
def Obligations.TextureResults : Prop :=
  ∀ i f m n key lane, Sampled i f m n key lane → ∀ s c, s.Issues c m → s.Placed c →
    let G := s.instGrp c
    let act := activeOf s c f.g.toNat (guardNeg m)
    let x : Nat → TtLane := lane s c
    let req : Nat → LaneReq := fun l => sampleReq G f m l (x l)
    let all : List Nat := (performing G act).flatMap fun l => wordsOf s c l (req l)
    let new : List Contribution := (maskLanes act).flatMap fun l => heldOf s c key (x l) (req l) l
    (∀ l, act.getLsbD l = true → s.Sees c l (req l)) → (∀ k ∈ all, s.scatOver (s.ctxOf c.team) all k = false) →
    ∃ t, exec i s = .next t ∧
      MemRetired s t c m act (fun l => if act.getLsbD l then (x l).out else zeroPushes n) ∧
      t.mem = s.mem ∧ t.poison = s.poison ∧ t.eng.cards = s.eng.cards ∧ t.eng.streams = s.eng.streams ∧
      t.eng.scatter = s.eng.scatter ++ (indexed new).map fun y => { y.2 with seq := s.eng.scatSeq + y.1 }

/-- For the tape instructions over the lanes of Active() that are not helper lanes: without such a lane they only go on (TPOP
pushes zero). With the team's tape descriptor 0 they trap with cause group 12 reason 1; with one that is misaligned, or
holds no tape, with reason 2. On a tape whose bytes are there, when no row of Table 16-2 refuses a lane, the parts of the
region that each lane accesses (its record's place, its span's, the directory entry it seals or reads) can be accessed, no
earlier write of the tape has failed, and no lane waits for a replay: the streams are as after each lane's record, mark,
seal or removal in ascending lane order (on streams opened anew where USED is 0); TPOP pushes each lane the record it
removes, the others push nothing, lanes outside receive zeros, and all lanes of the instance go on. Every byte reads as
before but those of the descriptor's USED field and of the parts of the region that the lanes write. (Where the manual
leaves it open, this rests on the model: log 70, 71, 72, 73, 74, 75, 76, 77, 78, 198.) -/
def Obligations.TapeResults : Prop :=
  ∀ i f m k val, Taped i f m k val → ∀ s c, s.Issues c m → s.Placed c →
    let G := s.instGrp c
    let act := activeOf s c f.g.toNat (guardNeg m)
    let lanes := performing G act
    let n := tapePushes k
    let desc := (s.team c.team).tapeDesc.toNat
    let ctx := s.ctxOf c.team
    let va : W64 := BitVec.ofNat 64 desc
    let L : Lane := { bad := lanes.flatMap fun l => (G.lane l).bad }
    let x := s.checkSeg c.team L va ⟨.global, va, 64, .read, false⟩
    let bs := x.keys.map fun y => memRead s.mem y.1
    (lanes = [] → exec i s = .next (s.modGroup c.team c.group fun G => G.retires c m act n fun _ => zeroPushes n)) ∧
    ∀ e rest, lanes = e :: rest → (∀ l ∈ lanes, (G.lane l).segFail = none) →
      let traps (r : Nat) : Prop := exec i s = .next ((s.clearAnswers c.owns).instTrap c m
        (trapAddr 12 e r 0 va (laneMask fun l => decide (l ∈ lanes))))
      (desc = 0 → traps 1) ∧ (desc % 64 ≠ 0 → traps 2) ∧
      (desc ≠ 0 → desc % 64 = 0 → x.conds = [] → x.pages = [] → x.busy = [] → KeysHere s x.keys → parseTape bs = none →
        traps 2) ∧
      ∀ d ent, desc ≠ 0 → desc % 64 = 0 → x.conds = [] → x.pages = [] → x.busy = [] → KeysHere s x.keys → parseTape bs = some d →
        let s2 := if d.used = 0 then s.freshTape ctx desc else s
        let xs := tapeLanesOf s2 c k desc d val lanes
        let done := xs.foldl (fun u y => u.tapeDo c k desc y) s2
        let after := if k.touch = .write then done.tapePut c.team (xs.map ent) else done
        s2.tapeRows c k desc d (lanes.map fun l => (l, s.lid c.team c.group l, val G l)) = [] →
        (s.team c.team).tapeFail = [] → (∀ z ∈ s.fab.answers, z.who ≠ (c.team, 251, 0)) →
        (∀ y ∈ xs, s2.tapeSpan c k desc y = none) →
        (k = .tseal → s.unitPending (c.team, 251, 0) = false) →
        (∀ y ∈ xs, ∃ u, s2.regionAcc (s2.tapeUnit c y.lane) (G.lane y.lane) (s2.tapeRanges c k desc d y) k.touch =
          .ok u (ent y)) →
        s2.tapeWait (s2.tapeUnit c e) (desc + 0x20) 8 = none →
        ∃ t, exec i s = .next t ∧ t.eng.streams = done.eng.streams ∧ t.cp = done.cp ∧
          (∀ l, c.mask.getLsbD l = true → l < G.lanes.length → (t.instGrp c).lane l =
            ((G.lane l).take (match xs.find? fun y => y.lane == l with
              | some y => if n = 1 then s2.tapeValue c desc y else {}
              | none => zeroPushes n)).goesTo (afterUnit c.pc m)) ∧
          (∀ l, c.mask.getLsbD l = false → (t.instGrp c).lane l = G.lane l) ∧
          { t.instGrp c with lanes := [] } = { G with lanes := [] } ∧
          (∀ u h, (u, h) ≠ (c.team, c.group) → t.grp u h = s.grp u h) ∧
          ∀ a, (k.touch = .write → ∀ y ∈ xs, ∀ z ∈ pieceKeys (ent y), z.1 ≠ a) →
            (∀ u ps, after.engGlobal (after.tapeWriter c.team) (desc + 0x20) 8 .write = .ok u ps →
              ∀ z ∈ pieceKeys ps, z.1 ≠ a) →
            memRead t.mem a = memRead s.mem a

/-- A write of QWRITE below QSIZE sets it; another sets QSTAT.BADIDX and changes nothing else. SEGREL.GO releases the segment it
names and changes nothing else. Clearing QCTL.EN gives every launch of the queue that has not begun status 9, leaves every
other grid, keeps the writable bits of QCTL and, once every slot still in the ring could be read and cancelled, leaves QREAD
equal to QWRITE. Reading a slot of an enabled queue: one that cannot be read sets QSTAT.RDERR with an event; else the header
of its record is written first, and a record that cannot be written (its COMPL no multiple of 64) is remembered. Then a
packet that a check refuses has its record completed and makes no grid; one that is accepted makes one grid, accepted, with
the packet's parameters, its place in the order of reading and its allowed cores; where the record could not be written,
RDERR is set with an event and no grid is made. QREAD advances past the slot. A packet with a bad header or reserved field
fails the first check, one without teams the second. (Where the manual leaves it open, this rests on the model: log 87, 88,
89, 90, 91, 92, 94, 149, 152, 153, 154, 186, 190, 191.) -/
def Obligations.QueueRegisters : Prop :=
  ∀ (q : BitVec 6) (v : W32) (s : State),
    let n := q.toNat
    let Q := s.queue n
    let w := cpFor n Q.ctx
    let past : W32 := BitVec.ofNat 32 ((Q.qread.toNat + 1) % max 1 Q.qsize.toNat)
    (v.toNat < Q.qsize.toNat → exec (.qwriteWrite q v) s = .next (s.modQueue n fun Q => { Q with qwrite := v })) ∧
    (Q.qsize.toNat ≤ v.toNat →
      exec (.qwriteWrite q v) s = .next (s.modQueue n fun Q => { Q with qstat := Q.qstat ||| 1 })) ∧
    (v.getLsbD 31 = true → exec (.segrelGo q v) s = .next (s.mapSegments fun x =>
      { x with released := x.released || (x.queue == n && x.seg == v.toNat % 65536) })) ∧
    (Q.en = true → v.getLsbD 31 = false → ∃ t, exec (.queueDisable q v) s = .next t ∧ t.teams = s.teams ∧
      t.grids.take s.grids.length = s.grids.map (fun G =>
        if G.status = .accepted ∧ G.par.queue = n ∧ G.par.card = none ∧ G.par.replay = none ∧ G.report.status = 0 then
          { G with report := { G.report with status := 9 } } else G) ∧
      (n < s.cp.queues.length → (t.queue n).qctl = v &&& 0xF8FF0000) ∧
      (n < s.cp.queues.length → Q.qwrite.toNat < Q.qsize.toNat → Q.qread.toNat < Q.qsize.toNat → (t.queue n).closing = 0 →
        (t.queue n).qread = Q.qwrite)) ∧
    (Q.closing = 0 → Q.en = true → Q.qsize ≠ 0 → Q.qwrite ≠ Q.qread → s.noLaunch = false → s.ctxOut Q.ctx = false →
      (s.readSlot n = .no → exec (.readLaunchPacket q) s = .next ((s.readError n Q.ctx 0 []).nextSlot n)) ∧
      ∀ s0 bs, s.readSlot n = .got s0 bs →
        let x := (s0.slotRead n bs).1
        let s1 := (s0.slotRead n bs).2
        let compl := fieldAt x.bytes 0x68 8 % 2 ^ 57
        let ltag : W32 := BitVec.ofNat 32 (fieldAt x.bytes 0x1C 4)
        let ends (u : State) : Prop := exec (.readLaunchPacket q) s = .next ((u.engDone w).nextSlot n) ∧
          (n < s.cp.queues.length → (((u.engDone w).nextSlot n).queue n).qread = past)
        (packetBad x.bytes false = true → s1.checkPacket w n x.bytes false = .reject s1 1 0 0 0) ∧
        (packetBad x.bytes false = false → fieldAt x.bytes 0x10 4 * fieldAt x.bytes 0x14 4 * fieldAt x.bytes 0x18 4 = 0 →
          s1.checkPacket w n x.bytes false = .reject s1 2 0 0 0) ∧
        (x.headed = false → compl % 64 ≠ 0 → s1.headRecord w x = (s1, some { x with headed := true, lost := true })) ∧
        (x.headed = false → compl % 64 = 0 → ∀ s2, s1.writeRecord w w.who compl (leBytes 4 0x47430100 ++ List.replicate 60 0) = .done s2 →
          s1.headRecord w x = (s2, some { x with headed := true })) ∧
        ∀ s2 y, s1.headRecord w x = (s2, some y) →
          (∀ s3 st k r e, s2.checkPacket w n x.bytes false = .reject s3 st k r e →
            let rec_ := bareRecord st k r e
            (y.lost = true → ends (s3.readError n Q.ctx ltag rec_)) ∧
            (y.lost = false → ∀ s4, s3.writeRecord w w.who compl rec_ = .done s4 →
              ends (s4.logEvent 2 Q.ctx ltag ((rec_.drop 4).take 8)) ∧ s4.grids = s.grids ∧ s4.teams = s.teams)) ∧
          ∀ s3 par, s2.checkPacket w n x.bytes false = .accept s3 par →
            (y.lost = true → ends (s3.readError n Q.ctx ltag (leBytes 4 0x47430100 ++ List.replicate 60 0))) ∧
            (y.lost = false →
              ∃ (t : State) (G : Grid), exec (.readLaunchPacket q) s = .next t ∧ t.grids = s.grids ++ [G] ∧ t.teams = s.teams ∧
                G.status = .accepted ∧ { G.par with recorded := false } = { par with order := x.order, recorded := false } ∧
                G.place = { allowed := par.allowed } ∧ G.report = {} ∧ (n < s.cp.queues.length → (t.queue n).qread = past)))

/-- A launch that has become eligible picks the rung of R73 for that time, once. Of the eligible launches whose context is not
switched out, the one that precedes every other begins dispatch with the rung it has picked; no other grid and no team
changes. The rung is 0 without a deadline, else the lowest whose estimate, if it has one, keeps the deadline, else the last.
A dispatching grid with no team waiting to return to a core sends its next team to the core that its placement gives, as a
new team after all others, with the kernel's groups; no other team changes; with a team vacated, that one is placed first.
Reaching RELEASE releases the launch, and device time is then no earlier. Reaching DEADLINE marks the grid due and, with
DLTRAP, makes cause group 22 pending in every group of it that has not ended. A grid predicted to miss its deadline asks for
the cores of its set that lower priorities hold, unless such requests of its own still wait. (Where the manual leaves it
open, this rests on the model: log 82, 86, 95, 150, 151, 156, 157, 158, 160, 161.) -/
def Obligations.LaunchOrder : Prop :=
  ∀ (g : Nat) (s : State),
    let G := s.grid g
    let K := G.kernel
    let fits (t : Nat) (r : Nat) : Prop := ∀ d e, G.par.deadline = some d → s.estimate G.par.ctx (G.par.kernels.getD r {}) = some e → t + e ≤ d
    (∀ t, (G.par.deadline = none → s.pickRung G t = 0) ∧ (G.par.deadline ≠ none →
      ((∃ r, r < G.par.kernels.length ∧ fits t r) → s.pickRung G t < G.par.kernels.length ∧ fits t (s.pickRung G t) ∧
        ∀ r, r < s.pickRung G t → ¬ fits t r) ∧
      ((∀ r, r < G.par.kernels.length → ¬ fits t r) → s.pickRung G t = G.par.kernels.length - 1))) ∧
    (s.eligible g = true → g < s.grids.length → G.picked = false →
      (∀ h, h < s.grids.length → h ≠ g → s.eligible h = true → (s.grid h).picked = true) →
      (s.pickRungs.grid g).rung = (if G.par.replay.isSome then G.rung else s.pickRung G s.lookTime.1.toNat) ∧
        (s.pickRungs.grid g).picked = true ∧ s.pickRungs.teams = s.teams ∧ (∀ h, h ≠ g → s.pickRungs.grid h = s.grid h)) ∧
    (s.mayBegin g = true → g < s.grids.length →
      (∀ h, h < s.grids.length → s.eligible h = true → (s.grid h).picked = true) →
      (∀ h, h < s.grids.length → h ≠ g → s.mayBegin h = true → s.launchBefore g h = true ∧ s.launchBefore h g = false) →
      ∃ t, exec .beginDispatch s = .next t ∧ t.teams = s.teams ∧ (∀ h, h ≠ g → t.grid h = s.grid h) ∧
        (t.grid g).status = .dispatching ∧ (t.grid g).par = G.par ∧ (t.grid g).place = G.place ∧ (t.grid g).rung = G.rung) ∧
    (G.status = .dispatching → G.halted = false → s.ctxOut G.par.ctx = false → s.ctxBusy G.par.ctx = [] →
      (∀ u, s.firstSwitchedOut g = some u → s.canHold (s.team u).core K = true →
        exec (.dispatchTeam g) s = .next (s.replaceTo u (s.team u).core)) ∧
      (∀ u c, s.firstSwitchedOut g = none → s.firstVacated g = some u → s.vacatedCore g u = some c → s.canHold c K = true →
        exec (.dispatchTeam g) s = .next (s.replaceTo u c)) ∧
      (∀ c, s.firstSwitchedOut g = none → s.firstVacated g = none → G.place.next < G.teamCount → G.pixelsKnown = true →
        s.outranked g = false → (s.applyRekey g).nextCore g = some c →
        ∃ t T, exec (.dispatchTeam g) s = .next t ∧ t.teams = s.teams ++ [T] ∧ T.grid = g ∧ T.idx = G.place.next ∧ T.core = c ∧
          T.status = .running ∧ T.groups.length = K.groups ∧ T.tiles.length = K.acc ∧ T.absent = [] ∧
          (t.grid g).place.next = G.place.next + 1 ∧ ∀ h, h ≠ g → t.grid h = s.grid h)) ∧
    (∀ r, G.par.release = some r → G.released = false → G.status = .accepted →
      ∃ t, exec (.releaseTimeReached g) s = .next t ∧ (g < s.grids.length → t.grid g = { G with released := true }) ∧
        (∀ h, h ≠ g → t.grid h = s.grid h) ∧ t.teams = s.teams ∧ t.mem = s.mem ∧ (r < 2 ^ 64 → r ≤ t.hub.clock.now.toNat)) ∧
    (∀ d, G.par.deadline = some d → G.due = false → G.status ≠ .complete →
      ∃ t, exec (.deadlineReached g) s = .next t ∧ (g < s.grids.length → t.grid g = { G with due := true }) ∧ t.mem = s.mem ∧
        (d < 2 ^ 64 → d ≤ t.hub.clock.now.toNat) ∧ (G.par.dlTrap = false → t.teams = s.teams) ∧
        ∀ u T h, s.teams[u]? = some T → h < T.groups.length →
          t.grp u h = if G.par.dlTrap = true ∧ T.grid = g ∧ T.live = true ∧ (s.grp u h).ended = false then
            { s.grp u h with pend22 := some (deadlineCause G) } else s.grp u h) ∧
    (∀ d e, G.par.deadline = some d → s.predicted g = some e → d < e → G.status = .dispatching → G.preempted = false →
      s.lowerCores g ≠ [] → ∃ t, exec (.deadlinePreemptRequest g) s = .next t ∧ (t.grid g).preempted = true ∧
        t.teams = s.teams ∧ t.cp.vacs = s.cp.vacs ++ (s.lowerCores g).map fun x => ⟨G.par.ctx, x.2, false, some g⟩)

/-- A running team whose groups, tile operations and cards have ended ends, its undelivered failures reported and dropped. A
grid that has not ended and has nothing left under way becomes complete when its record can be written, or it has none; a
record written holds DONE. A replay of a segment that is gone, with a packet still to launch, ends with the reason "segment
lost"; one that has started, whose last grid has completed without failure, launches the next recorded packet as a grid of
its own, with the recorded rung and re-keys and without record, dependences, release time or deadline, fails when the copy
fails a check, and ends when no packet is left. The end of a context gives each of its grids that has not completed status
11 and cancels the items of its cards; grids of other contexts keep their status. (Where the manual leaves it open, this
rests on the model: log 79, 80, 91, 92, 93, 101, 155, 159.) -/
def Obligations.LaunchEnds : Prop :=
  ∀ (s : State) (n : Nat),
    (let T := s.team n
     n < s.teams.length → T.status = .running → (∀ G ∈ T.groups, G.ended = true) → (∀ x ∈ T.tiles, x.ops = []) →
      s.cardsHoldTeam n = false → s.gradientsDone n = true →
      ∃ t, exec (.teamEnd n) s = .next t ∧
        t.team n = { T with status := .ended, tapeFail := [], tiles := T.tiles.map fun x => { x with fails := [] } } ∧
        (∀ u, u ≠ n → t.team u = s.team u) ∧
        (T.tapeFail = [] → (∀ x ∈ T.tiles, x.fails = []) → t.grids = s.grids ∧
          ((s.grid T.grid).par.compl = none → t.mem = s.mem))) ∧
    (∀ G, s.grids[n]? = some G → G.status ≠ .complete → (G.status = .accepted → G.report.status ≠ 0) → s.gridQuiet n = true →
      let u := s.lookTime.2
      let missed := !(G.status == .accepted) && G.par.deadline.any fun d => decide (d < s.lookTime.1.toNat)
      let bytes := gridRecord G missed s.lookTime.1
      (G.rung < 8 → G.report.status < 256 → (∀ x, G.report.trap = some x → x.core < 256) → fieldAt bytes 4 4 / 2 ^ 31 = 1) ∧
      (G.par.compl = none → ∃ t, exec (.gridComplete n) s = .next t ∧ (t.grid n).status = .complete ∧
        (∀ h, h ≠ n → t.grid h = s.grid h) ∧ t.teams = s.teams) ∧
      ∀ a v, G.par.compl = some a → u.writeRecord (cpFor G.par.queue G.par.ctx) (recordOf n) a bytes = .done v →
        ∃ t, exec (.gridComplete n) s = .next t ∧ (t.grid n).status = .complete ∧
          (∀ h, h ≠ n → t.grid h = s.grid h) ∧ t.teams = s.teams ∧ (missed = false → t.mem = v.mem)) ∧
    (∀ R, s.cp.replays[n]? = some R → R.ended = false →
      (R.started = false → (∀ x ∈ s.cp.segments, x.name = R.name → x.lost = true) →
        exec (.replayLaunchPacket n) s = .next (s.endReplay n R.name (some 13))) ∧
      ∀ g, R.started = true → R.current = some g → (s.grid g).status = .complete →
        (s.replayFailed g = true → exec (.replayLaunchPacket n) s = .next (s.endReplay n R.name (some 14))) ∧
        (s.replayFailed g = false → R.todo = [] → exec (.replayLaunchPacket n) s = .next (s.endReplay n R.name none)) ∧
        (s.replayFailed g = false → R.todo ≠ [] → (∀ x ∈ s.cp.segments, x.name = R.name → x.lost = true) →
          exec (.replayLaunchPacket n) s = .next (s.endReplay n R.name (some 13))) ∧
        ∀ x pos orig rest s1 bs, s.replayFailed g = false → R.todo = (pos, orig) :: rest →
          s.cp.segments.find? (fun y => y.name == R.name && !y.lost) = some x → s.entriesOwed x.queue = false →
          let w := cpFor x.queue (s.grid orig).par.ctx
          s.cpRead w ((s.queue x.queue).entryAt pos) 128 = .got s1 bs →
          (∀ s2 a b d e, s1.checkPacket w x.queue bs true = .reject s2 a b d e →
            exec (.replayLaunchPacket n) s = .next ((s2.engDone w).endReplay n R.name (some 14))) ∧
          ∀ s2 par ks, s1.checkPacket w x.queue bs true = .accept s2 par →
            s2.rekeysOf w (s.queue x.queue) x orig = .got ks → fieldAt bs 0x74 1 % 4 < par.kernels.length →
            ∃ t H, exec (.replayLaunchPacket n) s = .next t ∧ t.grids = s.grids ++ [H] ∧ t.teams = s.teams ∧
              H.par = { par with replay := some R.name, compl := none, release := none, deadline := none, dlTrap := false, deps := [] } ∧
              H.rung = fieldAt bs 0x74 1 % 4 ∧ H.place = { allowed := par.allowed, rekeys := ks } ∧
              t.cp.replays[n]? = some { R with started := true, todo := rest, current := some s.grids.length }) ∧
    ∀ ctx : Byte, ∃ t, exec (.contextEnd ctx) s = .next t ∧ t.grids.length = s.grids.length ∧
      (∀ g, g < s.grids.length → ((s.grid g).par.ctx = ctx.toNat ∧ (s.grid g).status ≠ .complete →
          (t.grid g).report.status = 11 ∧ (t.grid g).halted = true) ∧
        (¬ ((s.grid g).par.ctx = ctx.toNat ∧ (s.grid g).status ≠ .complete) →
          (t.grid g).report.status = (s.grid g).report.status ∧ (t.grid g).halted = (s.grid g).halted)) ∧
      ∀ (k : Nat) (C : Card), s.eng.cards[k]? = some C → C.ctx = ctx.toNat → C.ended = false →
        ∃ D : Card, t.eng.cards[k]? = some D ∧ D.cancel.isSome = true

/-- A packet that can be fetched at once and is legal leaves the state as it was but for translations and answers; an illegal
one traps with cause group 2. A switched-out group of a running team with a lane that can issue becomes resident when a slot
is free. A pending asynchronous cause is taken by a group that has one due, cause group 20, where TRAPCTL.NOTICE asks for
it, before 22, at the first lane that runs, with no next word; a notice not asked for is discarded. A lane's wait that is
bounded and has not ended is withdrawn at its bound with every lane of the group whose wait at the same instruction has not
ended, and the group traps there with cause group 17, the lowest of them naming what it waited for. The end of a YIELD lets
every lane of that YIELD run; nothing else changes. (Where the manual leaves it open, this rests on the model: log 16, 17,
26, 27, 168, 196.) -/
def Obligations.GroupEvents : Prop :=
  ∀ (s : State) (t g l : Nat),
    let G := s.grp t g
    let T := s.team t
    let L := G.lane l
    (∀ c ks, s.sched.cur = some c → s.packetKeys c = some ks → KeysHere s ks →
      (∀ l, c.mask.getLsbD l = true → ((s.instGrp c).lane l).bad = []) →
      let words := packetWords (ks.map fun k => memRead s.mem k.1)
      let p : W32 := BitVec.ofNat 32 (packetOf c.pc)
      ∃ tlb,
        let s' : State := { s.clearAnswers (fun w => w == (c.team, c.group, 32)) with
          mm := { s.mm with tlb := tlb } }
        (∀ us, packetUnits words 3 0 false 0 [] = .ok us → exec .fetchPacket s = .next s') ∧
        ∀ r k, packetUnits words 3 0 false 0 [] = .error (r, k) → exec .fetchPacket s = .next (s'.takeTrap c.team c.group
          (trapOf 2 0x3F r k (words.getD k 0) 0 c.mask) false p (p + 12))) ∧
    (g < T.groups.length → T.status = .running → G.resident = false → G.ended = false → s.groupReady t G = true →
      s.slotsUsed T.core < 16 → exec (.groupSwitchIn t g) s = .next (s.modGroup t g fun G => { G with resident := true })) ∧
    (s.asyncDue t g = true → ∀ e, e < G.lanes.length → (G.lane e).stopsRunning = true →
      (∀ i, i < e → (G.lane i).stopsRunning = false) →
      let told : State := s.modGroup t g fun G => { G with pend20 := none }
      let asks : Prop := G.trapCtl.getLsbD 0 = true
      (∀ a, asks → G.pend20 = some a → exec (.asyncTrapDelivery t g) s = .next (told.takeTrap
        t g (trapOf 20 0x3F a.reason.toNat a.aux.toNat a.d1 a.d2 0) true (G.lane e).pc 0)) ∧
      (∀ a, (¬ asks ∨ G.pend20 = none) → G.pend22 = some a →
        exec (.asyncTrapDelivery t g) s = .next ((told.modGroup t g fun G => { G with pend22 := none }).takeTrap
          t g (trapOf 22 0x3F a.reason.toNat a.aux.toNat a.d1 a.d2 0) true (G.lane e).pc 0)) ∧
      (¬ asks → G.pend22 = none → exec (.asyncTrapDelivery t g) s = .next told)) ∧
    (∀ since, l < 32 → t < s.teams.length → g < T.groups.length → G.lanes.length = 32 →
      L.waitsSince = some since → s.regs.syncTo ≠ 0 → T.status = .running →
      (G.inh = true → G.hmask.getLsbD l = true) →
      (∀ off n, L.status = .boWait off n → s.boEnds t off = false) →
      let here (i : Nat) : Prop := i < 32 ∧ (G.lane i).waitsSince.isSome = true ∧ (G.lane i).pc = L.pc ∧
        (∀ off n, (G.lane i).status = .boWait off n → s.boEnds t off = false) ∧ (G.inh = true → G.hmask.getLsbD i = true)
      ∀ e, here e → (∀ i, i < e → ¬ here i) →
        let d := s.waitDetail t (G.lane e).status
        ∃ (u : State) (m : LaneMask), exec (.syncTimeout t g l) s = .next (u.takeTrap t g (trapOf 17 e d.1 d.2.1 d.2.2.1 d.2.2.2 m) false L.pc L.resume) ∧
          (∀ i, m.getLsbD i = true ↔ here i) ∧ u.mem = s.mem ∧ u.grids = s.grids ∧
          (∀ i, i < 32 → (here i → (u.grp t g).lane i = { G.lane i with status := .run }) ∧
            (¬ here i → (u.grp t g).lane i = G.lane i)) ∧
          (since + s.regs.syncTo.toNat * 1000 < 2 ^ 64 → since + s.regs.syncTo.toNat * 1000 ≤ u.hub.clock.now.toNat)) ∧
    ∀ n, L.status = .yielding n → ∃ u, exec (.yieldExpire t g l) s = .next u ∧ u.mem = s.mem ∧ u.grids = s.grids ∧
      (∀ v h, (v, h) ≠ (t, g) → u.grp v h = s.grp v h) ∧
      ∀ i, i < G.lanes.length → (u.grp t g).lane i =
        if (G.lane i).status = .yielding n ∧ (G.lane i).pc = L.pc then { G.lane i with status := .run } else G.lane i

/-- The oldest record that waits is written to the ring when it has room and a place to write it, FQWRITE advances and nothing
else is stored; without a place, or with one in the memory of a host whose link is down, it is marked as failed; a full ring
holds it back; a request to migrate a page that is held is turned down. Where another package holds a line of the place or
of the page's leaf, all of these ask for it first. Writes of FQREAD and FQBASE set the register and let failed records be
tried again. FRESOLVE of a handle that is held resolves its page and drops its record; of another it does nothing. INVCMD
removes every cached translation it covers from the core buffers and the lanes, sets BUSY, and is ignored while BUSY is 1;
BUSY clears when no access of a grid is on its way. MIGREQ.GO answers 2 for a page that is held or that the device has asked
for, which is then held and asked for no more, else 1. The end of a hold-down drops the page's translations and the hold.
Stored bytes read back when memory is in its canonical form. (Where the manual leaves it open, this rests on the model: log
43, 122, 123, 124, 125, 126.) -/
def Obligations.FaultsAndMigration : Prop :=
  ∀ (s : State),
    let n := s.regs.fqSize.toNat
    let w := s.regs.fqWrite.toNat
    let busy := s.regs.invCmd.getLsbD 31
    let tried (fs : List FaultRecord) : List FaultRecord := fs.map fun x => { x with failed := false }
    (∀ r, s.mm.faults.find? (fun r => !r.delivered && !r.failed) = some r →
      let turnedDown := r.kind == 4 && s.pageHeld r.ctx r.page
      let place := ringKey s.regs.fqBase 32 (32 * (w % n)) 32
      let marked (d f : Bool) : List FaultRecord := s.mm.faults.map fun x =>
        if x.handle = r.handle then { x with delivered := d, failed := f } else x
      (turnedDown = true → s.holdBusy r.ctx r.page = [] → exec .faultRecordDeliver s = .next (s.mapRemote r.ctx r.page)) ∧
      (turnedDown = false → s.faultRingFull = true → exec .faultRecordDeliver s = .next s) ∧
      (turnedDown = false → s.faultRingFull = false →
        (place = none ∨ ∃ k, place = some k ∧ isHostKey k = true ∧ s.hub.hostDown = true) → ∃ t, exec .faultRecordDeliver s = .next t ∧
        t.mem = s.mem ∧ t.regs = s.regs ∧ t.mm.faults = marked false true) ∧
      ∀ k, turnedDown = false → s.faultRingFull = false → place = some k → ¬ (isHostKey k = true ∧ s.hub.hostDown = true) →
        s.dirBlocks (k / 128) true = false → ∃ t, exec .faultRecordDeliver s = .next t ∧
        (Memory.wf s.mem = true → ∀ i, i < 32 → memRead t.mem (k + i) = r.bytes.getD i 0) ∧
        (∀ a, ¬ (k ≤ a ∧ a < k + 32) → memRead t.mem a = memRead s.mem a) ∧
        t.regs = { s.regs with fqWrite := BitVec.ofNat 32 ((w + 1) % n) } ∧ t.mm.faults = marked true false) ∧
    (∀ v, ∃ t, exec (.fqreadWrite v) s = .next t ∧ t.regs = { s.regs with fqRead := v } ∧
      t.mm.faults = tried s.mm.faults ∧ t.mem = s.mem ∧ t.teams = s.teams) ∧
    (∀ v, ∃ t, exec (.fqbaseWrite v) s = .next t ∧ t.mm.faults = tried s.mm.faults ∧ t.mem = s.mem ∧ t.teams = s.teams ∧
      (v.getLsbD 63 = false → t.regs.fqBase = v &&& 0x00001FFFFFFFFFE0) ∧
      (v.getLsbD 63 = true → t.regs.fqBase = v &&& 0x81FFFFFFFFFFFFE0)) ∧
    (∀ h bad i, (i = Instr.fresolveMapped h ∧ bad = false) ∨ (i = Instr.fresolveUnresolvable h ∧ bad = true) →
      ((∀ r ∈ s.mm.faults, r.handle ≠ h) → exec i s = .next s) ∧
      ∀ r, s.mm.faults.find? (fun r => r.handle == h) = some r → ∃ t, exec i s = .next t ∧ t = s.resolvePage r.ctx r.page bad ∧
        t.mem = s.mem ∧ (∀ x ∈ t.mm.faults, ¬ (x.ctx = r.ctx ∧ x.page = r.page)) ∧
        t.mm.waits = s.mm.waits.filterMap (PageWait.resolve r.ctx r.page bad)) ∧
    (∀ (ctx : Byte) (i : Instr) (kind : Nat) (hit : Nat → Leaf → Bool),
      (i = .invcmdPage ctx ∧ kind = 0 ∧ hit = fun c f => c == ctx.toNat && f.covers s.regs.invAddr.toNat) ∨
      (i = .invcmdContext ctx ∧ kind = 1 ∧ hit = fun c _ => c == ctx.toNat) ∨
      (i = .invcmdAll ctx ∧ kind = 2 ∧ hit = fun _ _ => true) →
      (busy = true → exec i s = .next s) ∧
      (busy = false → ∃ t, exec i s = .next t ∧ t.mem = s.mem ∧
        t.regs = { s.regs with invCmd := BitVec.ofNat 32 (2 ^ 31 + ctx.toNat * 2 ^ 16 + kind) } ∧
        t.mm.tlb = s.mm.tlb.filter (fun e => !hit e.ctx e.leaf) ∧
        ∀ u h l f, ((t.grp u h).lane l).lastPage = some f →
          hit (s.ctxOf u) f = false ∧ ((s.grp u h).lane l).lastPage = some f)) ∧
    (busy = true → (∀ r ∈ s.fab.requests, r.grid = none) →
      exec .invalidationDone s = .next { s with regs := { s.regs with invCmd := s.regs.invCmd &&& 0x7FFFFFFF } }) ∧
    (∀ v : W64, v.getLsbD 63 = true →
      let page := v.toNat % 2 ^ 57 / 4096 * 4096
      let asked := s.mm.faults.filter fun r => r.kind == 4 && r.page == s.leafBase r.ctx page && !r.delivered
      let answers (k : Nat) : Res :=
        .next { s.letGo (.migreqGo v) with regs := { s.regs with migReq := BitVec.ofNat 64 (k * 2 ^ 61 + page) } }
      ((∃ h ∈ s.mm.held, h.page = s.leafBase h.ctx page) → exec (.migreqGo v) s = answers 2) ∧
      ((∀ h ∈ s.mm.held, h.page ≠ s.leafBase h.ctx page) → asked = [] → exec (.migreqGo v) s = answers 1) ∧
      ((∀ h ∈ s.mm.held, h.page ≠ s.leafBase h.ctx page) → asked ≠ [] → (∀ r ∈ asked, s.holdBusy r.ctx r.page = []) → ∃ t, exec (.migreqGo v) s = .next t ∧
        t.regs.migReq = BitVec.ofNat 64 (2 * 2 ^ 61 + page) ∧
        ∀ r ∈ asked, (∃ h ∈ t.mm.held, h.ctx = r.ctx ∧ h.page = r.page) ∧ ∀ x ∈ t.mm.faults, ¬ (x.ctx = r.ctx ∧ x.page = r.page))) ∧
    ∀ (ctx : Byte) (page : Nat) (h : Held), s.mm.held.find? (fun h => h.ctx == ctx.toNat && h.page == page) = some h →
      (s.timeAtLeast h.until_).holdBusy h.ctx page = [] → ∃ t, exec (.holdExpire ctx page) s = .next t ∧
        t.mm.held = s.mm.held.filter (fun x => !(x.ctx == ctx.toNat && x.page == page)) ∧
        (∀ e ∈ t.mm.tlb, ¬ (e.ctx = ctx.toNat ∧ e.leaf.covers page = true)) ∧
        (h.until_ < 2 ^ 64 → h.until_ ≤ t.hub.clock.now.toNat)

/-- The first request of its kind for a line (or address) that has not been sent is sent when a route, its port and a tag allow
it, and otherwise stays; without such a request, evicting a line held in M that no store under way holds makes a write-back
of its 128 bytes and evicting one held in S or E makes a notice, and the line is no longer held. A message is delivered in
sequence, or when it has waited in the device. An answer that grants a line ends the request and, unless its unit no longer
takes the grant, brings the bytes the home sent with their poison and leaves the line in the granted state; every byte
outside the line is as before. Answers without data to a line end their request; those to reads, writes, atomics and
discards of a unit are kept for it. A request that FABTO has not seen answered, or that the home cannot serve, fails: a
store to a line, a discard, a write-back or a slot's write becomes an error entry of its grid, a tape's failure is kept for
the tape's next use, any other is met by its unit. An answer to no request changes nothing. Stored bytes read back when
memory is in its canonical form. (Where the manual leaves it open, this rests on the model: log 108, 109, 110, 113, 169,
174, 175, 176.) -/
def Obligations.FabricRequests : Prop :=
  ∀ (s : State),
    let gone (t : State) (tag : Nat) : Prop := ∀ x ∈ t.fab.requests, x.tag ≠ tag
    let leaves (i : Instr) (pick : Request → Bool) : Prop :=
      ∀ r, s.fab.requests.find? (fun x => !x.sent && pick x) = some r →
        (s.canSend r = false → exec i s = .next s) ∧
        (s.canSend r = true → ∃ t, exec i s = .next t ∧ (∀ x ∈ t.fab.requests, x.tag = r.tag → x.sent = true) ∧
          t.fab.requests.length = s.fab.requests.length ∧ t.teams = s.teams ∧
          ((∀ x ∈ s.fab.requests, x.tag = r.tag → x.bad = false) → t.mem = s.mem ∧ t.grids = s.grids))
    let evicts (i : Instr) (pick : Request → Bool) (line : Nat) (kind : ReqKind) : Prop :=
      (∀ x ∈ s.fab.requests, x.sent = false → pick x = false) → s.lockedBut line (fun _ => false) = false →
      ∃ (t : State) (x : Request), exec i s = .next t ∧ t.fab.requests = s.fab.requests ++ [x] ∧ x.kind = kind ∧
        x.addr = line * 128 ∧ x.peer = keyPeer (line * 128) ∧ x.sent = false ∧ t.proxy line = none ∧ t.mem = s.mem ∧ t.teams = s.teams
    let came (me : Instr) (via : Via) (data : Nat) (s' : State) : Prop :=
      let n := via.port.toNat
      (s.sched.waiting.contains me = true ∧ s' = s) ∨
      (s.sched.waiting.contains me = false ∧ n < 48 ∧ (s.port n).up = true ∧
        (((s.port n).native = false ∧ s' = s) ∨
        ((s.port n).native = true ∧ via.seq = (s.port n).rxSeq ∧ (s.port n).rxKeys.getLsbD via.key.toNat = true ∧
          s' = s.modPort n fun P => P.took (viaFlits via data))))
    (∀ line : Nat,
      let at_ (k : ReqKind) (r : Request) : Bool := r.kind == k && r.onLine line
      let back (r : Request) : Bool := r.isWriteback && r.onLine line
      leaves (.fabricReadShared line) (at_ .readShared) ∧ leaves (.fabricReadExclusive line) (at_ .readExclusive) ∧
      leaves (.fabricUpgrade line) (at_ .upgrade) ∧ leaves (.fabricWriteback line) back ∧
      leaves (.fabricEvictNotice line) (at_ .evictNotice) ∧
      (∀ op a, leaves (.fabricAtomic op a) fun r => r.kind == .atomic op && r.addr == a) ∧
      (s.proxy line = some .m → evicts (.fabricWriteback line) back line
        (.writeback ((List.range 128).map fun i => memRead s.mem (line * 128 + i)))) ∧
      ((s.proxy line = some .s ∨ s.proxy line = some .e) →
        evicts (.fabricEvictNotice line) (at_ .evictNotice) line .evictNotice)) ∧
    (∀ tag a via s', came (.fabricResponse tag ⟨a, via⟩) via (PeerAnswer.dataLen a) s' →
      (∀ x ∈ s.fab.requests, x.tag = tag → x.sent = false ∧ x.again = false) → exec (.fabricResponse tag ⟨a, via⟩) s = .next s') ∧
    (∀ tag r via, s.fab.requests.find? (fun x => x.tag == tag && (x.sent || x.again)) = some r →
      let after (a : PeerAnswer) (k : State → State) : Prop :=
        ∀ s', came (.fabricResponse tag ⟨a, via⟩) via (PeerAnswer.dataLen a) s' → exec (.fabricResponse tag ⟨a, via⟩) s = .next (k s')
      let kept (a : PeerAnswer) : Prop := after a fun s' => (s'.endRequest tag).keepAnswer r a
      let line := r.addr / 128
      let grants (a : PeerAnswer) (data : Option (List Byte)) (st : ProxyState) : Prop :=
        ∀ (sick : Bool) (s' : State),
          let x := if sick then .poisoned a else a
          came (.fabricResponse tag ⟨x, via⟩) via (PeerAnswer.dataLen x) s' → ∃ t, exec (.fabricResponse tag ⟨x, via⟩) s = .next t ∧ gone t tag ∧
            (r.who = none → t.mem = s.mem ∧ t.proxy line = s.proxy line) ∧
            (r.who ≠ none → t.proxy line = some st ∧
              (∀ d i, Memory.wf s.mem = true → data = some d → i < 128 → memRead t.mem (line * 128 + i) = d.getD i 0) ∧
              (data ≠ none → t.poison.contains line = sick)) ∧
            (∀ x, x / 128 ≠ line → memRead t.mem x = memRead s.mem x ∧ t.proxy (x / 128) = s.proxy (x / 128)) ∧
            (data = none → t.mem = s.mem) ∧ t.teams = s.teams
      after .remoteRange (fun s' => s'.failRequest r true) ∧
      (∀ d, d.length = 128 →
        (r.kind = .readShared → grants (.shared d) (some d) .s ∧ grants (.exclusive d) (some d) .e) ∧
        (r.kind = .readExclusive ∨ r.kind = .upgrade → grants (.exclusive d) (some d) .e)) ∧
      (r.kind = .upgrade → s.proxy line = some .s → grants .upgraded none .e) ∧
      ((r.isWriteback = true ∨ r.kind = .evictNotice) → after .done fun s' => s'.endRequest tag) ∧
      ((r.kind = .discard ∨ ∃ cs, r.kind = .uncachedWrite cs) → kept .done) ∧
      (∀ d, r.kind = .uncachedRead d.length → kept (.bytes d) ∧ kept (.poisoned (.bytes d))) ∧
      (∀ op v, r.kind = .atomic op → kept (.old v) ∧ kept (.poisoned (.old v)))) ∧
    (∀ tag r, s.fab.requests.find? (fun x => x.tag == tag) = some r → (r.sent = true ∨ s.requestRoute r = none) →
      exec (.fabricTimeout tag) s =
        .next ((s.timeAtLeast (r.since + s.regs.fabTo.toNat * 1000)).failRequest r false)) ∧
    ∀ r remote,
      let t := s.failRequest r remote
      let reported : Prop := ∀ g, r.grid = some g → s.recordGrid g < s.grids.length →
        (t.grid (s.recordGrid g)).report.nerr = min ((s.grid (s.recordGrid g)).report.nerr + 1) 0xFFFFFFFF
      gone t r.tag ∧ (r.who = none → r.isWriteback = true → reported) ∧
      ∀ w, r.who = some w →
        let slot : Prop := w.2.1 = slotWriterNo ∧ ∃ cs, r.kind = .uncachedWrite cs
        let stores : Prop := w.2.1 < tapeWriterNo ∧ (r.kind = .readExclusive ∨ r.kind = .upgrade ∨ r.kind = .discard)
        (stores → t.fab.reqFails = s.fab.reqFails ++ [⟨w, r.addr, remote, true⟩] ∧ reported) ∧
        (slot → t.fab.reqFails = s.fab.reqFails ∧ reported) ∧
        (w.2.1 = tapeWriterNo → w.1 < s.teams.length → (s.team w.1).live = true →
          (t.team w.1).tapeFail = (s.team w.1).tapeFail ++ [BitVec.ofNat 64 r.va]) ∧
        (¬ stores → ¬ slot → w.2.1 ≠ tapeWriterNo →
          t.fab.reqFails = s.fab.reqFails ++ [⟨w, r.addr, remote, false⟩] ∧ t.grids = s.grids ∧ t.teams = s.teams ∧ t.mem = s.mem)

/-- An invalidation of shared copies, and a recall of an owned one, are sent to every holder and awaited from each; of a line of
another package the copy held here, unless a store under way writes it (then the demand waits), is given up and
acknowledged, with its 128 bytes if it was held in M, and memory keeps its bytes. An acknowledgement removes its holder,
brings the data of a line that was owned with its poison, and drops an entry without holders. A request from another package
for a line that is not this device's is answered so; one answered before, as a reissue or ahead of its original, gets the
same answer and changes no memory; one that still waits as a reissue or an original is not taken twice; one that copies
stand in the way of waits until they are given up; any other is answered, the answer is kept under its source and tag and
goes out, and reads leave memory as it is. PAUSE is sent at 320 flits waiting and RESUME at 192. Stored bytes read back when
memory is in its canonical form. (Where the manual leaves it open, this rests on the model: log 111, 112, 113, 114, 115,
116, 170, 177.) -/
def Obligations.FabricHome : Prop :=
  ∀ (s : State),
    let came (me : Instr) (via : Via) (data : Nat) (s' : State) : Prop :=
      let n := via.port.toNat
      (s.sched.waiting.contains me = true ∧ s' = s) ∨
      (s.sched.waiting.contains me = false ∧ n < 48 ∧ (s.port n).up = true ∧
        (((s.port n).native = false ∧ s' = s) ∨
        ((s.port n).native = true ∧ via.seq = (s.port n).rxSeq ∧ (s.port n).rxKeys.getLsbD via.key.toNat = true ∧
          s' = s.modPort n fun P => P.took (viaFlits via data))))
    (∀ line via d, keyPeer (line * 128) = ownPeer → s.dirEntry line = some d → d.waitAck = [] →
      let i := if d.owned then Instr.fabricRecall ⟨line, via⟩ else .fabricInvalidate ⟨line, via⟩
      let asked := d.asked s.peerNo
      ∃ t, exec i s = .next t ∧ t.mem = s.mem ∧ t.teams = s.teams ∧
        t.dirEntry line = (if asked = [] then none else some ⟨line, [], d.owned, asked, 0, 0⟩) ∧
        t.fab.outbox = s.fab.outbox ++ asked.map (fun p => ⟨p, .recall line⟩) ∧ ∀ x, x ≠ line → t.dirEntry x = s.dirEntry x) ∧
    (∀ line via s', s.isPeerKey (line * 128) = true →
      ∀ i ∈ [Instr.fabricRecall ⟨line, via⟩, .fabricInvalidate ⟨line, via⟩], came i via 0 s' →
      (s.lockedBut line (fun _ => false) = true → ∃ t, exec i s = .next t ∧ i ∈ t.sched.waiting ∧ t.mem = s.mem ∧
        t.proxy line = s.proxy line ∧ t.teams = s.teams ∧ t.fab.outbox = s.fab.outbox) ∧
      (s.lockedBut line (fun _ => false) = false → ∃ t data, exec i s = .next t ∧ t.proxy line = none ∧ (∀ x, x ≠ line → t.proxy x = s.proxy x) ∧ t.teams = s.teams ∧
        t.fab.outbox = s.fab.outbox ++ [⟨keyPeer (line * 128), data⟩] ∧
        (s.proxy line = some .m → data = .ack line ((List.range 128).map fun i => memRead s.mem (line * 128 + i)) (s.poison.contains line)) ∧
        (s.proxy line ≠ some .m → (∀ r ∈ s.fab.requests, r.onLine line = true → r.isWriteback = false) → data = .ack line [] false) ∧
        (s.poison.contains line = false → t.mem = s.mem ∧ t.poison = s.poison.filter fun x => x != line))) ∧
    (∀ peer line data sick via s' d, came (.fabricInvalAck peer line ⟨⟨data, sick⟩, via⟩) via data.length s' →
      s.dirEntry line = some d → peer ∈ d.waitAck → (data = [] ∨ (d.owned = true ∧ data.length = 128)) →
      let waits := d.waitAck.filter fun p => p != peer
      ∃ t, exec (.fabricInvalAck peer line ⟨⟨data, sick⟩, via⟩) s = .next t ∧ t.teams = s.teams ∧
        t.dirEntry line = (if d.any = false ∧ waits = [] then none else some { d with waitAck := waits, owned := d.owned && !waits.isEmpty }) ∧
        (data = [] → t.mem = s.mem) ∧
        (data ≠ [] → t.poison.contains line = sick ∧
          (Memory.wf s.mem = true → ∀ i, i < 128 → memRead t.mem (line * 128 + i) = data.getD i 0)) ∧
        ∀ a, a / 128 ≠ line → memRead t.mem a = memRead s.mem a) ∧
    ∀ (src : BitVec 12) (tag : Nat) (reissued : Bool) (req : PeerReq) (via : Via) (s' : State),
      let p := src.toNat
      let me := Instr.fabricRequestArrival src tag reissued ⟨req, via⟩
      let before := s.fab.answered.find? fun x => x.src == p && x.tag == tag && (reissued || (x.late && x.req == req))
      let again : Bool := !s.sched.waiting.contains me && s.sched.waiting.any (isRequest src tag req)
      let answers (t : State) (a : PeerAnswer) (late : Bool) : Prop :=
        t.fab.answered.head? = some ⟨p, tag, req, a, late⟩ ∧ t.fab.outbox = s.fab.outbox ++ [⟨p, .answer tag a⟩] ∧ t.teams = s.teams
      s.regs.fabId.getLsbD 31 = true → p < peerCount → p ≠ s.peerNo → came me via (PeerReq.dataLen req) s' →
      (∀ x, before = some x → ∃ t, exec me s = .next t ∧ answers t x.answer (x.late && reissued) ∧ t.mem = s.mem ∧ t.fab.dir = s.fab.dir) ∧
      (before = none → again = true → ∃ t, exec me s = .next t ∧ t.mem = s.mem ∧ t.fab.answered = s.fab.answered ∧
        t.fab.outbox = s.fab.outbox ∧ t.sched.waiting = s.sched.waiting) ∧
      (before = none → again = false →
        (inRange req = false → ∃ t, exec me s = .next t ∧ answers t .remoteRange reissued ∧ t.mem = s.mem ∧ t.fab.dir = s.fab.dir) ∧
        (inRange req = true → s.homeBlocked p req = true → ∃ t, exec me s = .next t ∧ t.mem = s.mem ∧ me ∈ t.sched.waiting ∧
          t.fab.answered = s.fab.answered) ∧
        (inRange req = true → s.homeBlocked p req = false → ∃ t, exec me s = .next t ∧ t.sched.waiting = s.sched.waiting.erase me ∧
          answers t (s.serve p req).1 reissued ∧
          ((∃ l, req = .readShared l ∨ req = .readExclusive l ∨ req = .upgrade l ∨ req = .evictNotice l) ∨
            (∃ a n, req = .uncachedRead a n) → t.mem = s.mem) ∧
          (∀ cs, req = .uncachedWrite cs →
            (Memory.wf s.mem = true → (cs.map (·.addr)).Nodup → ∀ c ∈ cs,
              memRead t.mem c.addr = (memRead s.mem c.addr &&& ~~~c.mask) ||| (c.val &&& c.mask)) ∧
            ∀ x, x ∉ cs.map (·.addr) → memRead t.mem x = memRead s.mem x) ∧
          ∀ l, req = .discard l → (Memory.wf s.mem = true → ∀ i, i < 128 → memRead t.mem (l * 128 + i) = 0) ∧
            ∀ x, x / 128 ≠ l → memRead t.mem x = memRead s.mem x)) ∧
      (s.fab.ports.length = 48 → via.port.toNat < 48 → ∀ t, exec me s = .next t →
        (320 ≤ t.occupancy via.port.toNat → (t.port via.port.toNat).held.getLsbD 0 = true) ∧
        (t.occupancy via.port.toNat ≤ 192 → (t.port via.port.toNat).held.getLsbD 0 = false))

/-- On a port that is up: a message whose first flit does not come next is a repetition, which changes nothing, or a gap, and a
gap or a key not held is counted once and answered by a NAK; a pause and its end set and clear the channel's mark; a bad
flit is counted, and a third failed integrity check in a row on one group takes a native port down, its undelivered requests
to be sent again and its other messages to leave again; a NAK changes nothing the buffer holds and an ACK drops the flits up
to it; a lost lane of a native port is counted and leaves the intact lanes, to be retrained to, or takes the port down; the
end of retraining tells the width; a key is installed for both directions, an open group ends with its tag flit, the
sender's old one is given up and its clear flit sent when nothing under it can be resent, its rotation is over when that
flit is acknowledged, and the receiver's at the partner's clear flit. Training a port that carries no traffic records its
partner, mode and width; before bring-up it does nothing else. At bring-up, which sets FABID, and at training after it, a
trained port with the partner it must be cabled to, attested at bring-up and encrypted where required, comes up; a miscabled
or unattested one stays down. ROUTEDATA writes the entry of ROUTEIDX; reading PORTSTAT returns it and clears REPLAYS. No
port but the named one changes. (Where the manual leaves it open, this rests on the model: log 110, 117, 119, 120, 121, 176,
178, 179.) -/
def Obligations.FabricLinks : Prop :=
  ∀ (s : State) (port : BitVec 6),
    let n := port.toNat
    let P := s.port n
    let clears (fs : List Flit) : Prop := ∃ f ∈ fs, f.kind = .clear
    let down (Q : Port) : Prop := Q.up = false ∧ Q.replayBuf = [] ∧ Q.lanes = 0
    let comesUp (t : State) (k : Nat) (nbr : Option Nat) (native attested : Bool) : Prop :=
      let right : Prop := (neighboursOf t.peerNo)[k]? = nbr
      (¬ right → (t.port k).up = false ∧ (t.port k).stat.getLsbD 27 = true) ∧
      (right → attested = false → (t.port k).up = false) ∧
      (right → attested = true → (native = true ∨ s.regs.fabCtl.getLsbD 1 = false) → (t.port k).up = true)
    let only (t : State) : Prop := ∀ k, k ≠ n → t.port k = s.port k
    let counted := min 255 (bitsOf P.stat.toNat 0 8 + 1)
    (n < 48 → P.up = true →
      (∀ (seq : W16) (key : BitVec 1) (quarter : Bool) (tag : Nat) (a : PeerAnswer) (src : BitVec 12) (req : PeerReq) (x : Bool),
        s.regs.fabId.getLsbD 31 = true → src.toNat < peerCount → src.toNat ≠ s.peerNo →
        ∀ i ∈ [Instr.fabricResponse tag ⟨a, ⟨port, seq, key, quarter⟩⟩,
            .fabricRequestArrival src tag x ⟨req, ⟨port, seq, key, quarter⟩⟩],
        P.native = true → s.sched.waiting.contains i = false → (seq ≠ P.rxSeq ∨ P.rxKeys.getLsbD key.toNat = false) →
        ((32768 ≤ (seq - P.rxSeq).toNat ∨ P.nak = some (P.rxSeq - 1)) → exec i s = .next s) ∧
        ((seq - P.rxSeq).toNat < 32768 → P.nak ≠ some (P.rxSeq - 1) → ∃ t, exec i s = .next t ∧ only t ∧ t.teams = s.teams ∧
          t.fab.answers = s.fab.answers ∧ (t.port n).nak = some (P.rxSeq - 1) ∧ bitsOf (t.port n).stat.toNat 0 8 = counted)) ∧
      (∀ vc : BitVec 2,
        exec (.flowPause port vc) s = .next (s.modPort n fun P => { P with paused := P.paused ||| (1#4 <<< vc.toNat) }) ∧
        exec (.flowResume port vc) s = .next (s.modPort n fun P => { P with paused := P.paused &&& ~~~(1#4 <<< vc.toNat) })) ∧
      (∀ bad, P.native = true →
        let third := bad.isSome && P.badRun == 2 && P.badGroup == bad.getD 0
        P.badRun < 3 → ∃ t, exec (.replayEvent port bad) s = .next t ∧ only t ∧ t.teams = s.teams ∧
          (third = false → (t.port n).up = true ∧ bitsOf (t.port n).stat.toNat 0 8 = counted ∧
            (t.port n).replayBuf = P.replayBuf) ∧
          (third = true → down (t.port n) ∧
            (∀ r ∈ t.fab.requests, (∃ f ∈ P.replayBuf, ∃ m ∈ f.msgs, m.msg = .request r.tag) → r.sent = false ∧ r.again = true) ∧
            ∀ f ∈ P.replayBuf, ∀ m ∈ f.msgs, (∀ tag, m.msg ≠ .request tag) → m ∈ t.fab.outbox)) ∧
      (∀ seq, P.native = true → (seq = P.ackSeq ∨ ∃ f ∈ P.replayBuf, f.seq = seq) → exec (.linkNak port seq) s = .next s) ∧
      (∀ seq i, P.replayBuf.findIdx? (fun f => f.seq == seq) = some i →
        let left := P.replayBuf.drop (i + 1)
        let turned : Prop := P.txRot = true ∧ P.txClear = false ∧ ∀ f ∈ left, f.key = P.keyIdx
        let complete : Prop := P.txRot = true ∧ P.txClear = true ∧ ¬ clears left
        ∃ t, exec (.linkAck port seq) s = .next t ∧ only t ∧ t.teams = s.teams ∧ t.mem = s.mem ∧
          (t.port n).ackSeq = seq ∧ (t.port n).stat = P.stat ∧
          (turned → (t.port n).txKeys = 1#2 <<< P.keyIdx.toNat ∧ (t.port n).txRot = true ∧ (t.port n).txClear = true ∧
            ∃ f rest, (t.port n).replayBuf = left ++ f :: rest ∧ f.kind = .clear ∧ f.seq = P.txSeq ∧ f.key = P.keyIdx) ∧
          (¬ turned → (t.port n).replayBuf = left ∧ (t.port n).txKeys = P.txKeys) ∧
          (complete → (t.port n).txRot = false ∧ (t.port n).txClear = false) ∧
          (¬ turned → ¬ complete → (t.port n).txRot = P.txRot ∧ (t.port n).txClear = P.txClear)) ∧
      (∀ lane : BitVec 2, P.native = true → P.lanes.getLsbD lane.toNat = true →
        let left := lanesAfter P.lanes lane.toNat
        ∃ t, exec (.laneLoss port lane) s = .next t ∧ only t ∧ t.teams = s.teams ∧
          (left = 0 → down (t.port n)) ∧
          (left ≠ 0 → (t.port n).lanes = left ∧ (t.port n).retrain = true ∧ bitsOf (t.port n).stat.toNat 0 8 = counted)) ∧
      (P.retrain = true → exec (.linkRetrainDone port) s = .next (s.modPort n fun P =>
        { P.field 28 2 (if P.lanes = 12 ∨ P.lanes = 3 then 2 else 1) with retrain := false })) ∧
      (P.native = true → P.txRot = false → P.rxRot = false →
        ∃ t, exec (.keyInstall port) s = .next t ∧ only t ∧ t.teams = s.teams ∧ (t.port n).keyIdx = ~~~P.keyIdx ∧
          (t.port n).rxIdx = ~~~P.rxIdx ∧ (t.port n).rxKeys = 3 ∧ (t.port n).rxRot = true ∧ (t.port n).txRot = true ∧
          (t.port n).rxFlits % 8 = 0 ∧ (t.port n).rxSeq = (if P.rxFlits % 8 = 0 then P.rxSeq else P.rxSeq + 1) ∧
          (P.txFlits % 8 ≠ 0 → (t.port n).txKeys = 3 ∧ (t.port n).txFlits % 8 = 0 ∧ (t.port n).replayBuf =
            P.replayBuf ++ [⟨.tag, P.txSeq, P.keyIdx, BitVec.ofNat 64 ((P.txFlits - 1) / 8), []⟩]) ∧
          (P.txFlits % 8 = 0 → (∃ f ∈ P.replayBuf, f.key = P.keyIdx) →
            (t.port n).txKeys = 3 ∧ (t.port n).txClear = false ∧ (t.port n).replayBuf = P.replayBuf) ∧
          (P.txFlits % 8 = 0 → (∀ f ∈ P.replayBuf, f.key ≠ P.keyIdx) →
            (t.port n).txKeys = 1#2 <<< (~~~P.keyIdx).toNat ∧ (t.port n).txClear = true ∧
            ∃ f, (t.port n).replayBuf = P.replayBuf ++ [f] ∧ f.kind = .clear ∧ f.key = ~~~P.keyIdx)) ∧
      (P.rxRot = true → exec (.keyClearFlit port) s = .next (s.modPort n fun P =>
        { P.took 1 with rxKeys := 1#2 <<< P.rxIdx.toNat, rxRot := false }))) ∧
    (n < 48 → exec (.portstatRead port) s = .next { s.modPort n (fun P => P.field 0 8 0) with
      hub := { s.hub with hostRead := P.stat.zeroExtend 64 } }) ∧
    (∀ (partner : BitVec 12) (compat : Bool) (lanes : BitVec 2), n < 48 → s.fab.ports.length = 48 →
      s.regs.fwStat.getLsbD 31 = false → (P.up = false ∨ P.replayBuf = []) → ∃ t, exec (.linkTraining port partner compat lanes) s = .next t ∧
        only t ∧ t.teams = s.teams ∧ (t.port n).replayBuf = [] ∧
        (s.regs.fabId.getLsbD 31 = true → lanes ≠ 0 →
          comesUp t n (some partner.toNat) (!compat) (s.fab.attested.getLsbD n)) ∧
        (s.regs.fabId.getLsbD 31 = false →
          (t.port n).up = false ∧ (t.port n).nbr = partner.toNat ∧ (t.port n).native = !compat ∧
          (t.port n).txSeq = 0 ∧ (t.port n).rxSeq = 0 ∧
          bitsOf (t.port n).stat.toNat 28 2 = lanes.toNat ∧ (t.port n).lanes = lanesOf lanes.toNat)) ∧
    (∀ v, exec (.routedataWrite v) s = .next { s with fab := { s.fab with
      routes := (s.regs.routeIdx.toNat, v &&& 0x0FFFFFFFFFFFF003) ::
        s.fab.routes.filter fun x => x.1 != s.regs.routeIdx.toNat } }) ∧
    ∀ (peer : BitVec 12) (attested : BitVec 48), s.fab.ports.length = 48 → s.regs.fabId.getLsbD 31 = false →
      s.regs.fwStat.getLsbD 31 = false → peer.toNat < peerCount →
      ∃ t, exec (.fabricBringup peer attested) s = .next t ∧ t.regs.fabId = BitVec.ofNat 32 (2 ^ 31 + peer.toNat) ∧ t.teams = s.teams ∧
        t.fab.attested = attested ∧ ∀ k, k < 48 → bitsOf (s.port k).stat.toNat 28 2 ≠ 0 →
          comesUp t k (some (s.port k).nbr) (s.port k).native (attested.getLsbD k)

/-- The head operation of a running team's tile starts: on a tile with an element in error it fails with cause group 21 reason
4; MZERO clears the tile and ends; MLOAD takes the form; an MMA whose groups are all done ends, one that zeroes clears the
tile first; a drain after a failed operation fails the same way. Work on a started operation goes on in its own event: to
the state its work gives, to a stop at the pages it misses, to a wait that asks for a line, or to a failure, fabric failures
included. A row of MLOAD sets that row from 64 eight-byte elements and no other element. A K-group changes no element
outside the block, and before the last one, where it uses no peer's answer, no memory; a drain without CLR and an update
change no element. (Where the manual leaves it open, this rests on the model: log 54, 61, 62, 63, 166.) -/
def Obligations.MatrixWork : Prop :=
  ∀ (s : State) (t i : Nat) (o : TileOp) (rest : List TileOp),
    let T := s.tile t i
    let w := s.tileUnit t i
    T.ops = o :: rest → (s.team t).status = .running →
    (o.started = false →
      let ended (fs : List TileFail) (u : State) : Prop :=
        (u.tile t i).ops = rest ∧ (u.tile t i).ended = T.ended + 1 ∧ (u.tile t i).fails = T.fails ++ fs
      let begun (u : State) : Prop :=
        (u.tile t i).ops = { o with started := true } :: rest ∧ (u.tile t i).ended = T.ended ∧ (u.tile t i).fails = T.fails ∧ u.mem = s.mem
      ∃ u, exec (.matrixOpStart t i) s = .next u ∧
        (T.sick = true → ended (o.elemFail.toList ++ [⟨21, 4, BitVec.ofNat 32 o.next, BitVec.ofNat 32 o.off⟩]) u ∧ (u.tile t i).sick = false ∧
          (u.tile t i).elems = T.elems) ∧
        (T.sick = false →
          (o.kind = .mzero → ended [] u ∧ (u.tile t i).elems = [] ∧ (u.tile t i).int = o.form ∧ u.mem = s.mem) ∧
          (o.kind = .mload → begun u ∧ (u.tile t i).elems = T.elems ∧ (u.tile t i).int = o.form) ∧
          (o.kind = .mma → (o.next = o.groups → ended [] u ∧ (u.tile t i).elems = T.elems) ∧
            (o.next ≠ o.groups → begun u ∧ ((o.zero = true ∧ o.next = 0) → (u.tile t i).elems = [] ∧ (u.tile t i).int = o.form) ∧
              (¬ (o.zero = true ∧ o.next = 0) → (u.tile t i).elems = T.elems ∧ (u.tile t i).int = T.int))) ∧
          (o.kind = .mdrain → (T.lastFail = none → begun u) ∧
            ∀ x, T.lastFail = some x → ended [⟨x.1, x.2, 0, BitVec.ofNat 32 o.off⟩] u) ∧
          (o.kind = .mupd → begun u ∧ (u.tile t i).elems = T.elems))) ∧
    (o.started = true → o.pages = [] → s.unitPending w.who = false →
      let works (kind : OpKind) (ev : Instr) : Prop := o.kind = kind →
        (s.unitFailed w.who = true → exec ev s = .next (s.failOp t i o .fabric)) ∧
        (s.unitFailed w.who = false →
          (∀ u, s.opWork t i o = .done u → exec ev s = .next u) ∧
          (∀ ps, s.opWork t i o = .pages ps → exec ev s = .next (s.stopOp t i o ps)) ∧
          (∀ u, s.opWork t i o = .wait u → u.fab ≠ s.fab → exec ev s = .next u) ∧
          ∀ f, s.opWork t i o = .fail f → exec ev s = .next (s.failOp t i o f))
      works .mma (.matrixKgroup t i) ∧ works .mload (.mloadRow t i) ∧ works .mdrain (.drainBlock t i) ∧
      works .mupd (.updateBlock t i)) ∧
    (o.bad = true → s.opWork t i o = .fail .translation) ∧
    (∀ u, s.opWork t i o = .done u →
      (o.kind = .mma → (o.next + 1 ≠ o.groups → (u.tile t i).ops = { o with next := o.next + 1 } :: rest ∧
          ((∀ a ∈ s.fab.answers, a.who ≠ w.who) → u.mem = s.mem)) ∧
        (bitsOf (o.f 4 4) 2 2 ≠ 2 → ∀ x j, x < 64 → j < 64 → (dimM (o.f 8 4) ≤ x ∨ dimN (o.f 8 4) ≤ j) →
          (u.tile t i).get x j = T.get x j)) ∧
      (o.kind = .mdrain → bitsOf (o.f 4 4) 15 1 = 0 → (u.tile t i).elems = T.elems) ∧
      (o.kind = .mupd → (u.tile t i).elems = T.elems)) ∧
    ∀ d a v ps, o.bad = false → o.kind = .mload → s.place t (parseSource (BitVec.ofNat 64 (o.f 0 8))) = some (d, a) →
      s.engRange w d (a + 512 * o.next) 512 .read false = .ok v ps →
      ∃ u, s.opWork t i o = .done u ∧ u.mem = v.mem ∧
        (∀ x j, x < 64 → j < 64 → (u.tile t i).get x j = if x = o.next then fieldAt (v.rdPieces ps) (8 * j) 5 else T.get x j) ∧
        (o.next ≠ 63 → (u.tile t i).ops = { o with next := o.next + 1 } :: rest) ∧
        (o.next = 63 → (u.tile t i).ops = rest ∧ (u.tile t i).fails = T.fails)

/-- The next item that is ready begins once the card needs nothing more, and what it needs is fetched, waited for or found
missing. A destination line of a copy is written from its source bytes, read by whole lines of which each is read once, or
from the bytes themselves, or poisoned, and counted; its requests carry its number in a bundle; one whose write was on its
way is counted when it has been performed; a failed write fails the item, a rank that does not join every item. An item that
has failed or been written ends with its status, which joins the card's list, and the engine is free; the last decrement
follows. Reaching a release time lets the card begin, and device time is no earlier. Each event of a prefetch does one line
of it, and its last line frees the token with the number of lines skipped. (Where the manual leaves it open, this rests on
the model: log 41, 97, 98, 99, 100, 101, 102, 147, 148, 182, 201, 202.) -/
def Obligations.CardWork : Prop :=
  ∀ (s : State) (n : Nat),
    let C := s.card n
    let w := s.cardUnit n
    n < s.eng.cards.length →
    (s.itemReady n = true →
      (s.itemNeeds n = none → ∃ t, exec (.cardItemStart n) s = .next t ∧ (t.card n).cur = some C.nextItem ∧
        (t.card n).nextItem = C.nextItem + 1 ∧ (C.cancel = none → (t.card n).fail = C.kfail) ∧ (∀ x, x ≠ n → t.card x = s.card x) ∧
        t.mem = s.mem ∧ t.teams = s.teams) ∧
      (∀ u, s.itemNeeds n = some (.wait u) → exec (.cardItemStart n) s = .next u) ∧
      (∀ ps, s.itemNeeds n = some (.pages ps) → exec (.cardItemStart n) s = .next (s.waitCard n ps)) ∧
      ∀ u f, s.itemNeeds n = some (.got u f) → ∃ t, exec (.cardItemStart n) s = .next t ∧ t.mem = u.mem ∧ t.teams = u.teams) ∧
    (∀ i, C.cur = some i → C.isBytes = true → C.fail = none → C.pages = [] → s.cardRuns n = true → C.relDue = true →
      C.pos < C.written i →
      (C.isColl = false → C.sent = false → ∀ dom a len, s.itemDest n i = some (dom, a, len) →
        let puts (u : State) (bs : Option (List Byte)) : Prop := ∀ v ps, u.engRange w dom a len .write true = .ok v ps →
          let t := v.putLine n len ps bs
          (C.bundleNo a = none → exec (.cardLineWrite n) s = .next t) ∧
          ∀ k, C.bundleNo a = some k → exec (.cardLineWrite n) s = .next (t.bundleLine u.fab.nextTag k (ps.map (·.1)))
        (∀ xs, s.itemSource n i C.pos len = .bytes xs → puts s (some xs)) ∧
        ∀ u d b v x, s.itemSource n i C.pos len = .range u d b →
          u.readLines n (u.indexLines n i).contains [(d, b, len)] = .got v x →
          (x.sick = [] → puts (v.keepLines n x) (some x.bytes.flatten)) ∧ (x.sick ≠ [] → puts (v.keepLines n x) none)) ∧
      (C.isColl = true → s.unitFailed (n, 255, 3) = true → ∃ t, exec (.cardLineWrite n) s = .next t ∧
        (t.card n).fail = some 4 ∧ (t.card n).kfail = some 4 ∧ t.mem = s.mem ∧ t.teams = s.teams) ∧
      ((C.isColl = true → s.unitFailed (n, 255, 3) = false) →
        (C.isColl = true → C.sent = false → exec (.cardLineWrite n) s = .next (s.collLine n i)) ∧
        (C.sent = true → s.unitFailed (n, 255, 0) = true → ∃ t, exec (.cardLineWrite n) s = .next t ∧
          (t.card n).fail = some 4 ∧ (t.card n).kfail = C.kfail ∧ t.mem = s.mem ∧ t.teams = s.teams) ∧
        (C.sent = true → s.unitFailed (n, 255, 0) = false → s.unitPending (n, 255, 0) = false → ∃ t,
          exec (.cardLineWrite n) s = .next t ∧ (t.card n).sent = false ∧
          (C.isColl = true → (t.card n).pos = C.pos + min (C.share i - C.pos) (128 - (C.f 0x20 8 + 65536 * i + C.pos) % 128)) ∧
          (C.isColl = false → ∀ dom a len, s.itemDest n i = some (dom, a, len) → (t.card n).pos = C.pos + len)))) ∧
    (C.ended = false → C.isRaster = false →
      (C.lastDue ≠ none → exec (.cardItemEnd n) s = .next (s.tryLast n)) ∧
      ∀ i st, C.lastDue = none → C.cur = some i → s.itemOutcome n i = some st → s.pixelsHold n = false →
        ∃ t, exec (.cardItemEnd n) s = .next t ∧ (t.card n).done = C.done ++ [(i, st)] ∧ (t.card n).cur = none) ∧
    (∀ i, (∀ st, C.fail = some st → s.itemOutcome n i = some st) ∧
      (C.fail = none → C.isBytes = true → C.written i ≤ C.pos → C.sent = false →
        s.unitPending (n, 255, 0) = false → s.itemOutcome n i = some (if C.sick then 5 else 1))) ∧
    (C.rel = true → C.relDue = false → C.ended = false → ∃ t, exec (.cardReltimeReached n) s = .next t ∧
      t.card n = { C with relDue := true } ∧ (∀ x, x ≠ n → t.card x = s.card x) ∧ t.mem = s.mem ∧ t.teams = s.teams ∧
      (C.reltime < 2 ^ 64 → C.reltime ≤ t.hub.clock.now.toNat)) ∧
    ∀ k P, s.eng.prefetches[k]? = some P →
      (∀ l, s.unitAt P.ctx (P.next * 128) { rd := true } 0 = .busy l → exec (.bulkPrefetchLine k) s = .next (s.recallLine l)) ∧
      ((∀ l, s.unitAt P.ctx (P.next * 128) { rd := true } 0 ≠ .busy l) → ∃ t, exec (.bulkPrefetchLine k) s = .next t ∧
      (P.bo = none → t.mem = s.mem) ∧
      (P.left - 1 ≠ 0 → ∃ x, t.eng.prefetches = modNth s.eng.prefetches k (fun _ => { P with next := P.next + 1, left := P.left - 1, skips := x }) ∧
        (x = P.skips ∨ x = P.skips + 1)) ∧
      (P.left - 1 = 0 → (∀ x ∈ t.eng.prefetches, x.id ≠ P.id) ∧ ∀ j, P.token = some j →
        j < (s.grp P.team P.group).tokens.length → ((t.grp P.team P.group).tokens.getD j {}).busy = false))

/-- A primitive that can be read, its lines whole, gains the card's pixel launch its blocks in order, or none when it is empty,
and is done with; a skipped one fails its item with status 10, a poisoned one with 5. Each block has covered pixels, and its
mask holds exactly the pixels of the target that the primitive covers. A pixel group that has ended contributes its
gradients once no page of the array is missing, and before that has the missing pages recorded. The items of a raster card
end when its primitives' groups have, all of them when the card is cancelled or its pixel launch halted; the last, however
it ends, is held until the pixel launch's teams and cards have ended. An edge with finite ends between faces of the list is
sampled and its records written; of another the manual says nothing: it has no samples, and whether its item fails is a free
value. (Where the manual leaves it open, this rests on the model: log 32, 104, 105, 106, 107, 183, 201, 202.) -/
def Obligations.RasterWork : Prop :=
  (∀ (q : Prim) (k w h : Nat) (ws : List W32), ∀ b ∈ q.blocks k w h ws, b.cover ≠ 0 ∧ b.prim = k ∧ b.words = ws ∧
    ∀ l, l < 32 → (b.cover.getLsbD l = true ↔
      (lanePixel b l).1 < w ∧ (lanePixel b l).2 < h ∧ q.covers (sampleAt (lanePixel b l).1 (lanePixel b l).2) = true)) ∧
  ∀ (s : State) (n : Nat),
    let C := s.card n
    (∀ p g u x, C.cur = some p → C.pixGrid = some g → C.isRaster = true → C.fail = none → C.pages = [] →
      s.cardRuns n = true → (s.grid g).halted = false →
      s.readLines n (fun _ => false) [(C.ctx, C.prims + 48 * p, 48)] = .got u x → g < u.grids.length → n < u.eng.cards.length →
      let ws := primWords x.bytes.flatten
      (x.sick ≠ [] → ∃ t, exec (.rasterWalk n) s = .next t ∧ (t.card n).fail = some 5 ∧ t.grids = u.grids ∧ t.mem = u.mem) ∧
      (x.sick = [] →
        (primOf ws = .skipped → ∃ t, exec (.rasterWalk n) s = .next t ∧ (t.card n).fail = some 10 ∧ t.grids = u.grids) ∧
        (primOf ws = .empty → ∃ t, exec (.rasterWalk n) s = .next t ∧ (t.card n).cur = none ∧
          (t.grid g).pixels = (u.grid g).pixels ∧ t.mem = u.mem) ∧
        ∀ q, primOf ws = .prim q → ∃ t, exec (.rasterWalk n) s = .next t ∧ (t.card n).cur = none ∧
          (t.grid g).pixels = (u.grid g).pixels ++ q.blocks p C.targetW C.targetH ws ∧ t.mem = u.mem)) ∧
    (n < s.eng.cards.length → C.isRaster = true → C.ended = false → C.lastDue = none →
      (∀ st, C.cancel = some st →
        let u := s.stopPixels n
        exec (.cardItemEnd n) s = .next ((u.endAllItems n st (u.pixelsHold n)).payAll n)) ∧
      ∀ g, C.cancel = none → C.pixGrid = some g →
        ((s.grid g).halted = true → exec (.cardItemEnd n) s = .next ((s.endAllItems n 16 (s.pixelsHold n)).payAll n)) ∧
        (∀ i st, (s.grid g).halted = false → C.cur = some i → s.itemOutcome n i = some st →
          (C.done.length + 1 = C.nitem → s.pixelsHold n = true → exec (.cardItemEnd n) s = .next (s.payAll n)) ∧
          (C.done.length + 1 ≠ C.nitem ∨ s.pixelsHold n = false → ∃ t, exec (.cardItemEnd n) s = .next t ∧
            (t.card n).done = C.done ++ [(i, st)] ∧ (t.card n).cur = none)) ∧
        ∀ p, (s.grid g).halted = false → (∀ i, C.cur = some i → s.itemOutcome n i = none) → s.primDone n = some p →
          ∃ t, exec (.cardItemEnd n) s = .next t ∧ (t.card n).done = C.done ++ [(p, assocGet C.itemFail p 1)]) ∧
    (∀ t g b, (s.grid (s.team t).grid).par.card = some n → (s.grp t g).pixel = some b → C.kind = kRastAdj →
      (s.grp t g).ended = true → (s.grp t g).vgradDone = false → (s.team t).live = true → C.pages = [] →
      t < s.teams.length → g < (s.team t).groups.length →
      let xs := (s.groupGrads t g C b).1
      (∀ x ∈ xs, ∀ l, s.gradWord C x.2.1 ≠ .busy l) →
      ((∀ x ∈ xs, ∀ p, s.gradWord C x.2.1 ≠ .page p) → ∃ u, exec (.vertexGradientContrib t g) s = .next u ∧
        (u.grp t g).vgradDone = true ∧ u.mem = s.mem ∧ ∃ new, u.eng.scatter = s.eng.scatter ++ new) ∧
      ∀ x p, x ∈ xs → s.gradWord C x.2.1 = .page p → ∃ u, exec (.vertexGradientContrib t g) s = .next u ∧
        (u.grp t g).vgradDone = false ∧ u.mem = s.mem ∧ u.eng.scatter = s.eng.scatter ∧
        ∃ r ∈ u.mm.faults, r.ctx = C.ctx ∧ r.page = p) ∧
    ∀ e u x, C.cur = some e → C.kind = kEdge → C.fail = none → C.pos = 0 → C.pages = [] → s.cardRuns n = true → C.sent = false →
      s.readLines n (fun _ => true) [(C.ctx, C.f 0x18 8 + 32 * e, 32)] = .got u x → n < u.eng.cards.length →
      let edge := x.bytes.flatten
      let f0 := fieldAt edge 16 4
      let f1 := fieldAt edge 20 4
      let faces := if f1 = 0xFFFFFFFF then [f0] else [f0, f1]
      let spoken : Prop := (∀ i, i < 4 → (f32At edge (4 * i)).isFin = true) ∧ ∀ i ∈ faces, i < C.nprim
      (x.sick ≠ [] → ∃ t, exec (.edgeSample n) s = .next t ∧ (t.card n).fail = some 5 ∧ t.mem = u.mem) ∧
      (x.sick = [] → ¬ spoken → ∃ t, exec (.edgeSample n) s = .next t ∧ t.mem = u.mem ∧ (t.card n).count = (u.card n).count ∧
        ((t.card n).pos = 1 ∨ (t.card n).fail = some 10)) ∧
      ∀ v y, x.sick = [] → spoken →
        (u.keepLines n x).readLines n (fun _ => true) (faces.map fun i => (C.ctx, C.prims + 48 * i, 48)) = .got v y →
        n < v.eng.cards.length →
        let bs := y.bytes.flatten
        let h := v.keepLines n y
        let r := h.edgeRecords C e edge (primWords bs) (if f1 = 0xFFFFFFFF then none else some (primWords (bs.drop 48)))
        (y.sick ≠ [] → ∃ t, exec (.edgeSample n) s = .next t ∧ (t.card n).fail = some 5 ∧ t.mem = v.mem) ∧
        (y.sick = [] → exec (.edgeSample n) s = .next (h.tick.tick.tick.writeSamples n r) ∧
          (r.1 = [] → ∃ t, exec (.edgeSample n) s = .next t ∧ (t.card n).pos = 1 ∧ (t.card n).count = (v.card n).count ∧
            t.mem = v.mem))

/-- VACCMD.GO queues a vacate of the named cores of a context and sets BUSY, and is ignored while BUSY is 1. A vacate takes the
first request: every team of the context on its cores is vacated with the other members of its set, keeps its core number
and every lane's registers, no other team changes its status; the grids of those teams and those that can still be placed
there lose those cores and gain none, but for the grid that asked, and no other grid changes but by asking again; VACTIME
keeps within 12,000 ns for each 64 cores begun, and BUSY clears for a request of the host. CTXCMD.GO is ignored while BUSY;
it waits with BUSY set while another package holds the lines of the incoming context's entry; an incoming context that is
not usable sets the error bit and changes nothing else; otherwise the outgoing context's running teams are switched out;
then, for a new cache mode, with LLCCTL.BUSY set, the pending contributions are performed once their lines are to be had,
and only then the lines of other packages leave; at last the mode is in force and the incoming context is in. (Where the
manual leaves it open, this rests on the model: log 81, 82, 83, 84, 85, 157, 158, 159, 163, 165, 192.) -/
def Obligations.Preemption : Prop :=
  ∀ (s : State) (v : W32), 
    (v.getLsbD 0 = true →
      (s.regs.vacCmd.getLsbD 31 = true → exec (.vaccmdGo v) s = .next s) ∧
      (s.regs.vacCmd.getLsbD 31 = false → ∃ t, exec (.vaccmdGo v) s = .next t ∧
        t.regs = { s.regs with vacCmd := (v &&& 0x00FF0000) ||| 0x80000000 } ∧ t.mem = s.mem ∧ t.teams = s.teams ∧ t.grids = s.grids ∧
        t.cp = { s.cp with vacs := s.cp.vacs ++ [⟨(v.extractLsb' 16 8).toNat, s.vacCores, true, none⟩] })) ∧
    (∀ q rest, s.cp.vacs = q :: rest → ∃ t, exec .vacate s = .next t ∧ t.cp.vacs = rest ∧ t.teams.length = s.teams.length ∧
      (∀ u, u ∈ s.victims q → (t.team u).status = .vacated ∧ (t.team u).core = (s.team u).core ∧
        ∀ h l, let L := (s.grp u h).lane l
          let L' := (t.grp u h).lane l
          L'.pc = L.pc ∧ L'.q = L.q ∧ L'.k = L.k ∧ L'.p = L.p ∧
            (L'.status = L.status ∨ (L.isParked = true ∧ L'.status = .run))) ∧
      (∀ u, u ∉ s.victims q → (t.team u).status = (s.team u).status) ∧
      (∀ g, g < s.grids.length →
        let concerned : Prop := some g ≠ q.grid ∧ (s.vacates q g = true ∨ ∃ u ∈ s.victims q, (s.team u).grid = g)
        (concerned → (t.grid g).place.allowed = (s.grid g).place.allowed.filter fun c => !q.cores.contains c) ∧
        (¬ concerned → { t.grid g with preempted := false } = { s.grid g with preempted := false })) ∧
      t.regs.vacTime.toNat ≤ 12000 * ((q.cores.length + 63) / 64) ∧
      (q.fromHost = true → t.regs.vacCmd = s.regs.vacCmd &&& 0x7FFFFFFF)) ∧
    (v.getLsbD 0 = true →
      let out := (v.extractLsb' 8 8).toNat
      let inn := (v.extractLsb' 16 8).toNat
      let busy : Prop := s.regs.ctxCmd.getLsbD 31 = true ∧ .ctxcmdGo v ∉ s.sched.waiting
      let newMode := s.regs.llcctl.extractLsb' 0 2
      let same : Prop := newMode = s.regs.llcctl.extractLsb' 2 2
      let first : Prop := s.cp.switchStep = 0
      let u := if s.cp.switchStep = 0 then (s.switchCtxOut out).switchTo 1 else s
      let held : Prop := ¬ same ∧ u.cp.switchStep = 1 ∧ u.flushBlocked ≠ []
      let leave : Prop := ¬ same ∧ ¬ held ∧ (u.fab.proxies ≠ [] ∨ u.evicting = true)
      let asks (t : State) : Prop := t.regs.ctxCmd = (v &&& 0x00FFFF00) ||| 0x80000000 ∧ .ctxcmdGo v ∈ t.sched.waiting
      (busy → exec (.ctxcmdGo v) s = .next s) ∧
      (¬ busy → first → s.ctxBusy inn ≠ [] → ∃ t, exec (.ctxcmdGo v) s = .next t ∧ asks t ∧ t.mem = s.mem ∧ t.teams = s.teams ∧
        t.regs.llcctl = s.regs.llcctl) ∧
      (¬ busy → first → s.ctxBusy inn = [] → s.ctxUsable inn = false → ∃ t, exec (.ctxcmdGo v) s = .next t ∧
        t.regs.ctxCmd = (v &&& 0x00FFFF00) ||| 0x01000000 ∧ t.regs.llcctl = s.regs.llcctl ∧ t.mem = s.mem ∧ t.teams = s.teams ∧
        t.fab = s.fab ∧ t.cp = s.cp) ∧
      (¬ busy → (first → s.ctxBusy inn = [] ∧ s.ctxUsable inn = true) → ∃ t, exec (.ctxcmdGo v) s = .next t ∧
        (held → t.eng.scatter = u.eng.scatter ∧ t.fab.proxies = u.fab.proxies) ∧
        (¬ same → ¬ held → u.cp.switchStep = 1 → t.eng.scatter = []) ∧
        (leave → t.fab.proxies = []) ∧
        (held ∨ leave → asks t ∧ t.regs.llcctl.getLsbD 31 = true ∧
          t.regs.llcctl.extractLsb' 2 2 = s.regs.llcctl.extractLsb' 2 2) ∧
        (¬ held → ¬ leave → t.regs.ctxCmd = v &&& 0x00FFFF00 ∧ t.ctxOut inn = false ∧ t.cp.switchStep = 0 ∧
          t.regs.llcctl.extractLsb' 2 2 = newMode ∧ t.regs.llcctl.getLsbD 31 = false) ∧
        (first → out ≠ inn → t.ctxOut out = true ∧ ∀ u T, s.teams[u]? = some T → T.status = .running → s.ctxOf u = out →
          (t.team u).status = .switchedOut)))

/-- A correction is counted and pends in the group that consumed the data when it holds none. A poisoned line is marked. An
error in a register is marked in its lane, one in an accumulator in its tile; one in other core state is a fatal trap with
cause group 21 reason 7. A device error ends the unfinished grids that it touched with status 12 and their cards' items,
begun or not, with 5, leaves the others, and stops launches. A reset that is due or that FWCMD, no update running, or 115
degrees asks for ends the unfinished grids with status 12 first; with none left it, a power-on reset and a loss of power
leave no team, grid or request, every register at its reset value but FWSTAT and FWVER, and the flash image, which a
power-on checks and runs or not; a reset keeps device memory, power-on loses it. Heat at 105 degrees lowers one island by a
step. FWCMD.GO waits for lines of the image that other packages hold, then starts the write of an image that passes every
check, or reports the failed one; it is ignored while BUSY is 1; the end of the write reports result 1. (Where the manual
leaves it open, this rests on the model: log 3, 29, 127, 128, 129, 130, 131, 132, 133, 134, 138, 185.) -/
def Obligations.ErrorsAndResets : Prop :=
  ∀ (s : State),
    let cleared (t : State) : Prop := t.teams = [] ∧ t.grids = [] ∧ t.cp = {} ∧ t.mm = {} ∧ t.eng = {} ∧ t.fab = { farDown := s.fab.farDown } ∧
      t.regs = { ({} : Regs) with fwStat := t.regs.fwStat, fwVer := t.regs.fwVer } ∧ t.hub.flash.image = s.hub.flash.image
    let kept (power : Bool) (t : State) : Prop :=
      ∀ k, memRead t.mem k = if keptKey power k then memRead s.mem k else 0
    let resets (i : Instr) : Prop := ∃ t, exec i s = .next t ∧ cleared t ∧ kept false t
    let fails (i : Instr) : Prop := ∃ t, exec i s = .next t ∧ t.cp.devErr = true ∧ ∀ g ∈ s.unfinished,
      (t.grid g).report.status = 12 ∧ (t.grid g).halted = true
    let quiet (t : State) : Prop := s.regs.elSize = 0 → t.mem = s.mem
    (∀ reason unitNo addr consumer, ∃ t, exec (.eccCorrection reason unitNo addr consumer) s = .next t ∧
      t.hub.corrected = s.hub.corrected + 1 ∧ quiet t ∧ t.grids = s.grids ∧
      (∀ u g, consumer ≠ some (u, g) → t.grp u g = s.grp u g) ∧
      ∀ u g, consumer = some (u, g) → u < s.teams.length → g < (s.team u).groups.length →
        t.grp u g = if (s.grp u g).ended = false ∧ (s.grp u g).pend20 = none then
          { s.grp u g with pend20 := some ⟨reason, BitVec.ofNat 20 (unitNo % 256), addr.extractLsb' 0 32, addr.extractLsb' 32 32⟩ }
          else s.grp u g) ∧
    (∀ key reason unitNo, ∃ t, exec (.poisonLine key reason unitNo) s = .next t ∧ key / 128 ∈ t.poison ∧ quiet t ∧
      t.teams = s.teams ∧ t.grids = s.grids) ∧
    (∀ t, (s.team t).live = true → t < s.teams.length →
      (∀ g l isQueue no, ∃ u, exec (.stateError (.register t g l isQueue no)) s = .next u ∧ quiet u ∧
        (g < (s.team t).groups.length → l < (s.grp t g).lanes.length →
          (u.grp t g).lane l = ((s.grp t g).lane l).spoil isQueue no ∧
          ∀ k, k ≠ l → (u.grp t g).lane k = (s.grp t g).lane k)) ∧
      (∀ g, g < (s.team t).groups.length → (s.grp t g).ended = false → ∃ u pc, exec (.stateError (.core t g)) s =
        .next (u.takeTrap t g { trapOf 21 0x3F 7 (s.team t).core 0 0 0 with fatal := true } false pc 0) ∧
        u.teams = s.teams ∧ u.grids = s.grids ∧ quiet u) ∧
      (∀ i, ∃ u, exec (.stateError (.accumulator t i)) s = .next u ∧ quiet u ∧
        (i < (s.team t).tiles.length → u.tile t i = { s.tile t i with sick := true }) ∧
        ∀ k, k ≠ i → u.tile t k = s.tile t k)) ∧
    (∀ touched, ∃ t, exec (.deviceError touched) s = .next t ∧ t.cp = { s.cp with devErr := true } ∧
      ∀ g, g < s.grids.length →
        ((s.grid g).status ≠ .complete ∧ (s.grid g).par.card = none ∧ g ∈ touched →
          (t.grid g).report.status = 12 ∧ (t.grid g).halted = true) ∧
        (¬ ((s.grid g).status ≠ .complete ∧ (s.grid g).par.card = none ∧ g ∈ touched) →
          (t.grid g).report.status = (s.grid g).report.status ∧ (t.grid g).halted = (s.grid g).halted) ∧
        ∀ n C, s.eng.cards[n]? = some C → C.grid = g → C.ended = false → C.cancel = none →
          (s.grid g).status ≠ .complete → (s.grid g).par.card = none → g ∈ touched →
          (t.card n).cancel = some 5 ∧ (C.cur ≠ none → (t.card n).fail = some 5)) ∧
    (s.cp.devErr = true → s.resetWaits = false →
      (s.unfinished = [] → resets .deviceReset) ∧ (s.unfinished ≠ [] → fails .deviceReset)) ∧
    (s.regs.fwStat.getLsbD 30 = false →
      (s.unfinished = [] → resets .fwcmdReset) ∧ (s.unfinished ≠ [] → fails .fwcmdReset)) ∧
    (s.regs.fwStat.getLsbD 30 = true → exec .fwcmdReset s = .next s ∧ exec .fwcmdGo s = .next s) ∧
    (∃ t, exec .powerOnReset s = .next t ∧ cleared t ∧ kept true t ∧ t.hub.powered = true ∧
      (s.flashCheck = 0 → t.hub.flash.running = some s.hub.flash.image ∧ t.regs.fwStat = 0 ∧
        t.regs.fwVer = BitVec.ofNat 32 (Config.imageVersion (s.hub.flash.image.getD Config.factoryImage))) ∧
      (s.flashCheck ≠ 0 → t.hub.flash.running = none ∧ t.regs.fwStat = BitVec.ofNat 32 (2 ^ 31 + s.flashCheck * 16) ∧
        t.regs.fwVer = 0 ∧ t.hub.zlog.getLast? = some (BitVec.ofNat 32 s.flashCheck))) ∧
    (∃ t, exec .powerLoss s = .next t ∧ cleared t ∧ kept true t ∧ t.hub.powered = false) ∧
    (s.unfinished = [] → ∃ t, exec .thermal115 s = .next t ∧ cleared t) ∧ (s.unfinished ≠ [] → fails .thermal115) ∧
    (∀ island : BitVec 7, ∃ t, exec (.thermal105 island) s = .next t ∧ t.teams = s.teams ∧ t.mem = s.mem ∧
      t.hub = { s.hub with hot := t.hub.hot } ∧ t.hub.hot.length = s.hub.hot.length ∧
      (∀ i, i ≠ island.toNat → t.hub.hot.getD i 0 = s.hub.hot.getD i 0) ∧
      (island.toNat < s.hub.hot.length → t.hub.hot.getD island.toNat 0 = min 30 (s.hub.hot.getD island.toNat 0 + 1))) ∧
    (s.regs.fwStat.getLsbD 30 = false →
      let a := localKey (s.regs.fwStage.toNat % 2 ^ 45 / 4096 * 4096)
      let image := s.rd a imageMax
      let keep : W32 := s.regs.fwStat &&& 0x80000000
      (s.heldIn a imageMax ≠ [] → ∃ t, exec .fwcmdGo s = .next t ∧ t.mem = s.mem ∧ .fwcmdGo ∈ t.sched.waiting ∧ t.regs = s.regs) ∧
      (s.heldIn a imageMax = [] → ∃ t, exec .fwcmdGo s = .next t ∧ t.mem = s.mem ∧ t.teams = s.teams ∧ t.grids = s.grids ∧
        (s.imageCheck image = 0 → t.regs.fwStat = keep ||| 0x40000000 ∧ t.hub.flash.image = some image ∧
          t.hub.flash.partial_ = true) ∧
        (s.imageCheck image ≠ 0 → t.regs.fwStat = keep ||| BitVec.ofNat 32 (s.imageCheck image * 16 + 2) ∧
          t.hub.flash = s.hub.flash))) ∧
    (s.regs.fwStat.getLsbD 30 = true → ∃ t, exec .firmwareUpdateDone s = .next t ∧
      t.regs = { s.regs with fwStat := (s.regs.fwStat &&& 0x80000000) ||| 1 } ∧ t.hub.flash.partial_ = false ∧
      t.hub.flash.image = s.hub.flash.image ∧ t.mem = s.mem)

/-- A measurement, from PTP or from a granted PTM answer, never lowers device time, counts measurements within 100 ns in a row,
sets LOCK from the sixteenth on, steps a lag of more than a millisecond, holds the rate within 500 ppm and removes a lead at
-500 ppm; a PTM answer that is not granted, four seconds without a measurement and two seconds without an awaited pulse set
HOLDOVER and keep LOCK. a PTM request goes out PTMIVL after the last. A pulse edge is latched and counted, and under PPSREF
the counter's seconds are steered to it. TIMECTL selects the source and clears LOCK, and each ground of HOLDOVER whose
source it changes; SRC 3 is ignored. A prediction, 10 us after the last, takes the fewest further steps that fit, or all
that are left; PWRNOW never exceeds 4,200 W; PWRCAPNS counts the time under the cap; a millisecond of low sums undoes one
step. The mailbox answers every request while no other package holds a line of the context table; the answer is a free
value. (Where the manual leaves it open, this rests on the model: log 29, 136, 137, 138, 139, 140.) -/
def Obligations.ClockAndPower : Prop :=
  ∀ (s : State),
    let c := s.hub.clock
    let hold (t : State) : Bool := t.regs.timeStat.getLsbD 1
    let steady (t : State) : Prop := t.mem = s.mem ∧ t.teams = s.teams ∧ t.grids = s.grids
    let measured (i : Instr) (off : Int) : Prop :=
      let good := if off.natAbs ≤ 100 then c.good + 1 else 0
      ∃ t, exec i s = .next t ∧ steady t ∧ c.now.toNat ≤ t.hub.clock.now.toNat ∧ t.hub.clock.good = good ∧
        (t.locked = true ↔ 16 ≤ good) ∧ hold t = c.holdPps ∧ t.hub.clock.ptmWait = false ∧
        t.hub.clock.lastMeas = t.hub.clock.now.toNat ∧
        -500 ≤ t.hub.clock.ppm ∧ t.hub.clock.ppm ≤ 500 ∧ (off < 0 → t.hub.clock.ppm = -500) ∧
        (1000000 < off → min (2 ^ 64 - 1) (c.now.toNat + off.toNat) ≤ t.hub.clock.now.toNat)
    let held (i : Instr) (since : Nat) : Prop := ∃ t, exec i s = .next t ∧ steady t ∧ hold t = true ∧ t.locked = s.locked ∧
      (since < 2 ^ 64 → since ≤ t.hub.clock.now.toNat)
    (s.timeSrc = 1 → ∀ off, measured (.ptpMessage off) off) ∧
    (c.ptmWait = true → ∀ off, measured (.ptmResponse true off) off ∧ held (.ptmResponse false off) 0) ∧
    (s.timeSrc = 2 → ∃ t, exec .ptmRequest s = .next t ∧ steady t ∧ t.hub.clock.ptmWait = true ∧ t.regs = s.regs ∧
      t.hub.clock.lastReq = t.hub.clock.now.toNat ∧
      (c.lastReq + s.regs.ptmIvl.toNat * 1000 < 2 ^ 64 →
        c.lastReq + s.regs.ptmIvl.toNat * 1000 ≤ t.hub.clock.now.toNat)) ∧
    (∃ t, exec .ppsEdge s = .next t ∧ steady t ∧ t.regs.ppsCount = s.regs.ppsCount + 1 ∧
      t.locked = s.locked ∧ hold t = c.holdSrc ∧ c.now.toNat ≤ t.regs.ppsLatch.toNat ∧
      let at_ := t.regs.ppsLatch.toNat
      let past := at_ % 1000000000
      (s.ppsRef = false ∨ s.timeSrc = 0 → t.hub.clock.now = t.regs.ppsLatch ∧ t.hub.clock.ppm = c.ppm) ∧
      (s.ppsRef = true → s.timeSrc ≠ 0 → -500 ≤ t.hub.clock.ppm ∧ t.hub.clock.ppm ≤ 500 ∧
        (c.lead = true ∨ (0 < past ∧ past ≤ 500000000) → t.hub.clock.ppm = -500) ∧
        t.hub.clock.now.toNat = (if 500000000 < past ∧ past < 999000000
          then min (2 ^ 64 - 1) (at_ + (1000000000 - past)) else at_))) ∧
    (s.timeSrc ≠ 0 → c.holdSrc = false → held .holdoverTimeout (c.lastMeas + 4000000000)) ∧
    (s.ppsRef = true → c.holdPps = false → held .ppsLossTimeout (c.lastEdge + 2000000000)) ∧
    (∀ v : W32, (v.extractLsb' 0 2 = 3 → exec (.timectlSrcWrite v) s = .next s) ∧
      (v.extractLsb' 0 2 ≠ 3 → ∃ t, exec (.timectlSrcWrite v) s = .next t ∧ steady t ∧ t.regs.timeCtl = v &&& 7 ∧
        t.locked = false ∧ t.hub.clock.good = 0 ∧
        (hold t = true ↔ (c.holdSrc = true ∧ (v.extractLsb' 0 2).toNat = s.timeSrc) ∨ (c.holdPps = true ∧ v.getLsbD 2 = s.ppsRef)) ∧
        ((v.extractLsb' 0 2).toNat ≠ s.timeSrc → t.hub.clock.ptmWait = false ∧ t.hub.clock.lead = false ∧
          t.hub.clock.ppm = (if v.extractLsb' 0 2 = 0 then 0 else c.ppm)))) ∧
    (∀ watts : List Nat, ∃ t k, exec (.powerPredict watts) s = .next t ∧ steady t ∧ t.hub.cap = s.hub.cap + k ∧
      k ≤ allSteps - s.hub.cap ∧ (∀ i, i < k → i < watts.length → s.regs.pwrLimit.toNat < watts.getD i 0) ∧
      (k < allSteps - s.hub.cap → k < watts.length ∧ watts.getD k 0 ≤ s.regs.pwrLimit.toNat) ∧
      t.regs.pwrNow.toNat ≤ 4200 ∧ (c.lastPredict + 10000 < 2 ^ 64 → c.lastPredict + 10000 ≤ t.hub.clock.now.toNat) ∧
      t.hub.clock.lastPredict = t.hub.clock.now.toNat ∧ t.hub.clock.capTo = t.hub.clock.now.toNat ∧
      t.hub.clock.quietSince = (if ∃ w, watts.head? = some w ∧ w * 100 ≤ 95 * s.regs.pwrLimit.toNat then c.quietSince
        else t.hub.clock.now.toNat) ∧
      t.regs.pwrCapNs = (if s.hub.cap = 0 then s.regs.pwrCapNs
        else s.regs.pwrCapNs + BitVec.ofNat 64 (t.hub.clock.now.toNat - c.capTo))) ∧
    (∀ watts : List Nat, 100 ≤ watts.length → (∀ w ∈ watts, w * 100 ≤ 95 * s.regs.pwrLimit.toNat) →
      (s.hub.cap ≠ 0 ∨ ∃ h ∈ s.hub.hot, h ≠ 0) → ∃ t, exec (.powerRestoreStep watts) s = .next t ∧ steady t ∧
        t.hub.clock.quietSince = t.hub.clock.now.toNat ∧
        (c.quietSince + 1000000 < 2 ^ 64 → c.quietSince + 1000000 ≤ t.hub.clock.now.toNat) ∧
        (s.hub.cap ≠ 0 → t.hub.cap = s.hub.cap - 1 ∧ t.hub.hot = s.hub.hot) ∧
        (s.hub.cap = 0 → t.hub.cap = 0 ∧ t.hub.hot = s.hub.hot.map (· - 1))) ∧
    ∀ i ask, (∃ x, i = Instr.spdmGetMeasurements x ∧ ask = x :: s.measurement x.toNat) ∨
        (∃ x, i = .spdmChallenge x ∧ ask = leBytes 32 x.toNat ++ [1, 2, 3, 4].flatMap s.measurement) ∨
        i = .spdmSecuredSession ask → s.heldIn (s.ctxEntry 0) 16384 = [] →
      ∃ t, exec i s = .next t ∧ steady t ∧ t.regs = s.regs ∧ t.hub.doeOut = Config.spdmAnswer s.sched.freeCtr ask ∧
        (i = .spdmSecuredSession ask → t.hub.spdmUp = true)

/-- An access beyond HBM4 is an Unsupported Request and does nothing; one to lines that other packages hold, or behind a host
write that waits, waits; any other read returns the bytes, marked when they are poisoned, and any other write stores them,
poisoned when the host's are, and nothing else. A write of an offset that names no register is ignored; a read of one, or of
a register that can only be written, returns zero. ELLOST, PPSCOUNT and PWRCAPNS are returned and cleared by a read. Every
write of a register completes. A plain register takes its writable bits, within its limits, and no other register changes;
the ring registers of a queue are ignored while it is enabled; QSTAT clears the bits written as one; a command register
performs its command. Stored bytes read back when memory is in its canonical form. (Where the manual leaves it open, this
rests on the model: log 48, 118, 135, 149, 188, 200.) -/
def Obligations.HostAccess : Prop :=
  ∀ (s : State),
    let steady (t : State) : Prop := t.mem = s.mem ∧ t.teams = s.teams ∧ t.grids = s.grids
    (∀ addr len (data : Option LinkData), len ≠ 0 → (∀ d, data = some d → d.bytes.length = len) →
      let i := Instr.bar2Access addr len data
      let held := (hostLines addr len).filter fun l => s.dirBlocks l data.isSome
      (hbmEnd < addr + len → exec i s = .next { s with hub := { s.hub with bar2Ur := true, bar2Bad := false } }) ∧
      let turn : Prop := s.firstHostWrite = none ∨ s.firstHostWrite = some i
      (addr + len ≤ hbmEnd → ¬ turn → ∃ t, exec i s = .next t ∧ steady t ∧ i ∈ t.sched.waiting ∧ t.hub = s.hub) ∧
      (addr + len ≤ hbmEnd → turn → held ≠ [] → ∃ t, exec i s = .next t ∧ steady t ∧ i ∈ t.sched.waiting ∧ t.hub = s.hub) ∧
      (addr + len ≤ hbmEnd → turn → held = [] → ∃ t, exec i s = .next t ∧ t.teams = s.teams ∧ t.hub.bar2Ur = false ∧
        (data = none → t.mem = s.mem ∧ t.hub.bar2Data = ((List.range len).map fun k => memRead s.mem (localKey addr + k)) ∧
          t.hub.bar2Bad = s.poisoned (localKey addr) len) ∧
        ∀ d, data = some d → (d.poisoned = true → ∀ l ∈ hostLines addr len, l ∈ t.poison) ∧
          (Memory.wf s.mem = true → ∀ k, k < len → memRead t.mem (localKey addr + k) = d.bytes.getD k 0) ∧
          ∀ a, ¬ (localKey addr ≤ a ∧ a < localKey addr + len) → memRead t.mem a = memRead s.mem a)) ∧
    (∀ off : W32, namesReg off.toNat = false → exec (.bar0UnmappedAccess off true) s = .next s ∧
      exec (.bar0UnmappedAccess off false) s = .next { s with hub := { s.hub with hostRead := 0 } }) ∧
    (∀ off : W32, writeOnly off.toNat = true →
      exec (.bar0UnmappedAccess off false) s = .next { s with hub := { s.hub with hostRead := 0 } }) ∧
    (exec .ellostRead s = .next { s with
      hub := { s.hub with hostRead := s.regs.elLost.zeroExtend 64 }, regs := { s.regs with elLost := 0 } }) ∧
    (exec .ppscountRead s = .next { s with
      hub := { s.hub with hostRead := s.regs.ppsCount.zeroExtend 64 }, regs := { s.regs with ppsCount := 0 } }) ∧
    (∃ t, exec .pwrcapnsRead s = .next t ∧ steady t ∧ t.regs = { s.regs with pwrCapNs := 0 } ∧
      t.hub.clock.capTo = t.hub.clock.now.toNat ∧ s.hub.clock.now.toNat ≤ t.hub.clock.now.toNat ∧
      t.hub.hostRead = s.regs.pwrCapNs + BitVec.ofNat 64 (if s.hub.cap = 0 then 0 else t.hub.clock.now.toNat - s.hub.clock.capTo)) ∧
    (∀ off v, namesReg off.toNat = true → ∃ t, exec (.registerWrite off v) s = .next t) ∧
    (∀ v : W64,
      let w : W32 := v.extractLsb' 0 32
      let sets (off : W32) (r : Regs) : Prop := exec (.registerWrite off v) s = .next { s with regs := r }
      let same (off : W32) (i : Instr) : Prop := exec (.registerWrite off v) s = exec i s
      let within (lo hi : Nat) : W32 := BitVec.ofNat 32 (max lo (min hi w.toNat))
      sets 0x2000 { s.regs with llcctl := (s.regs.llcctl &&& 0x8000000C) ||| (w &&& 3) } ∧
      sets 0x2100 { s.regs with invAddr := v &&& 0x01FFFFFFFFFFF000 } ∧
      sets 0x2110 { s.regs with migHold := within 1000 4000000000 } ∧
      sets 0x2120 { s.regs with fqSize := w } ∧ sets 0x2200 { s.regs with scovCtx := w &&& 0xFF } ∧
      sets 0x2300 { s.regs with syncTo := w } ∧ sets 0x2510 { s.regs with elRead := w } ∧
      sets 0x2514 { s.regs with elCtl := w &&& 3 } ∧ sets 0x261C { s.regs with ptmIvl := within 1000 1000000 } ∧
      sets 0x2700 { s.regs with pwrLimit := within 1000 4200 } ∧ sets 0x2808 { s.regs with fwStage := v &&& 0x00001FFFFFFFF000 } ∧
      sets 0x3008 { s.regs with fabTo := within 100 1000000 } ∧
      sets 0x2508 (if w = 0 ∨ ringSizeOk 64 w.toNat = true then { s.regs with elSize := w } else s.regs) ∧
      sets 0x3010 (if peerCount ≤ (w.extractLsb' 0 12).toNat then s.regs else { s.regs with routeIdx := w &&& 0xFFF }) ∧
      sets 0x2430 (if s.teams.any Team.live then s.regs else { s.regs with ctxBase := v &&& 0x00001FFFFFFFF000 }) ∧
      same 0x2118 (.fqbaseWrite v) ∧ same 0x2128 (.fqreadWrite w) ∧ same 0x2608 (.timectlSrcWrite w) ∧
      same 0x3018 (.routedataWrite v) ∧
      (v.getLsbD 63 = true → same 0x2138 (.migreqGo v)) ∧
      (v.getLsbD 0 = true → same 0x2420 (.vaccmdGo w) ∧ same 0x2438 (.ctxcmdGo w)) ∧
      (v.extractLsb' 0 2 = 0 → same 0x2108 (.invcmdPage (v.extractLsb' 16 8)) ∧
        same 0x2130 (.fresolveMapped (v.extractLsb' 32 32))) ∧
      (v.extractLsb' 0 2 = 1 → same 0x2108 (.invcmdContext (v.extractLsb' 16 8)) ∧
        same 0x2130 (.fresolveUnresolvable (v.extractLsb' 32 32))) ∧
      (v.extractLsb' 0 2 = 2 → same 0x2108 (.invcmdAll (v.extractLsb' 16 8)))) ∧
    ∀ (q : BitVec 6) (v : W64),
      let w : W32 := v.extractLsb' 0 32
      let Q := s.queue q.toNat
      let at_ (r : Nat) : W32 := BitVec.ofNat 32 (0x10000 + 64 * q.toNat + r)
      let sets (r : Nat) (f : Queue → Queue) : Prop := exec (.registerWrite (at_ r) v) s = .next (s.modQueue q.toNat f)
      let idle (r : Nat) (f : Queue → Queue) : Prop :=
        (Q.en = true → exec (.registerWrite (at_ r) v) s = .next s) ∧ (Q.en = false → sets r f)
      idle 0 (fun Q => { Q with qbase := v &&& 0x81FFFFFFFFFFFF80 }) ∧
      (ringSizeOk 2 w.toNat = true → idle 8 fun Q => { Q with qsize := w }) ∧
      (ringSizeOk 2 w.toNat = false → exec (.registerWrite (at_ 8) v) s = .next s) ∧
      ((Q.en = false ∨ v.getLsbD 31 = true) → sets 0xC fun Q => { Q with qctl := w &&& 0xF8FF0000 }) ∧
      (Q.en = true → v.getLsbD 31 = false → exec (.registerWrite (at_ 0xC) v) s = exec (.queueDisable q w) s) ∧
      exec (.registerWrite (at_ 0x10) v) s = exec (.qwriteWrite q w) s ∧
      sets 0x18 (fun Q => { Q with qstat := Q.qstat &&& ~~~(w &&& 7) }) ∧
      idle 0x20 (fun Q => { Q with segbase := v &&& 0x01FFFFFFFFFFFF80 }) ∧ idle 0x28 (fun Q => { Q with segsize := w }) ∧
      (v.getLsbD 31 = true → exec (.registerWrite (at_ 0x2C) v) s = exec (.segrelGo q w) s)

/-- Predicate p0 reads true in every lane. A write to p0 leaves the lane as it was, and a lane that receives a result with a
write of p0 stands as if the write were not there: the values pushed are unaffected. With the guard p0 Active() is the whole
set of lanes at the program counter, each of which is neither parked nor exited, and which holds every running lane at that
program counter that does not wait; negated, Active() is empty. -/
def Obligations.PredicateZero : Prop :=
  (∀ (L : Lane), L.pred 0 = true ∧ ∀ b, L.setPred 0 b = L) ∧
  (∀ (L : Lane) (o : LaneOut) (b : Bool), L.take { o with pred := some (0, b) } = L.take { o with pred := none }) ∧
  (∀ (s : State) (c : Inst), activeOf s c 0 false = c.mask ∧ activeOf s c 0 true = 0) ∧
  ∀ (s u : State) (t g : Nat) (c : Inst), s.selectInst t g = some (c, u) → ∀ l, l < 32 →
    let L := (s.grp t g).lane l
    ((activeOf u c 0 false).getLsbD l = true → L.pc = c.pc ∧ L.isParked = false ∧ L.isExited = false) ∧
    (L.status = .run → L.stall = none → (s.grp t g).inh = false → L.pc = c.pc → (activeOf u c 0 false).getLsbD l = true)

/-- LOGIC3.b32 and LOGIC3.b64 are the words of major 0x09 with MIN 4 and 5, their operands in the fields A, B and C of V4. Each
completes: with n the low byte of IMM16 of the extension word, 0 without one, every lane of Active() pushes r, whose bit i
is bit 4 a[i] + 2 b[i] + c[i] of n for every bit position i; other lanes of the instance push zero, the lanes go on at the
next word and nothing else changes. Without an extension word r is 0. The tables 0x80, 0xFE, 0x96, 0x0F, 0xCA and 0xE4 give
a AND b AND c, a OR b OR c, a XOR b XOR c, NOT a with b and c zero, a ? b : c and c ? a : b. -/
def Obligations.TruthTables : Prop :=
  ∀ (f : V4) (m : Mods),
    let n : BitVec 8 := match m.ext with
      | some e => e.imm16.extractLsb' 0 8
      | none => 0
    let at_ (x y z : Bool) : Nat := (if x then 4 else 0) + (if y then 2 else 0) + (if z then 1 else 0)
    let common (w : Nat) (a b c r : BitVec w) : Prop :=
      (∀ i, i < w → r.getLsbD i = n.getLsbD (at_ (a.getLsbD i) (b.getLsbD i) (c.getLsbD i))) ∧ (m.ext = none → r = 0) ∧
      (n = 0x80 → r = a &&& b &&& c) ∧ (n = 0xFE → r = a ||| b ||| c) ∧ (n = 0x96 → r = a ^^^ b ^^^ c) ∧
      (n = 0x0F → b = 0 → c = 0 → r = ~~~a) ∧ (n = 0xCA → r = (a &&& b) ||| (~~~a &&& c)) ∧
      (n = 0xE4 → r = (c &&& a) ||| (~~~c &&& b))
    let codes (i : Instr) (min : BitVec 4) : Prop := ∃ w, i.word = some w ∧ majorOf w = 9 ∧ minorOf w = min ∧ unpackV4 w = f
    codes (.logic3B32 f m) 4 ∧ codes (.logic3B64 f m) 5 ∧
    ∀ (s : State) (c : Inst), s.Issues c m →
      let G := s.instGrp c
      let act := activeOf s c f.g.toNat (guardNeg m)
      (∃ r : Nat → W32, (∀ l, common 32 (src32 G m l f.a) (src32 G m l f.b) (src32 G m l f.c) (r l)) ∧
        exec (.logic3B32 f m) s = .next (s.modGroup c.team c.group fun G =>
          G.retires c m act 1 fun l => { pushes := [(r l).zeroExtend 64] })) ∧
      ∃ r : Nat → W64, (∀ l, common 64 (src G m l f.a .b64) (src G m l f.b .b64) (src G m l f.c .b64) (r l)) ∧
        exec (.logic3B64 f m) s = .next (s.modGroup c.team c.group fun G =>
          G.retires c m act 1 fun l => { pushes := [r l] })
end

