-- ==== Sys2Proof/Laws/State.lean ====
section
/-! SUPPORT. What the named updates of the state leave alone and what they set: one lemma per field per update, each true by
definition, so that no proof unfolds a record update. -/

namespace Sys2Proof.Machine

-- one theorem at a time
set_option Elab.async false

@[simp] theorem State.modTeam_mem (s : State) (t : Nat) (f : Team → Team) : (s.modTeam t f).mem = s.mem := rfl
@[simp] theorem State.modTeam_poison (s : State) (t : Nat) (f : Team → Team) : (s.modTeam t f).poison = s.poison := rfl
@[simp] theorem State.modTeam_badBytes (s : State) (t : Nat) (f : Team → Team) : (s.modTeam t f).badBytes = s.badBytes := rfl
@[simp] theorem State.modTeam_teams (s : State) (t : Nat) (f : Team → Team) : (s.modTeam t f).teams = modNth s.teams t f := rfl
@[simp] theorem State.modTeam_grids (s : State) (t : Nat) (f : Team → Team) : (s.modTeam t f).grids = s.grids := rfl
@[simp] theorem State.modTeam_cp (s : State) (t : Nat) (f : Team → Team) : (s.modTeam t f).cp = s.cp := rfl
@[simp] theorem State.modTeam_mm (s : State) (t : Nat) (f : Team → Team) : (s.modTeam t f).mm = s.mm := rfl
@[simp] theorem State.modTeam_eng (s : State) (t : Nat) (f : Team → Team) : (s.modTeam t f).eng = s.eng := rfl
@[simp] theorem State.modTeam_fab (s : State) (t : Nat) (f : Team → Team) : (s.modTeam t f).fab = s.fab := rfl
@[simp] theorem State.modTeam_regs (s : State) (t : Nat) (f : Team → Team) : (s.modTeam t f).regs = s.regs := rfl
@[simp] theorem State.modTeam_hub (s : State) (t : Nat) (f : Team → Team) : (s.modTeam t f).hub = s.hub := rfl
@[simp] theorem State.modTeam_sched (s : State) (t : Nat) (f : Team → Team) : (s.modTeam t f).sched = s.sched := rfl

@[simp] theorem State.modGroup_mem (s : State) (t g : Nat) (f : Group → Group) : (s.modGroup t g f).mem = s.mem := rfl
@[simp] theorem State.modGroup_poison (s : State) (t g : Nat) (f : Group → Group) : (s.modGroup t g f).poison = s.poison := rfl
@[simp] theorem State.modGroup_badBytes (s : State) (t g : Nat) (f : Group → Group) : (s.modGroup t g f).badBytes = s.badBytes := rfl
@[simp] theorem State.modGroup_teams (s : State) (t g : Nat) (f : Group → Group) : (s.modGroup t g f).teams = modNth s.teams t fun T => { T with groups := modNth T.groups g f } := rfl
@[simp] theorem State.modGroup_grids (s : State) (t g : Nat) (f : Group → Group) : (s.modGroup t g f).grids = s.grids := rfl
@[simp] theorem State.modGroup_cp (s : State) (t g : Nat) (f : Group → Group) : (s.modGroup t g f).cp = s.cp := rfl
@[simp] theorem State.modGroup_mm (s : State) (t g : Nat) (f : Group → Group) : (s.modGroup t g f).mm = s.mm := rfl
@[simp] theorem State.modGroup_eng (s : State) (t g : Nat) (f : Group → Group) : (s.modGroup t g f).eng = s.eng := rfl
@[simp] theorem State.modGroup_fab (s : State) (t g : Nat) (f : Group → Group) : (s.modGroup t g f).fab = s.fab := rfl
@[simp] theorem State.modGroup_regs (s : State) (t g : Nat) (f : Group → Group) : (s.modGroup t g f).regs = s.regs := rfl
@[simp] theorem State.modGroup_hub (s : State) (t g : Nat) (f : Group → Group) : (s.modGroup t g f).hub = s.hub := rfl
@[simp] theorem State.modGroup_sched (s : State) (t g : Nat) (f : Group → Group) : (s.modGroup t g f).sched = s.sched := rfl

@[simp] theorem State.modGrid_mem (s : State) (n : Nat) (f : Grid → Grid) : (s.modGrid n f).mem = s.mem := rfl
@[simp] theorem State.modGrid_poison (s : State) (n : Nat) (f : Grid → Grid) : (s.modGrid n f).poison = s.poison := rfl
@[simp] theorem State.modGrid_badBytes (s : State) (n : Nat) (f : Grid → Grid) : (s.modGrid n f).badBytes = s.badBytes := rfl
@[simp] theorem State.modGrid_teams (s : State) (n : Nat) (f : Grid → Grid) : (s.modGrid n f).teams = s.teams := rfl
@[simp] theorem State.modGrid_grids (s : State) (n : Nat) (f : Grid → Grid) : (s.modGrid n f).grids = modNth s.grids n f := rfl
@[simp] theorem State.modGrid_cp (s : State) (n : Nat) (f : Grid → Grid) : (s.modGrid n f).cp = s.cp := rfl
@[simp] theorem State.modGrid_mm (s : State) (n : Nat) (f : Grid → Grid) : (s.modGrid n f).mm = s.mm := rfl
@[simp] theorem State.modGrid_eng (s : State) (n : Nat) (f : Grid → Grid) : (s.modGrid n f).eng = s.eng := rfl
@[simp] theorem State.modGrid_fab (s : State) (n : Nat) (f : Grid → Grid) : (s.modGrid n f).fab = s.fab := rfl
@[simp] theorem State.modGrid_regs (s : State) (n : Nat) (f : Grid → Grid) : (s.modGrid n f).regs = s.regs := rfl
@[simp] theorem State.modGrid_hub (s : State) (n : Nat) (f : Grid → Grid) : (s.modGrid n f).hub = s.hub := rfl
@[simp] theorem State.modGrid_sched (s : State) (n : Nat) (f : Grid → Grid) : (s.modGrid n f).sched = s.sched := rfl

@[simp] theorem State.wr_mem (s : State) (a : Nat) (bs : List Byte) : (s.wr a bs).mem = memWriteN s.mem a bs := rfl
@[simp] theorem State.wr_teams (s : State) (a : Nat) (bs : List Byte) : (s.wr a bs).teams = s.teams := rfl
@[simp] theorem State.wr_grids (s : State) (a : Nat) (bs : List Byte) : (s.wr a bs).grids = s.grids := rfl
@[simp] theorem State.wr_cp (s : State) (a : Nat) (bs : List Byte) : (s.wr a bs).cp = s.cp := rfl
@[simp] theorem State.wr_mm (s : State) (a : Nat) (bs : List Byte) : (s.wr a bs).mm = s.mm := rfl
@[simp] theorem State.wr_eng (s : State) (a : Nat) (bs : List Byte) : (s.wr a bs).eng = s.eng := rfl
@[simp] theorem State.wr_fab (s : State) (a : Nat) (bs : List Byte) : (s.wr a bs).fab = s.fab := rfl
@[simp] theorem State.wr_regs (s : State) (a : Nat) (bs : List Byte) : (s.wr a bs).regs = s.regs := rfl
@[simp] theorem State.wr_hub (s : State) (a : Nat) (bs : List Byte) : (s.wr a bs).hub = s.hub := rfl
@[simp] theorem State.wr_sched (s : State) (a : Nat) (bs : List Byte) : (s.wr a bs).sched = s.sched := rfl

@[simp] theorem State.wrCells_mem (s : State) (cs : List Host.Cell) : (s.wrCells cs).mem = memWriteCells s.mem cs := rfl
@[simp] theorem State.wrCells_teams (s : State) (cs : List Host.Cell) : (s.wrCells cs).teams = s.teams := rfl
@[simp] theorem State.wrCells_grids (s : State) (cs : List Host.Cell) : (s.wrCells cs).grids = s.grids := rfl
@[simp] theorem State.wrCells_cp (s : State) (cs : List Host.Cell) : (s.wrCells cs).cp = s.cp := rfl
@[simp] theorem State.wrCells_mm (s : State) (cs : List Host.Cell) : (s.wrCells cs).mm = s.mm := rfl
@[simp] theorem State.wrCells_eng (s : State) (cs : List Host.Cell) : (s.wrCells cs).eng = s.eng := rfl
@[simp] theorem State.wrCells_fab (s : State) (cs : List Host.Cell) : (s.wrCells cs).fab = s.fab := rfl
@[simp] theorem State.wrCells_regs (s : State) (cs : List Host.Cell) : (s.wrCells cs).regs = s.regs := rfl
@[simp] theorem State.wrCells_hub (s : State) (cs : List Host.Cell) : (s.wrCells cs).hub = s.hub := rfl
@[simp] theorem State.wrCells_sched (s : State) (cs : List Host.Cell) : (s.wrCells cs).sched = s.sched := rfl

@[simp] theorem State.addPoison_mem (s : State) (n : Nat) : (s.addPoison n).mem = s.mem := rfl
@[simp] theorem State.addPoison_teams (s : State) (n : Nat) : (s.addPoison n).teams = s.teams := rfl
@[simp] theorem State.addPoison_grids (s : State) (n : Nat) : (s.addPoison n).grids = s.grids := rfl
@[simp] theorem State.addPoison_cp (s : State) (n : Nat) : (s.addPoison n).cp = s.cp := rfl
@[simp] theorem State.addPoison_mm (s : State) (n : Nat) : (s.addPoison n).mm = s.mm := rfl
@[simp] theorem State.addPoison_eng (s : State) (n : Nat) : (s.addPoison n).eng = s.eng := rfl
@[simp] theorem State.addPoison_fab (s : State) (n : Nat) : (s.addPoison n).fab = s.fab := rfl
@[simp] theorem State.addPoison_regs (s : State) (n : Nat) : (s.addPoison n).regs = s.regs := rfl
@[simp] theorem State.addPoison_hub (s : State) (n : Nat) : (s.addPoison n).hub = s.hub := rfl
@[simp] theorem State.addPoison_sched (s : State) (n : Nat) : (s.addPoison n).sched = s.sched := rfl

@[simp] theorem State.curePoison_mem (s : State) (f : Nat → Bool) : (s.curePoison f).mem = s.mem := rfl
@[simp] theorem State.curePoison_poison (s : State) (f : Nat → Bool) : (s.curePoison f).poison = s.poison.filter fun l => !f l := rfl
@[simp] theorem State.curePoison_badBytes (s : State) (f : Nat → Bool) : (s.curePoison f).badBytes = s.badBytes.filter fun b => !f (b / 128) := rfl
@[simp] theorem State.curePoison_teams (s : State) (f : Nat → Bool) : (s.curePoison f).teams = s.teams := rfl
@[simp] theorem State.curePoison_grids (s : State) (f : Nat → Bool) : (s.curePoison f).grids = s.grids := rfl
@[simp] theorem State.curePoison_cp (s : State) (f : Nat → Bool) : (s.curePoison f).cp = s.cp := rfl
@[simp] theorem State.curePoison_mm (s : State) (f : Nat → Bool) : (s.curePoison f).mm = s.mm := rfl
@[simp] theorem State.curePoison_eng (s : State) (f : Nat → Bool) : (s.curePoison f).eng = s.eng := rfl
@[simp] theorem State.curePoison_fab (s : State) (f : Nat → Bool) : (s.curePoison f).fab = s.fab := rfl
@[simp] theorem State.curePoison_regs (s : State) (f : Nat → Bool) : (s.curePoison f).regs = s.regs := rfl
@[simp] theorem State.curePoison_hub (s : State) (f : Nat → Bool) : (s.curePoison f).hub = s.hub := rfl
@[simp] theorem State.curePoison_sched (s : State) (f : Nat → Bool) : (s.curePoison f).sched = s.sched := rfl

@[simp] theorem State.post_mem (s : State) (p : Nat) (m : FabMsg) : (s.post p m).mem = s.mem := rfl
@[simp] theorem State.post_poison (s : State) (p : Nat) (m : FabMsg) : (s.post p m).poison = s.poison := rfl
@[simp] theorem State.post_badBytes (s : State) (p : Nat) (m : FabMsg) : (s.post p m).badBytes = s.badBytes := rfl
@[simp] theorem State.post_teams (s : State) (p : Nat) (m : FabMsg) : (s.post p m).teams = s.teams := rfl
@[simp] theorem State.post_grids (s : State) (p : Nat) (m : FabMsg) : (s.post p m).grids = s.grids := rfl
@[simp] theorem State.post_cp (s : State) (p : Nat) (m : FabMsg) : (s.post p m).cp = s.cp := rfl
@[simp] theorem State.post_mm (s : State) (p : Nat) (m : FabMsg) : (s.post p m).mm = s.mm := rfl
@[simp] theorem State.post_eng (s : State) (p : Nat) (m : FabMsg) : (s.post p m).eng = s.eng := rfl
@[simp] theorem State.post_fab (s : State) (p : Nat) (m : FabMsg) : (s.post p m).fab = { s.fab with outbox := s.fab.outbox ++ [⟨p, m⟩] } := rfl
@[simp] theorem State.post_regs (s : State) (p : Nat) (m : FabMsg) : (s.post p m).regs = s.regs := rfl
@[simp] theorem State.post_hub (s : State) (p : Nat) (m : FabMsg) : (s.post p m).hub = s.hub := rfl
@[simp] theorem State.post_sched (s : State) (p : Nat) (m : FabMsg) : (s.post p m).sched = s.sched := rfl

@[simp] theorem State.loseEvent_mem (s : State) : (s.loseEvent).mem = s.mem := rfl
@[simp] theorem State.loseEvent_poison (s : State) : (s.loseEvent).poison = s.poison := rfl
@[simp] theorem State.loseEvent_badBytes (s : State) : (s.loseEvent).badBytes = s.badBytes := rfl
@[simp] theorem State.loseEvent_teams (s : State) : (s.loseEvent).teams = s.teams := rfl
@[simp] theorem State.loseEvent_grids (s : State) : (s.loseEvent).grids = s.grids := rfl
@[simp] theorem State.loseEvent_cp (s : State) : (s.loseEvent).cp = s.cp := rfl
@[simp] theorem State.loseEvent_mm (s : State) : (s.loseEvent).mm = s.mm := rfl
@[simp] theorem State.loseEvent_eng (s : State) : (s.loseEvent).eng = s.eng := rfl
@[simp] theorem State.loseEvent_fab (s : State) : (s.loseEvent).fab = s.fab := rfl
@[simp] theorem State.loseEvent_hub (s : State) : (s.loseEvent).hub = s.hub := rfl
@[simp] theorem State.loseEvent_sched (s : State) : (s.loseEvent).sched = s.sched := rfl

@[simp] theorem State.tick_mem (s : State) : (s.tick).mem = s.mem := rfl
@[simp] theorem State.tick_poison (s : State) : (s.tick).poison = s.poison := rfl
@[simp] theorem State.tick_badBytes (s : State) : (s.tick).badBytes = s.badBytes := rfl
@[simp] theorem State.tick_teams (s : State) : (s.tick).teams = s.teams := rfl
@[simp] theorem State.tick_grids (s : State) : (s.tick).grids = s.grids := rfl
@[simp] theorem State.tick_cp (s : State) : (s.tick).cp = s.cp := rfl
@[simp] theorem State.tick_mm (s : State) : (s.tick).mm = s.mm := rfl
@[simp] theorem State.tick_eng (s : State) : (s.tick).eng = s.eng := rfl
@[simp] theorem State.tick_fab (s : State) : (s.tick).fab = s.fab := rfl
@[simp] theorem State.tick_regs (s : State) : (s.tick).regs = s.regs := rfl
@[simp] theorem State.tick_hub (s : State) : (s.tick).hub = s.hub := rfl
@[simp] theorem State.tick_sched (s : State) : (s.tick).sched = { s.sched with freeCtr := s.sched.freeCtr + 1 } := rfl

@[simp] theorem State.signalMsix_mem (s : State) : (s.signalMsix).mem = s.mem := rfl
@[simp] theorem State.signalMsix_poison (s : State) : (s.signalMsix).poison = s.poison := rfl
@[simp] theorem State.signalMsix_badBytes (s : State) : (s.signalMsix).badBytes = s.badBytes := rfl
@[simp] theorem State.signalMsix_teams (s : State) : (s.signalMsix).teams = s.teams := rfl
@[simp] theorem State.signalMsix_grids (s : State) : (s.signalMsix).grids = s.grids := rfl
@[simp] theorem State.signalMsix_cp (s : State) : (s.signalMsix).cp = s.cp := rfl
@[simp] theorem State.signalMsix_mm (s : State) : (s.signalMsix).mm = s.mm := rfl
@[simp] theorem State.signalMsix_eng (s : State) : (s.signalMsix).eng = s.eng := rfl
@[simp] theorem State.signalMsix_fab (s : State) : (s.signalMsix).fab = s.fab := rfl
@[simp] theorem State.signalMsix_regs (s : State) : (s.signalMsix).regs = s.regs := rfl
@[simp] theorem State.signalMsix_hub (s : State) : (s.signalMsix).hub = { s.hub with msix := s.hub.msix + 1 } := rfl
@[simp] theorem State.signalMsix_sched (s : State) : (s.signalMsix).sched = s.sched := rfl

@[simp] theorem State.letGo_mem (s : State) (i : Instr) : (s.letGo i).mem = s.mem := rfl
@[simp] theorem State.letGo_poison (s : State) (i : Instr) : (s.letGo i).poison = s.poison := rfl
@[simp] theorem State.letGo_badBytes (s : State) (i : Instr) : (s.letGo i).badBytes = s.badBytes := rfl
@[simp] theorem State.letGo_teams (s : State) (i : Instr) : (s.letGo i).teams = s.teams := rfl
@[simp] theorem State.letGo_grids (s : State) (i : Instr) : (s.letGo i).grids = s.grids := rfl
@[simp] theorem State.letGo_cp (s : State) (i : Instr) : (s.letGo i).cp = s.cp := rfl
@[simp] theorem State.letGo_mm (s : State) (i : Instr) : (s.letGo i).mm = s.mm := rfl
@[simp] theorem State.letGo_eng (s : State) (i : Instr) : (s.letGo i).eng = s.eng := rfl
@[simp] theorem State.letGo_fab (s : State) (i : Instr) : (s.letGo i).fab = s.fab := rfl
@[simp] theorem State.letGo_regs (s : State) (i : Instr) : (s.letGo i).regs = s.regs := rfl
@[simp] theorem State.letGo_hub (s : State) (i : Instr) : (s.letGo i).hub = s.hub := rfl
@[simp] theorem State.letGo_sched (s : State) (i : Instr) : (s.letGo i).sched = { s.sched with waiting := s.sched.waiting.erase i } := rfl

@[simp] theorem State.lookTime_mem (s : State) : (s.lookTime.2).mem = s.mem := rfl
@[simp] theorem State.lookTime_poison (s : State) : (s.lookTime.2).poison = s.poison := rfl
@[simp] theorem State.lookTime_badBytes (s : State) : (s.lookTime.2).badBytes = s.badBytes := rfl
@[simp] theorem State.lookTime_teams (s : State) : (s.lookTime.2).teams = s.teams := rfl
@[simp] theorem State.lookTime_grids (s : State) : (s.lookTime.2).grids = s.grids := rfl
@[simp] theorem State.lookTime_cp (s : State) : (s.lookTime.2).cp = s.cp := rfl
@[simp] theorem State.lookTime_mm (s : State) : (s.lookTime.2).mm = s.mm := rfl
@[simp] theorem State.lookTime_eng (s : State) : (s.lookTime.2).eng = s.eng := rfl
@[simp] theorem State.lookTime_fab (s : State) : (s.lookTime.2).fab = s.fab := rfl
@[simp] theorem State.lookTime_regs (s : State) : (s.lookTime.2).regs = s.regs := rfl
@[simp] theorem State.lookTime_sched (s : State) : (s.lookTime.2).sched = { s.sched with freeCtr := s.sched.freeCtr + 1 } := rfl

@[simp] theorem State.lookCycles_mem (s : State) (n : Nat) : ((s.lookCycles n).2).mem = s.mem := rfl
@[simp] theorem State.lookCycles_poison (s : State) (n : Nat) : ((s.lookCycles n).2).poison = s.poison := rfl
@[simp] theorem State.lookCycles_badBytes (s : State) (n : Nat) : ((s.lookCycles n).2).badBytes = s.badBytes := rfl
@[simp] theorem State.lookCycles_teams (s : State) (n : Nat) : ((s.lookCycles n).2).teams = s.teams := rfl
@[simp] theorem State.lookCycles_grids (s : State) (n : Nat) : ((s.lookCycles n).2).grids = s.grids := rfl
@[simp] theorem State.lookCycles_cp (s : State) (n : Nat) : ((s.lookCycles n).2).cp = s.cp := rfl
@[simp] theorem State.lookCycles_mm (s : State) (n : Nat) : ((s.lookCycles n).2).mm = s.mm := rfl
@[simp] theorem State.lookCycles_fab (s : State) (n : Nat) : ((s.lookCycles n).2).fab = s.fab := rfl
@[simp] theorem State.lookCycles_regs (s : State) (n : Nat) : ((s.lookCycles n).2).regs = s.regs := rfl
@[simp] theorem State.lookCycles_hub (s : State) (n : Nat) : ((s.lookCycles n).2).hub = s.hub := rfl
@[simp] theorem State.lookCycles_sched (s : State) (n : Nat) : ((s.lookCycles n).2).sched = { s.sched with freeCtr := s.sched.freeCtr + 1 } := rfl

@[simp] theorem State.wakeParks_mem (s : State) : (s.wakeParks).mem = s.mem := rfl
@[simp] theorem State.wakeParks_poison (s : State) : (s.wakeParks).poison = s.poison := rfl
@[simp] theorem State.wakeParks_badBytes (s : State) : (s.wakeParks).badBytes = s.badBytes := rfl
@[simp] theorem State.wakeParks_grids (s : State) : (s.wakeParks).grids = s.grids := rfl
@[simp] theorem State.wakeParks_cp (s : State) : (s.wakeParks).cp = s.cp := rfl
@[simp] theorem State.wakeParks_mm (s : State) : (s.wakeParks).mm = s.mm := rfl
@[simp] theorem State.wakeParks_eng (s : State) : (s.wakeParks).eng = s.eng := rfl
@[simp] theorem State.wakeParks_fab (s : State) : (s.wakeParks).fab = s.fab := rfl
@[simp] theorem State.wakeParks_regs (s : State) : (s.wakeParks).regs = s.regs := rfl
@[simp] theorem State.wakeParks_hub (s : State) : (s.wakeParks).hub = s.hub := rfl
@[simp] theorem State.wakeParks_sched (s : State) : (s.wakeParks).sched = s.sched := rfl

@[simp] theorem State.stall_mem (s : State) (c : Inst) : (s.stall c).mem = s.mem := rfl
@[simp] theorem State.stall_poison (s : State) (c : Inst) : (s.stall c).poison = s.poison := rfl
@[simp] theorem State.stall_badBytes (s : State) (c : Inst) : (s.stall c).badBytes = s.badBytes := rfl
@[simp] theorem State.stall_grids (s : State) (c : Inst) : (s.stall c).grids = s.grids := rfl
@[simp] theorem State.stall_cp (s : State) (c : Inst) : (s.stall c).cp = s.cp := rfl
@[simp] theorem State.stall_mm (s : State) (c : Inst) : (s.stall c).mm = s.mm := rfl
@[simp] theorem State.stall_eng (s : State) (c : Inst) : (s.stall c).eng = s.eng := rfl
@[simp] theorem State.stall_fab (s : State) (c : Inst) : (s.stall c).fab = s.fab := rfl
@[simp] theorem State.stall_regs (s : State) (c : Inst) : (s.stall c).regs = s.regs := rfl
@[simp] theorem State.stall_hub (s : State) (c : Inst) : (s.stall c).hub = s.hub := rfl
@[simp] theorem State.stall_sched (s : State) (c : Inst) : (s.stall c).sched = s.sched := rfl

@[simp] theorem State.dropGathered_mem (s : State) (c : Inst) : (s.dropGathered c).mem = s.mem := rfl
@[simp] theorem State.dropGathered_poison (s : State) (c : Inst) : (s.dropGathered c).poison = s.poison := rfl
@[simp] theorem State.dropGathered_badBytes (s : State) (c : Inst) : (s.dropGathered c).badBytes = s.badBytes := rfl
@[simp] theorem State.dropGathered_grids (s : State) (c : Inst) : (s.dropGathered c).grids = s.grids := rfl
@[simp] theorem State.dropGathered_cp (s : State) (c : Inst) : (s.dropGathered c).cp = s.cp := rfl
@[simp] theorem State.dropGathered_mm (s : State) (c : Inst) : (s.dropGathered c).mm = s.mm := rfl
@[simp] theorem State.dropGathered_eng (s : State) (c : Inst) : (s.dropGathered c).eng = s.eng := rfl
@[simp] theorem State.dropGathered_fab (s : State) (c : Inst) : (s.dropGathered c).fab = s.fab := rfl
@[simp] theorem State.dropGathered_regs (s : State) (c : Inst) : (s.dropGathered c).regs = s.regs := rfl
@[simp] theorem State.dropGathered_hub (s : State) (c : Inst) : (s.dropGathered c).hub = s.hub := rfl
@[simp] theorem State.dropGathered_sched (s : State) (c : Inst) : (s.dropGathered c).sched = s.sched := rfl

@[simp] theorem State.commitLanes_mem (s : State) (c : Inst) (act stay : LaneMask) (n : Nat) (res : Nat → LaneOut) : (s.commitLanes c act stay n res).mem = s.mem := rfl
@[simp] theorem State.commitLanes_poison (s : State) (c : Inst) (act stay : LaneMask) (n : Nat) (res : Nat → LaneOut) : (s.commitLanes c act stay n res).poison = s.poison := rfl
@[simp] theorem State.commitLanes_badBytes (s : State) (c : Inst) (act stay : LaneMask) (n : Nat) (res : Nat → LaneOut) : (s.commitLanes c act stay n res).badBytes = s.badBytes := rfl
@[simp] theorem State.commitLanes_grids (s : State) (c : Inst) (act stay : LaneMask) (n : Nat) (res : Nat → LaneOut) : (s.commitLanes c act stay n res).grids = s.grids := rfl
@[simp] theorem State.commitLanes_cp (s : State) (c : Inst) (act stay : LaneMask) (n : Nat) (res : Nat → LaneOut) : (s.commitLanes c act stay n res).cp = s.cp := rfl
@[simp] theorem State.commitLanes_mm (s : State) (c : Inst) (act stay : LaneMask) (n : Nat) (res : Nat → LaneOut) : (s.commitLanes c act stay n res).mm = s.mm := rfl
@[simp] theorem State.commitLanes_eng (s : State) (c : Inst) (act stay : LaneMask) (n : Nat) (res : Nat → LaneOut) : (s.commitLanes c act stay n res).eng = s.eng := rfl
@[simp] theorem State.commitLanes_fab (s : State) (c : Inst) (act stay : LaneMask) (n : Nat) (res : Nat → LaneOut) : (s.commitLanes c act stay n res).fab = s.fab := rfl
@[simp] theorem State.commitLanes_regs (s : State) (c : Inst) (act stay : LaneMask) (n : Nat) (res : Nat → LaneOut) : (s.commitLanes c act stay n res).regs = s.regs := rfl
@[simp] theorem State.commitLanes_hub (s : State) (c : Inst) (act stay : LaneMask) (n : Nat) (res : Nat → LaneOut) : (s.commitLanes c act stay n res).hub = s.hub := rfl
@[simp] theorem State.commitLanes_sched (s : State) (c : Inst) (act stay : LaneMask) (n : Nat) (res : Nat → LaneOut) : (s.commitLanes c act stay n res).sched = s.sched := rfl

@[simp] theorem State.park_mem (s : State) (t g : Nat) (m : LaneMask) (p : Park) : (s.park t g m p).mem = s.mem := rfl
@[simp] theorem State.park_poison (s : State) (t g : Nat) (m : LaneMask) (p : Park) : (s.park t g m p).poison = s.poison := rfl
@[simp] theorem State.park_badBytes (s : State) (t g : Nat) (m : LaneMask) (p : Park) : (s.park t g m p).badBytes = s.badBytes := rfl
@[simp] theorem State.park_grids (s : State) (t g : Nat) (m : LaneMask) (p : Park) : (s.park t g m p).grids = s.grids := rfl
@[simp] theorem State.park_cp (s : State) (t g : Nat) (m : LaneMask) (p : Park) : (s.park t g m p).cp = s.cp := rfl
@[simp] theorem State.park_mm (s : State) (t g : Nat) (m : LaneMask) (p : Park) : (s.park t g m p).mm = { s.mm with parkId := s.mm.parkId + 1 } := rfl
@[simp] theorem State.park_eng (s : State) (t g : Nat) (m : LaneMask) (p : Park) : (s.park t g m p).eng = s.eng := rfl
@[simp] theorem State.park_fab (s : State) (t g : Nat) (m : LaneMask) (p : Park) : (s.park t g m p).fab = s.fab := rfl
@[simp] theorem State.park_regs (s : State) (t g : Nat) (m : LaneMask) (p : Park) : (s.park t g m p).regs = s.regs := rfl
@[simp] theorem State.park_hub (s : State) (t g : Nat) (m : LaneMask) (p : Park) : (s.park t g m p).hub = s.hub := rfl
@[simp] theorem State.park_sched (s : State) (t g : Nat) (m : LaneMask) (p : Park) : (s.park t g m p).sched = s.sched := rfl

@[simp] theorem Group.mapLanes_lanes (G : Group) (f : Nat → Lane → Lane) : (G.mapLanes f).lanes = mapIdx f G.lanes := rfl
@[simp] theorem Group.mapLanes_s (G : Group) (f : Nat → Lane → Lane) : (G.mapLanes f).s = G.s := rfl
@[simp] theorem Group.mapLanes_j (G : Group) (f : Nat → Lane → Lane) : (G.mapLanes f).j = G.j := rfl
@[simp] theorem Group.mapLanes_jh (G : Group) (f : Nat → Lane → Lane) : (G.mapLanes f).jh = G.jh := rfl
@[simp] theorem Group.mapLanes_flags (G : Group) (f : Nat → Lane → Lane) : (G.mapLanes f).flags = G.flags := rfl
@[simp] theorem Group.mapLanes_trapCause (G : Group) (f : Nat → Lane → Lane) : (G.mapLanes f).trapCause = G.trapCause := rfl
@[simp] theorem Group.mapLanes_trapD0 (G : Group) (f : Nat → Lane → Lane) : (G.mapLanes f).trapD0 = G.trapD0 := rfl
@[simp] theorem Group.mapLanes_trapD1 (G : Group) (f : Nat → Lane → Lane) : (G.mapLanes f).trapD1 = G.trapD1 := rfl
@[simp] theorem Group.mapLanes_trapD2 (G : Group) (f : Nat → Lane → Lane) : (G.mapLanes f).trapD2 = G.trapD2 := rfl
@[simp] theorem Group.mapLanes_trapPc (G : Group) (f : Nat → Lane → Lane) : (G.mapLanes f).trapPc = G.trapPc := rfl
@[simp] theorem Group.mapLanes_trapMask (G : Group) (f : Nat → Lane → Lane) : (G.mapLanes f).trapMask = G.trapMask := rfl
@[simp] theorem Group.mapLanes_nextPc (G : Group) (f : Nat → Lane → Lane) : (G.mapLanes f).nextPc = G.nextPc := rfl
@[simp] theorem Group.mapLanes_hmask (G : Group) (f : Nat → Lane → Lane) : (G.mapLanes f).hmask = G.hmask := rfl
@[simp] theorem Group.mapLanes_parkMask (G : Group) (f : Nat → Lane → Lane) : (G.mapLanes f).parkMask = G.parkMask := rfl
@[simp] theorem Group.mapLanes_waitMask (G : Group) (f : Nat → Lane → Lane) : (G.mapLanes f).waitMask = G.waitMask := rfl
@[simp] theorem Group.mapLanes_trapCtl (G : Group) (f : Nat → Lane → Lane) : (G.mapLanes f).trapCtl = G.trapCtl := rfl
@[simp] theorem Group.mapLanes_context (G : Group) (f : Nat → Lane → Lane) : (G.mapLanes f).context = G.context := rfl
@[simp] theorem Group.mapLanes_savedFlags (G : Group) (f : Nat → Lane → Lane) : (G.mapLanes f).savedFlags = G.savedFlags := rfl
@[simp] theorem Group.mapLanes_pend20 (G : Group) (f : Nat → Lane → Lane) : (G.mapLanes f).pend20 = G.pend20 := rfl
@[simp] theorem Group.mapLanes_pend22 (G : Group) (f : Nat → Lane → Lane) : (G.mapLanes f).pend22 = G.pend22 := rfl
@[simp] theorem Group.mapLanes_tokens (G : Group) (f : Nat → Lane → Lane) : (G.mapLanes f).tokens = G.tokens := rfl
@[simp] theorem Group.mapLanes_parks (G : Group) (f : Nat → Lane → Lane) : (G.mapLanes f).parks = G.parks := rfl
@[simp] theorem Group.mapLanes_sel (G : Group) (f : Nat → Lane → Lane) : (G.mapLanes f).sel = G.sel := rfl
@[simp] theorem Group.mapLanes_resident (G : Group) (f : Nat → Lane → Lane) : (G.mapLanes f).resident = G.resident := rfl
@[simp] theorem Group.mapLanes_ended (G : Group) (f : Nat → Lane → Lane) : (G.mapLanes f).ended = G.ended := rfl
@[simp] theorem Group.mapLanes_pixel (G : Group) (f : Nat → Lane → Lane) : (G.mapLanes f).pixel = G.pixel := rfl
@[simp] theorem Group.mapLanes_vgradDone (G : Group) (f : Nat → Lane → Lane) : (G.mapLanes f).vgradDone = G.vgradDone := rfl

@[simp] theorem Group.orFlags_lanes (G : Group) (f : FlagBits) : (G.orFlags f).lanes = G.lanes := rfl
@[simp] theorem Group.orFlags_s (G : Group) (f : FlagBits) : (G.orFlags f).s = G.s := rfl
@[simp] theorem Group.orFlags_j (G : Group) (f : FlagBits) : (G.orFlags f).j = G.j := rfl
@[simp] theorem Group.orFlags_jh (G : Group) (f : FlagBits) : (G.orFlags f).jh = G.jh := rfl
@[simp] theorem Group.orFlags_flags (G : Group) (f : FlagBits) : (G.orFlags f).flags = G.flags ||| f.zeroExtend 32 := rfl
@[simp] theorem Group.orFlags_trapCause (G : Group) (f : FlagBits) : (G.orFlags f).trapCause = G.trapCause := rfl
@[simp] theorem Group.orFlags_trapD0 (G : Group) (f : FlagBits) : (G.orFlags f).trapD0 = G.trapD0 := rfl
@[simp] theorem Group.orFlags_trapD1 (G : Group) (f : FlagBits) : (G.orFlags f).trapD1 = G.trapD1 := rfl
@[simp] theorem Group.orFlags_trapD2 (G : Group) (f : FlagBits) : (G.orFlags f).trapD2 = G.trapD2 := rfl
@[simp] theorem Group.orFlags_trapPc (G : Group) (f : FlagBits) : (G.orFlags f).trapPc = G.trapPc := rfl
@[simp] theorem Group.orFlags_trapMask (G : Group) (f : FlagBits) : (G.orFlags f).trapMask = G.trapMask := rfl
@[simp] theorem Group.orFlags_nextPc (G : Group) (f : FlagBits) : (G.orFlags f).nextPc = G.nextPc := rfl
@[simp] theorem Group.orFlags_hmask (G : Group) (f : FlagBits) : (G.orFlags f).hmask = G.hmask := rfl
@[simp] theorem Group.orFlags_parkMask (G : Group) (f : FlagBits) : (G.orFlags f).parkMask = G.parkMask := rfl
@[simp] theorem Group.orFlags_waitMask (G : Group) (f : FlagBits) : (G.orFlags f).waitMask = G.waitMask := rfl
@[simp] theorem Group.orFlags_trapCtl (G : Group) (f : FlagBits) : (G.orFlags f).trapCtl = G.trapCtl := rfl
@[simp] theorem Group.orFlags_context (G : Group) (f : FlagBits) : (G.orFlags f).context = G.context := rfl
@[simp] theorem Group.orFlags_savedFlags (G : Group) (f : FlagBits) : (G.orFlags f).savedFlags = G.savedFlags := rfl
@[simp] theorem Group.orFlags_pend20 (G : Group) (f : FlagBits) : (G.orFlags f).pend20 = G.pend20 := rfl
@[simp] theorem Group.orFlags_pend22 (G : Group) (f : FlagBits) : (G.orFlags f).pend22 = G.pend22 := rfl
@[simp] theorem Group.orFlags_tokens (G : Group) (f : FlagBits) : (G.orFlags f).tokens = G.tokens := rfl
@[simp] theorem Group.orFlags_parks (G : Group) (f : FlagBits) : (G.orFlags f).parks = G.parks := rfl
@[simp] theorem Group.orFlags_sel (G : Group) (f : FlagBits) : (G.orFlags f).sel = G.sel := rfl
@[simp] theorem Group.orFlags_resident (G : Group) (f : FlagBits) : (G.orFlags f).resident = G.resident := rfl
@[simp] theorem Group.orFlags_ended (G : Group) (f : FlagBits) : (G.orFlags f).ended = G.ended := rfl
@[simp] theorem Group.orFlags_pixel (G : Group) (f : FlagBits) : (G.orFlags f).pixel = G.pixel := rfl
@[simp] theorem Group.orFlags_vgradDone (G : Group) (f : FlagBits) : (G.orFlags f).vgradDone = G.vgradDone := rfl

@[simp] theorem Group.setS_lanes (G : Group) (n : Nat) (v : W64) : (G.setS n v).lanes = G.lanes := rfl
@[simp] theorem Group.setS_s (G : Group) (n : Nat) (v : W64) : (G.setS n v).s = modNth G.s n fun _ => v := rfl
@[simp] theorem Group.setS_j (G : Group) (n : Nat) (v : W64) : (G.setS n v).j = G.j := rfl
@[simp] theorem Group.setS_jh (G : Group) (n : Nat) (v : W64) : (G.setS n v).jh = G.jh := rfl
@[simp] theorem Group.setS_flags (G : Group) (n : Nat) (v : W64) : (G.setS n v).flags = G.flags := rfl
@[simp] theorem Group.setS_trapCause (G : Group) (n : Nat) (v : W64) : (G.setS n v).trapCause = G.trapCause := rfl
@[simp] theorem Group.setS_trapD0 (G : Group) (n : Nat) (v : W64) : (G.setS n v).trapD0 = G.trapD0 := rfl
@[simp] theorem Group.setS_trapD1 (G : Group) (n : Nat) (v : W64) : (G.setS n v).trapD1 = G.trapD1 := rfl
@[simp] theorem Group.setS_trapD2 (G : Group) (n : Nat) (v : W64) : (G.setS n v).trapD2 = G.trapD2 := rfl
@[simp] theorem Group.setS_trapPc (G : Group) (n : Nat) (v : W64) : (G.setS n v).trapPc = G.trapPc := rfl
@[simp] theorem Group.setS_trapMask (G : Group) (n : Nat) (v : W64) : (G.setS n v).trapMask = G.trapMask := rfl
@[simp] theorem Group.setS_nextPc (G : Group) (n : Nat) (v : W64) : (G.setS n v).nextPc = G.nextPc := rfl
@[simp] theorem Group.setS_hmask (G : Group) (n : Nat) (v : W64) : (G.setS n v).hmask = G.hmask := rfl
@[simp] theorem Group.setS_parkMask (G : Group) (n : Nat) (v : W64) : (G.setS n v).parkMask = G.parkMask := rfl
@[simp] theorem Group.setS_waitMask (G : Group) (n : Nat) (v : W64) : (G.setS n v).waitMask = G.waitMask := rfl
@[simp] theorem Group.setS_trapCtl (G : Group) (n : Nat) (v : W64) : (G.setS n v).trapCtl = G.trapCtl := rfl
@[simp] theorem Group.setS_context (G : Group) (n : Nat) (v : W64) : (G.setS n v).context = G.context := rfl
@[simp] theorem Group.setS_savedFlags (G : Group) (n : Nat) (v : W64) : (G.setS n v).savedFlags = G.savedFlags := rfl
@[simp] theorem Group.setS_pend20 (G : Group) (n : Nat) (v : W64) : (G.setS n v).pend20 = G.pend20 := rfl
@[simp] theorem Group.setS_pend22 (G : Group) (n : Nat) (v : W64) : (G.setS n v).pend22 = G.pend22 := rfl
@[simp] theorem Group.setS_tokens (G : Group) (n : Nat) (v : W64) : (G.setS n v).tokens = G.tokens := rfl
@[simp] theorem Group.setS_parks (G : Group) (n : Nat) (v : W64) : (G.setS n v).parks = G.parks := rfl
@[simp] theorem Group.setS_sel (G : Group) (n : Nat) (v : W64) : (G.setS n v).sel = G.sel := rfl
@[simp] theorem Group.setS_resident (G : Group) (n : Nat) (v : W64) : (G.setS n v).resident = G.resident := rfl
@[simp] theorem Group.setS_ended (G : Group) (n : Nat) (v : W64) : (G.setS n v).ended = G.ended := rfl
@[simp] theorem Group.setS_pixel (G : Group) (n : Nat) (v : W64) : (G.setS n v).pixel = G.pixel := rfl
@[simp] theorem Group.setS_vgradDone (G : Group) (n : Nat) (v : W64) : (G.setS n v).vgradDone = G.vgradDone := rfl

@[simp] theorem Group.leaveHandler_s (G : Group) : (G.leaveHandler).s = G.s := rfl
@[simp] theorem Group.leaveHandler_j (G : Group) : (G.leaveHandler).j = G.j := rfl
@[simp] theorem Group.leaveHandler_jh (G : Group) : (G.leaveHandler).jh = G.jh := rfl
@[simp] theorem Group.leaveHandler_flags (G : Group) : (G.leaveHandler).flags = BitVec.ofNat 32 (setBits G.flags.toNat 0 5 G.savedFlags.toNat) := rfl
@[simp] theorem Group.leaveHandler_trapCause (G : Group) : (G.leaveHandler).trapCause = BitVec.ofNat 32 (setBits G.trapCause.toNat 31 1 0) := rfl
@[simp] theorem Group.leaveHandler_trapD0 (G : Group) : (G.leaveHandler).trapD0 = G.trapD0 := rfl
@[simp] theorem Group.leaveHandler_trapD1 (G : Group) : (G.leaveHandler).trapD1 = G.trapD1 := rfl
@[simp] theorem Group.leaveHandler_trapD2 (G : Group) : (G.leaveHandler).trapD2 = G.trapD2 := rfl
@[simp] theorem Group.leaveHandler_trapPc (G : Group) : (G.leaveHandler).trapPc = G.trapPc := rfl
@[simp] theorem Group.leaveHandler_trapMask (G : Group) : (G.leaveHandler).trapMask = G.trapMask := rfl
@[simp] theorem Group.leaveHandler_nextPc (G : Group) : (G.leaveHandler).nextPc = G.nextPc := rfl
@[simp] theorem Group.leaveHandler_hmask (G : Group) : (G.leaveHandler).hmask = G.hmask := rfl
@[simp] theorem Group.leaveHandler_parkMask (G : Group) : (G.leaveHandler).parkMask = G.parkMask := rfl
@[simp] theorem Group.leaveHandler_waitMask (G : Group) : (G.leaveHandler).waitMask = G.waitMask := rfl
@[simp] theorem Group.leaveHandler_trapCtl (G : Group) : (G.leaveHandler).trapCtl = G.trapCtl := rfl
@[simp] theorem Group.leaveHandler_context (G : Group) : (G.leaveHandler).context = G.context := rfl
@[simp] theorem Group.leaveHandler_savedFlags (G : Group) : (G.leaveHandler).savedFlags = G.savedFlags := rfl
@[simp] theorem Group.leaveHandler_pend20 (G : Group) : (G.leaveHandler).pend20 = G.pend20 := rfl
@[simp] theorem Group.leaveHandler_pend22 (G : Group) : (G.leaveHandler).pend22 = G.pend22 := rfl
@[simp] theorem Group.leaveHandler_tokens (G : Group) : (G.leaveHandler).tokens = G.tokens := rfl
@[simp] theorem Group.leaveHandler_parks (G : Group) : (G.leaveHandler).parks = G.parks := rfl
@[simp] theorem Group.leaveHandler_sel (G : Group) : (G.leaveHandler).sel = [] := rfl
@[simp] theorem Group.leaveHandler_resident (G : Group) : (G.leaveHandler).resident = G.resident := rfl
@[simp] theorem Group.leaveHandler_ended (G : Group) : (G.leaveHandler).ended = G.ended := rfl
@[simp] theorem Group.leaveHandler_pixel (G : Group) : (G.leaveHandler).pixel = G.pixel := rfl
@[simp] theorem Group.leaveHandler_vgradDone (G : Group) : (G.leaveHandler).vgradDone = G.vgradDone := rfl

@[simp] theorem Lane.push_pc (L : Lane) (v : W64) : (L.push v).pc = L.pc := rfl
@[simp] theorem Lane.push_q (L : Lane) (v : W64) : (L.push v).q = v :: L.q.take 15 := rfl
@[simp] theorem Lane.push_k (L : Lane) (v : W64) : (L.push v).k = L.k := rfl
@[simp] theorem Lane.push_p (L : Lane) (v : W64) : (L.push v).p = L.p := rfl
@[simp] theorem Lane.push_status (L : Lane) (v : W64) : (L.push v).status = L.status := rfl
@[simp] theorem Lane.push_helper (L : Lane) (v : W64) : (L.push v).helper = L.helper := rfl
@[simp] theorem Lane.push_age (L : Lane) (v : W64) : (L.push v).age = L.age := rfl
@[simp] theorem Lane.push_resume (L : Lane) (v : W64) : (L.push v).resume = L.resume := rfl
@[simp] theorem Lane.push_epc (L : Lane) (v : W64) : (L.push v).epc = L.epc := rfl
@[simp] theorem Lane.push_savedQ (L : Lane) (v : W64) : (L.push v).savedQ = L.savedQ := rfl
@[simp] theorem Lane.push_lastPage (L : Lane) (v : W64) : (L.push v).lastPage = L.lastPage := rfl
@[simp] theorem Lane.push_bad (L : Lane) (v : W64) : (L.push v).bad = L.bad := rfl
@[simp] theorem Lane.push_stall (L : Lane) (v : W64) : (L.push v).stall = L.stall := rfl
@[simp] theorem Lane.push_waitFor (L : Lane) (v : W64) : (L.push v).waitFor = L.waitFor := rfl
@[simp] theorem Lane.push_tries (L : Lane) (v : W64) : (L.push v).tries = L.tries := rfl
@[simp] theorem Lane.push_savedBad (L : Lane) (v : W64) : (L.push v).savedBad = L.savedBad := rfl
@[simp] theorem Lane.push_segFail (L : Lane) (v : W64) : (L.push v).segFail = L.segFail := rfl
@[simp] theorem Lane.push_sickK (L : Lane) (v : W64) : (L.push v).sickK = L.sickK := rfl
@[simp] theorem Lane.push_sickQ (L : Lane) (v : W64) : (L.push v).sickQ = L.sickQ <<< 1 := rfl
@[simp] theorem Lane.push_savedSick (L : Lane) (v : W64) : (L.push v).savedSick = L.savedSick := rfl
@[simp] theorem Lane.push_pixX (L : Lane) (v : W64) : (L.push v).pixX = L.pixX := rfl
@[simp] theorem Lane.push_pixY (L : Lane) (v : W64) : (L.push v).pixY = L.pixY := rfl

@[simp] theorem Lane.setReg_pc (L : Lane) (n : Nat) (v : W32) : (L.setReg n v).pc = L.pc := rfl
@[simp] theorem Lane.setReg_q (L : Lane) (n : Nat) (v : W32) : (L.setReg n v).q = L.q := rfl
@[simp] theorem Lane.setReg_k (L : Lane) (n : Nat) (v : W32) : (L.setReg n v).k = modNth L.k n fun _ => v := rfl
@[simp] theorem Lane.setReg_p (L : Lane) (n : Nat) (v : W32) : (L.setReg n v).p = L.p := rfl
@[simp] theorem Lane.setReg_status (L : Lane) (n : Nat) (v : W32) : (L.setReg n v).status = L.status := rfl
@[simp] theorem Lane.setReg_helper (L : Lane) (n : Nat) (v : W32) : (L.setReg n v).helper = L.helper := rfl
@[simp] theorem Lane.setReg_age (L : Lane) (n : Nat) (v : W32) : (L.setReg n v).age = L.age := rfl
@[simp] theorem Lane.setReg_resume (L : Lane) (n : Nat) (v : W32) : (L.setReg n v).resume = L.resume := rfl
@[simp] theorem Lane.setReg_epc (L : Lane) (n : Nat) (v : W32) : (L.setReg n v).epc = L.epc := rfl
@[simp] theorem Lane.setReg_savedQ (L : Lane) (n : Nat) (v : W32) : (L.setReg n v).savedQ = L.savedQ := rfl
@[simp] theorem Lane.setReg_lastPage (L : Lane) (n : Nat) (v : W32) : (L.setReg n v).lastPage = L.lastPage := rfl
@[simp] theorem Lane.setReg_bad (L : Lane) (n : Nat) (v : W32) : (L.setReg n v).bad = L.bad := rfl
@[simp] theorem Lane.setReg_stall (L : Lane) (n : Nat) (v : W32) : (L.setReg n v).stall = L.stall := rfl
@[simp] theorem Lane.setReg_waitFor (L : Lane) (n : Nat) (v : W32) : (L.setReg n v).waitFor = L.waitFor := rfl
@[simp] theorem Lane.setReg_tries (L : Lane) (n : Nat) (v : W32) : (L.setReg n v).tries = L.tries := rfl
@[simp] theorem Lane.setReg_savedBad (L : Lane) (n : Nat) (v : W32) : (L.setReg n v).savedBad = L.savedBad := rfl
@[simp] theorem Lane.setReg_segFail (L : Lane) (n : Nat) (v : W32) : (L.setReg n v).segFail = L.segFail := rfl
@[simp] theorem Lane.setReg_sickK (L : Lane) (n : Nat) (v : W32) : (L.setReg n v).sickK = L.sickK &&& ~~~(1#32 <<< n) := rfl
@[simp] theorem Lane.setReg_sickQ (L : Lane) (n : Nat) (v : W32) : (L.setReg n v).sickQ = L.sickQ := rfl
@[simp] theorem Lane.setReg_savedSick (L : Lane) (n : Nat) (v : W32) : (L.setReg n v).savedSick = L.savedSick := rfl
@[simp] theorem Lane.setReg_pixX (L : Lane) (n : Nat) (v : W32) : (L.setReg n v).pixX = L.pixX := rfl
@[simp] theorem Lane.setReg_pixY (L : Lane) (n : Nat) (v : W32) : (L.setReg n v).pixY = L.pixY := rfl

@[simp] theorem Lane.goOn_pc (L : Lane) : (L.goOn).pc = L.resume := rfl
@[simp] theorem Lane.goOn_q (L : Lane) : (L.goOn).q = L.q := rfl
@[simp] theorem Lane.goOn_k (L : Lane) : (L.goOn).k = L.k := rfl
@[simp] theorem Lane.goOn_p (L : Lane) : (L.goOn).p = L.p := rfl
@[simp] theorem Lane.goOn_status (L : Lane) : (L.goOn).status = .run := rfl
@[simp] theorem Lane.goOn_helper (L : Lane) : (L.goOn).helper = L.helper := rfl
@[simp] theorem Lane.goOn_age (L : Lane) : (L.goOn).age = L.age := rfl
@[simp] theorem Lane.goOn_resume (L : Lane) : (L.goOn).resume = L.resume := rfl
@[simp] theorem Lane.goOn_epc (L : Lane) : (L.goOn).epc = L.epc := rfl
@[simp] theorem Lane.goOn_savedQ (L : Lane) : (L.goOn).savedQ = L.savedQ := rfl
@[simp] theorem Lane.goOn_lastPage (L : Lane) : (L.goOn).lastPage = L.lastPage := rfl
@[simp] theorem Lane.goOn_bad (L : Lane) : (L.goOn).bad = L.bad := rfl
@[simp] theorem Lane.goOn_stall (L : Lane) : (L.goOn).stall = L.stall := rfl
@[simp] theorem Lane.goOn_waitFor (L : Lane) : (L.goOn).waitFor = L.waitFor := rfl
@[simp] theorem Lane.goOn_tries (L : Lane) : (L.goOn).tries = L.tries := rfl
@[simp] theorem Lane.goOn_savedBad (L : Lane) : (L.goOn).savedBad = L.savedBad := rfl
@[simp] theorem Lane.goOn_segFail (L : Lane) : (L.goOn).segFail = L.segFail := rfl
@[simp] theorem Lane.goOn_sickK (L : Lane) : (L.goOn).sickK = L.sickK := rfl
@[simp] theorem Lane.goOn_sickQ (L : Lane) : (L.goOn).sickQ = L.sickQ := rfl
@[simp] theorem Lane.goOn_savedSick (L : Lane) : (L.goOn).savedSick = L.savedSick := rfl
@[simp] theorem Lane.goOn_pixX (L : Lane) : (L.goOn).pixX = L.pixX := rfl
@[simp] theorem Lane.goOn_pixY (L : Lane) : (L.goOn).pixY = L.pixY := rfl

@[simp] theorem Team.discard_grid (T : Team) : (T.discard).grid = T.grid := rfl
@[simp] theorem Team.discard_idx (T : Team) : (T.discard).idx = T.idx := rfl
@[simp] theorem Team.discard_core (T : Team) : (T.discard).core = T.core := rfl
@[simp] theorem Team.discard_epoch (T : Team) : (T.discard).epoch = T.epoch := rfl
@[simp] theorem Team.discard_status (T : Team) : (T.discard).status = .discarded := rfl
@[simp] theorem Team.discard_banks (T : Team) : (T.discard).banks = T.banks := rfl
@[simp] theorem Team.discard_absent (T : Team) : (T.discard).absent = T.absent := rfl
@[simp] theorem Team.discard_tapeDesc (T : Team) : (T.discard).tapeDesc = T.tapeDesc := rfl
@[simp] theorem Team.discard_tapeFail (T : Team) : (T.discard).tapeFail = T.tapeFail := rfl

@[simp] theorem Team.releaseBar_grid (T : Team) (c : Bool) (n : Nat) : (T.releaseBar c n).grid = T.grid := rfl
@[simp] theorem Team.releaseBar_idx (T : Team) (c : Bool) (n : Nat) : (T.releaseBar c n).idx = T.idx := rfl
@[simp] theorem Team.releaseBar_core (T : Team) (c : Bool) (n : Nat) : (T.releaseBar c n).core = T.core := rfl
@[simp] theorem Team.releaseBar_epoch (T : Team) (c : Bool) (n : Nat) : (T.releaseBar c n).epoch = T.epoch := rfl
@[simp] theorem Team.releaseBar_status (T : Team) (c : Bool) (n : Nat) : (T.releaseBar c n).status = T.status := rfl
@[simp] theorem Team.releaseBar_banks (T : Team) (c : Bool) (n : Nat) : (T.releaseBar c n).banks = T.banks := rfl
@[simp] theorem Team.releaseBar_absent (T : Team) (c : Bool) (n : Nat) : (T.releaseBar c n).absent = T.absent := rfl
@[simp] theorem Team.releaseBar_tiles (T : Team) (c : Bool) (n : Nat) : (T.releaseBar c n).tiles = T.tiles := rfl
@[simp] theorem Team.releaseBar_tapeDesc (T : Team) (c : Bool) (n : Nat) : (T.releaseBar c n).tapeDesc = T.tapeDesc := rfl
@[simp] theorem Team.releaseBar_tapeFail (T : Team) (c : Bool) (n : Nat) : (T.releaseBar c n).tapeFail = T.tapeFail := rfl

end Sys2Proof.Machine
end

