-- ==== Sys2Proof/Laws/Memory.lean ====
section
/-! SUPPORT. Memory: a read after a write, and the canonical form that every write keeps. -/

namespace Sys2Proof.Machine

-- one theorem at a time
set_option Elab.async false

/-! ## A read after a write -/

theorem memRead_above (lo : Option Nat) (m : List Host.Cell) (a : Nat) (h : memAbove lo m = true)
    (ha : ∀ b, lo = some b → a ≤ b) (hl : lo ≠ none) : memRead m a = 0 := by
  induction m generalizing lo with
  | nil => rfl
  | cons c m ih =>
    obtain ⟨k, v⟩ := c
    cases lo with
    | none => exact absurd rfl hl
    | some b =>
      simp only [memAbove, Bool.and_eq_true, decide_eq_true_eq] at h
      have hab := ha b rfl
      have hk : k ≠ a := by omega
      simp only [memRead, if_neg hk]
      exact ih (some k) h.2 (by intro b' hb'; cases hb'; omega) (by simp)

theorem memAbove_none (lo : Option Nat) (m : List Host.Cell) (h : memAbove lo m = true) : memAbove none m = true := by
  cases m with
  | nil => rfl
  | cons c m =>
    obtain ⟨k, v⟩ := c
    simp only [memAbove, Bool.and_eq_true] at h ⊢
    exact ⟨⟨trivial, h.1.2⟩, h.2⟩

/-- The byte written reads back. -/
theorem memRead_memWrite_same (m : List Host.Cell) (a : Nat) (v : Byte) (h : Memory.wf m = true) :
    memRead (memWrite m a v) a = v := by
  unfold Memory.wf at h
  induction m with
  | nil =>
    simp only [memWrite]
    by_cases hv : v = 0
    · rw [if_pos hv, hv]
      rfl
    · rw [if_neg hv]
      simp [memRead]
  | cons c m ih =>
    obtain ⟨k, x⟩ := c
    have h0 := h
    simp only [memAbove, Bool.and_eq_true] at h
    have hz : memRead m k = 0 := memRead_above (some k) m k h.2 (by intro b hb; cases hb; omega) (by simp)
    simp only [memWrite]
    split
    · rename_i hak
      by_cases hv : v = 0
      · have hk : k ≠ a := by omega
        rw [if_pos hv, hv]
        simp only [memRead, if_neg hk]
        exact memRead_above (some k) m a h.2 (by intro b hb; cases hb; omega) (by simp)
      · rw [if_neg hv]
        simp [memRead]
    · split
      · rename_i hak
        subst hak
        by_cases hv : v = 0
        · rw [if_pos hv, hv, hz]
        · rw [if_neg hv]
          simp [memRead]
      · rename_i hak
        simp only [memRead, if_neg (Ne.symm hak)]
        exact ih (memAbove_none _ _ h.2)

/-- Every other byte reads as before, whatever form the list has. -/
theorem memRead_memWrite_other (m : List Host.Cell) (a b : Nat) (v : Byte) (hb : b ≠ a) :
    memRead (memWrite m a v) b = memRead m b := by
  induction m with
  | nil =>
    simp only [memWrite]
    by_cases hv : v = 0
    · rw [if_pos hv]
    · rw [if_neg hv]
      simp [memRead, Ne.symm hb]
  | cons c m ih =>
    obtain ⟨k, x⟩ := c
    simp only [memWrite]
    split
    · by_cases hv : v = 0
      · rw [if_pos hv]
      · rw [if_neg hv]
        simp [memRead, Ne.symm hb]
    · split
      · rename_i hak
        subst hak
        by_cases hv : v = 0
        · rw [if_pos hv]
          simp [memRead, Ne.symm hb]
        · rw [if_neg hv]
          simp [memRead, Ne.symm hb]
      · simp only [memRead, ih]

/-! ## The canonical form -/

theorem memAbove_memWrite (lo : Option Nat) (m : List Host.Cell) (a : Nat) (v : Byte) (h : memAbove lo m = true)
    (ha : ∀ b, lo = some b → b < a) : memAbove lo (memWrite m a v) = true := by
  induction m generalizing lo with
  | nil =>
    simp only [memWrite]
    by_cases hv : v = 0
    · rw [if_pos hv]
      rfl
    · rw [if_neg hv]
      cases lo with
      | none => simpa [memAbove] using hv
      | some b => simpa [memAbove, ha b rfl] using hv
  | cons c m ih =>
    obtain ⟨k, x⟩ := c
    have h0 := h
    simp only [memAbove, Bool.and_eq_true] at h
    obtain ⟨⟨hlo, hx⟩, hm⟩ := h
    simp only [memWrite]
    split
    · rename_i hak
      by_cases hv : v = 0
      · rw [if_pos hv]
        exact h0
      · rw [if_neg hv]
        have hv' : (v != 0) = true := by simpa using hv
        simp only [memAbove, Bool.and_eq_true, decide_eq_true_eq]
        refine ⟨⟨?_, hv'⟩, ⟨hak, hx⟩, hm⟩
        cases lo with
        | none => rfl
        | some b => simpa using ha b rfl
    · split
      · rename_i hak
        subst hak
        by_cases hv : v = 0
        · rw [if_pos hv]
          cases lo with
          | none => exact memAbove_none _ _ hm
          | some b =>
            cases m with
            | nil => rfl
            | cons c m =>
              obtain ⟨k', x'⟩ := c
              simp only [memAbove, Bool.and_eq_true, decide_eq_true_eq] at hm ⊢
              have := ha b rfl
              exact ⟨⟨by omega, hm.1.2⟩, hm.2⟩
        · rw [if_neg hv]
          simp only [memAbove, Bool.and_eq_true]
          exact ⟨⟨hlo, by simpa using hv⟩, hm⟩
      · simp only [memAbove, Bool.and_eq_true]
        refine ⟨⟨hlo, hx⟩, ih (some k) hm ?_⟩
        intro b hb
        cases hb
        omega

/-- A write of one byte keeps the canonical form. -/
theorem wf_memWrite (m : List Host.Cell) (a : Nat) (v : Byte) (h : Memory.wf m = true) : Memory.wf (memWrite m a v) = true :=
  memAbove_memWrite none m a v h (by intro b hb; cases hb)

/-- A write of bytes in a row keeps the canonical form. -/
theorem wf_memWriteN (m : List Host.Cell) (a : Nat) (bs : List Byte) (h : Memory.wf m = true) :
    Memory.wf (memWriteN m a bs) = true := by
  induction bs generalizing m a with
  | nil => exact h
  | cons b bs ih => exact ih _ _ (wf_memWrite m a b h)

/-- A write of cells keeps the canonical form. -/
theorem wf_memWriteCells (m : List Host.Cell) (cs : List Host.Cell) (h : Memory.wf m = true) :
    Memory.wf (memWriteCells m cs) = true := by
  unfold memWriteCells
  induction cs generalizing m with
  | nil => exact h
  | cons c cs ih => exact ih _ (wf_memWrite m c.1 c.2 h)

theorem memAbove_weaken (lo : Option Nat) (k : Nat) (m : List Host.Cell) (h : memAbove (some k) m = true)
    (hk : ∀ b, lo = some b → b < k) : memAbove lo m = true := by
  cases m with
  | nil => rfl
  | cons c m =>
    obtain ⟨k', x⟩ := c
    cases lo with
    | none => exact memAbove_none _ _ h
    | some b =>
      simp only [memAbove, Bool.and_eq_true, decide_eq_true_eq] at h ⊢
      have := hk b rfl
      exact ⟨⟨by omega, h.1.2⟩, h.2⟩

theorem memAbove_filter (p : Host.Cell → Bool) (lo : Option Nat) (m : List Host.Cell) (h : memAbove lo m = true) :
    memAbove lo (m.filter p) = true := by
  induction m generalizing lo with
  | nil => rfl
  | cons c m ih =>
    obtain ⟨k, x⟩ := c
    have h0 := h
    simp only [memAbove, Bool.and_eq_true] at h
    by_cases hp : p (k, x)
    · rw [List.filter_cons_of_pos hp]
      simp only [memAbove, Bool.and_eq_true]
      exact ⟨h.1, ih _ h.2⟩
    · rw [List.filter_cons_of_neg hp]
      apply ih
      apply memAbove_weaken lo k m h.2
      intro b hb
      subst hb
      simpa using h.1.1

/-- Dropping cells (a bank that changes mode, a device reset) keeps the canonical form. -/
theorem wf_filter (p : Host.Cell → Bool) (m : List Host.Cell) (h : Memory.wf m = true) : Memory.wf (m.filter p) = true :=
  memAbove_filter p none m h

/-! ## The operations of the state -/

theorem State.wr_wf (s : State) (a : Nat) (bs : List Byte) (h : Memory.wf s.mem = true) : Memory.wf (s.wr a bs).mem = true :=
  wf_memWriteN _ _ _ h

theorem State.wrCells_wf (s : State) (cs : List Host.Cell) (h : Memory.wf s.mem = true) :
    Memory.wf (s.wrCells cs).mem = true := wf_memWriteCells _ _ h

theorem State.discardLine_wf (s : State) (l : Nat) (h : Memory.wf s.mem = true) : Memory.wf (s.discardLine l).mem = true :=
  s.wr_wf _ _ h

/-- Memory right after reset is canonical. -/
theorem reset_mem_wf : Memory.wf State.reset.mem = true := rfl

/-- The bytes written read back, and no other byte changes. -/
theorem memRead_memWriteN (m : List Host.Cell) (a : Nat) (bs : List Byte) (b : Nat) (h : Memory.wf m = true) :
    memRead (memWriteN m a bs) b = if a ≤ b ∧ b < a + bs.length then bs.getD (b - a) 0 else memRead m b := by
  induction bs generalizing m a with
  | nil =>
    have : ¬ (a ≤ b ∧ b < a) := by omega
    simp [memWriteN, this]
  | cons x bs ih =>
    simp only [memWriteN]
    rw [ih _ _ (wf_memWrite m a x h)]
    by_cases hba : b = a
    · subst hba
      have h1 : ¬ (b + 1 ≤ b ∧ b < b + 1 + bs.length) := by omega
      rw [if_neg h1]
      simp [memRead_memWrite_same m b x h]
    · rw [memRead_memWrite_other m a b x hba]
      by_cases hlt : a + 1 ≤ b ∧ b < a + 1 + bs.length
      · have h2 : a ≤ b ∧ b < a + (x :: bs).length := by simp; omega
        rw [if_pos hlt, if_pos h2]
        have : b - a = (b - (a + 1)) + 1 := by omega
        rw [this]
        simp [List.getD]
      · have h2 : ¬ (a ≤ b ∧ b < a + (x :: bs).length) := by simp; omega
        rw [if_neg hlt, if_neg h2]

theorem memRead_memWriteCells_other (m : List Host.Cell) (cs : List Host.Cell) (b : Nat) (h : ∀ c ∈ cs, c.1 ≠ b) :
    memRead (memWriteCells m cs) b = memRead m b := by
  unfold memWriteCells
  induction cs generalizing m with
  | nil => rfl
  | cons c cs ih =>
    simp only [List.foldl_cons]
    rw [ih _ fun d hd => h d (List.mem_cons_of_mem _ hd)]
    exact memRead_memWrite_other _ _ _ _ (Ne.symm (h c List.mem_cons_self))

end Sys2Proof.Machine
end

