-- ==== Sys2Proof/Laws/Lists.lean ====
section
/-! SUPPORT. Lists by index, masks of lanes, and the reads of teams, groups and lanes after their updates. -/

namespace Sys2Proof.Machine

-- one theorem at a time
set_option Elab.async false

/-! ## modNth -/

@[simp] theorem modNth_length {α : Type} (xs : List α) (n : Nat) (f : α → α) : (modNth xs n f).length = xs.length := by
  induction xs generalizing n with
  | nil => rfl
  | cons x xs ih => cases n <;> simp [modNth, ih]

theorem modNth_getElem? {α : Type} (xs : List α) (n k : Nat) (f : α → α) :
    (modNth xs n f)[k]? = if k = n then xs[k]?.map f else xs[k]? := by
  induction xs generalizing n k with
  | nil => simp [modNth]
  | cons x xs ih =>
    cases n <;> cases k <;> simp [modNth, ih]

theorem modNth_getD_same {α : Type} (xs : List α) (n : Nat) (f : α → α) (d : α) (h : n < xs.length) :
    (modNth xs n f).getD n d = f (xs.getD n d) := by
  simp [List.getD, modNth_getElem?, List.getElem?_eq_getElem h]

theorem modNth_getD_other {α : Type} (xs : List α) (n k : Nat) (f : α → α) (d : α) (h : k ≠ n) :
    (modNth xs n f).getD k d = xs.getD k d := by
  simp [List.getD, modNth_getElem?, h]

theorem modNth_id {α : Type} (xs : List α) (n : Nat) (f : α → α) (h : ∀ x, f x = x) : modNth xs n f = xs := by
  induction xs generalizing n with
  | nil => rfl
  | cons x xs ih => cases n <;> simp [modNth, ih, h]

theorem modNth_modNth {α : Type} (xs : List α) (n : Nat) (f g : α → α) :
    modNth (modNth xs n f) n g = modNth xs n fun x => g (f x) := by
  induction xs generalizing n with
  | nil => rfl
  | cons x xs ih => cases n <;> simp [modNth, ih]

/-- Only what the function does to the entry that stands there matters. -/
theorem modNth_congr {α : Type} (xs : List α) (n : Nat) (f g : α → α) (h : ∀ x, xs[n]? = some x → f x = g x) :
    modNth xs n f = modNth xs n g := by
  induction xs generalizing n with
  | nil => rfl
  | cons x xs ih =>
    cases n with
    | zero => simp [modNth, h x rfl]
    | succ n => simp [modNth, ih n fun y hy => h y (by simpa using hy)]

/-! ## indexed and mapIdx -/

theorem indexed_getElem? {α : Type} (xs : List α) (k : Nat) : (indexed xs)[k]? = xs[k]?.map fun x => (k, x) := by
  by_cases h : k < xs.length
  · simp [indexed, h]
  · simp [indexed, Nat.le_of_not_lt h]

@[simp] theorem indexed_length {α : Type} (xs : List α) : (indexed xs).length = xs.length := by simp [indexed]

@[simp] theorem mapIdx_length {α β : Type} (f : Nat → α → β) (xs : List α) : (mapIdx f xs).length = xs.length := by
  simp [mapIdx]

theorem mapIdx_getElem? {α β : Type} (f : Nat → α → β) (xs : List α) (k : Nat) :
    (mapIdx f xs)[k]? = xs[k]?.map (f k) := by
  simp [mapIdx, indexed_getElem?, Function.comp_def]

theorem mapIdx_mapIdx {α β γ : Type} (f : Nat → α → β) (g : Nat → β → γ) (xs : List α) :
    mapIdx g (mapIdx f xs) = mapIdx (fun i x => g i (f i x)) xs := by
  apply List.ext_getElem?
  intro k
  simp [mapIdx_getElem?, Function.comp_def]

theorem mapIdx_id {α : Type} (f : Nat → α → α) (xs : List α) (h : ∀ i x, f i x = x) : mapIdx f xs = xs := by
  apply List.ext_getElem?
  intro k
  rw [mapIdx_getElem?]
  cases xs[k]? <;> simp [h]

/-- Only what the functions do to the entries that stand there matters. -/
theorem mapIdx_congr {α β : Type} (f g : Nat → α → β) (xs : List α) (h : ∀ i x, xs[i]? = some x → f i x = g i x) :
    mapIdx f xs = mapIdx g xs := by
  apply List.ext_getElem?
  intro k
  cases hx : xs[k]? with
  | none => simp [mapIdx_getElem?, hx]
  | some x => simp [mapIdx_getElem?, hx, h k x hx]

theorem mapIdx_getD {α β : Type} (f : Nat → α → β) (xs : List α) (k : Nat) (d : α) (e : β) (h : k < xs.length) :
    (mapIdx f xs).getD k e = f k (xs.getD k d) := by
  simp [List.getD, mapIdx_getElem?, List.getElem?_eq_getElem h]

/-! ## Teams, groups and lanes after an update -/

theorem State.team_modTeam_same (s : State) (t : Nat) (f : Team → Team) (h : t < s.teams.length) :
    (s.modTeam t f).team t = f (s.team t) := modNth_getD_same _ _ _ _ h

theorem State.team_modTeam_other (s : State) (t u : Nat) (f : Team → Team) (h : u ≠ t) :
    (s.modTeam t f).team u = s.team u := modNth_getD_other _ _ _ _ _ h

theorem State.grp_modGroup_same (s : State) (t g : Nat) (f : Group → Group) (ht : t < s.teams.length)
    (hg : g < (s.team t).groups.length) : (s.modGroup t g f).grp t g = f (s.grp t g) := by
  simp only [State.grp, State.modGroup]
  rw [State.team_modTeam_same _ _ _ ht]
  exact modNth_getD_same _ _ _ _ hg

theorem State.grp_modGroup_other_group (s : State) (t g h : Nat) (f : Group → Group) (hg : h ≠ g) :
    (s.modGroup t g f).grp t h = s.grp t h := by
  by_cases ht : t < s.teams.length
  · simp only [State.grp, State.modGroup]
    rw [State.team_modTeam_same _ _ _ ht]
    exact modNth_getD_other _ _ _ _ _ hg
  · have : modNth s.teams t (fun T => { T with groups := modNth T.groups g f }) = s.teams := by
      apply List.ext_getElem?
      intro k
      rw [modNth_getElem?]
      split
      · rename_i hk
        subst hk
        simp [List.getElem?_eq_none (Nat.le_of_not_lt ht)]
      · rfl
    simp [State.grp, State.team, State.modGroup, State.modTeam, this]

theorem State.grp_modGroup_other_team (s : State) (t u g h : Nat) (f : Group → Group) (hu : u ≠ t) :
    (s.modGroup t g f).grp u h = s.grp u h := by
  simp only [State.grp, State.modGroup]
  rw [State.team_modTeam_other _ _ _ _ hu]

/-- Two updates of one group in a row are one. -/
theorem State.modGroup_modGroup (s : State) (t g : Nat) (f h : Group → Group) :
    (s.modGroup t g f).modGroup t g h = s.modGroup t g fun G => h (f G) := by
  simp [State.modGroup, State.modTeam, modNth_modNth]

theorem Group.lane_mapLanes (G : Group) (f : Nat → Lane → Lane) (l : Nat) (h : l < G.lanes.length) :
    (G.mapLanes f).lane l = f l (G.lane l) := mapIdx_getD _ _ _ _ _ h

theorem Group.mapLanes_mapLanes (G : Group) (f g : Nat → Lane → Lane) :
    (G.mapLanes f).mapLanes g = G.mapLanes fun l L => g l (f l L) := by
  simp [Group.mapLanes, mapIdx_mapIdx]

/-! ## Masks -/

theorem mem_maskLanes (m : LaneMask) (l : Nat) : l ∈ maskLanes m ↔ m.getLsbD l = true := by
  simp only [maskLanes, List.mem_filter, List.mem_range, and_iff_right_iff_imp]
  intro h
  exact (BitVec.lt_of_getLsbD h)

/-- The sum that `laneMask` folds, by testBit. -/
theorem laneMask_fold (f : Nat → Bool) (n : Nat) :
    (List.range n).foldl (fun a l => if f l then a + 2 ^ l else a) 0 < 2 ^ n ∧
    ∀ k, k < n → ((List.range n).foldl (fun a l => if f l then a + 2 ^ l else a) 0).testBit k = f k := by
  induction n with
  | zero => simp
  | succ n ih =>
    obtain ⟨h1, h2⟩ := ih
    rw [List.range_succ, List.foldl_append]
    generalize hA : (List.range n).foldl (fun a l => if f l then a + 2 ^ l else a) 0 = A at h1 h2
    simp only [List.foldl_cons, List.foldl_nil]
    by_cases hf : f n
    · simp only [hf, if_true]
      refine ⟨by rw [Nat.pow_succ]; omega, ?_⟩
      intro k hk
      rw [Nat.add_comm]
      by_cases hkn : k = n
      · subst hkn
        simp [Nat.testBit_two_pow_add_eq, Nat.testBit_lt_two_pow h1, hf]
      · rw [Nat.testBit_two_pow_add_gt (by omega)]
        exact h2 k (by omega)
    · simp only [hf]
      refine ⟨by simp; rw [Nat.pow_succ]; omega, ?_⟩
      intro k hk
      by_cases hkn : k = n
      · subst hkn
        simpa [hf] using Nat.testBit_lt_two_pow h1
      · simpa using h2 k (by omega)

/-- A mask of lanes holds lane `l` just when its function says so. -/
theorem getLsbD_laneMask (f : Nat → Bool) (l : Nat) : (laneMask f).getLsbD l = (decide (l < 32) && f l) := by
  have h := laneMask_fold f 32
  by_cases hl : l < 32
  · rw [laneMask, BitVec.getLsbD_ofNat, h.2 l hl]
  · rw [laneMask, BitVec.getLsbD_ofNat]
    simp [hl]

theorem maskLanes_eq_nil (m : LaneMask) : maskLanes m = [] ↔ m = 0 := by
  constructor
  · intro h
    apply BitVec.eq_of_getLsbD_eq
    intro i hi
    cases hm : m.getLsbD i with
    | false => simp
    | true =>
      have := (mem_maskLanes m i).2 hm
      simp [h] at this
  · intro h
    subst h
    decide

/-- No lane stands in a mask just when its function holds of none. -/
theorem maskLanes_laneMask_nil (f : Nat → Bool) : maskLanes (laneMask f) = [] ↔ ∀ l, l < 32 → f l = false := by
  rw [maskLanes_eq_nil]
  constructor
  · intro h l hl
    have := getLsbD_laneMask f l
    rw [h] at this
    simpa [hl] using this.symm
  · intro h
    apply BitVec.eq_of_getLsbD_eq
    intro i hi
    rw [getLsbD_laneMask]
    simp [h i hi]

end Sys2Proof.Machine
end

