-- ==== Sys2Proof/Laws/Ops.lean ====
section
/-! SUPPORT. What each shared operation does, said once: the runs for an instance at issue, the ends of an instance, and the
value-producing instance. -/

namespace Sys2Proof.Machine

-- one theorem at a time
set_option Elab.async false

theorem withInst_some {s : State} {c : Inst} (k : Inst → Res) (h : s.sched.cur = some c) : withInst s k = k c := by
  simp [withInst, h]

theorem withInst_none {s : State} (k : Inst → Res) (h : s.sched.cur = none) : withInst s k = .fault .noInstance := by
  simp [withInst, h]

/-- No lane's next word lies outside the code: the instance ends, every lane where `next` says. -/
theorem finish_next (c : Inst) (m : Mods) (next : Nat → Option W32) (s0 s1 : State)
    (h : ∀ l, l < 32 → c.mask.getLsbD l = true → ((s0.instGrp c).lane l).helper = false →
      ∀ n, next l = some n → n.toNat < (s0.instKernel c).codeSize) :
    finish c m next s0 s1 = .next (s1.modGroup c.team c.group fun G => G.goesOn c next) := by
  unfold finish
  dsimp only
  split
  · rename_i l ls hb
    exfalso
    have hl := (mem_maskLanes _ l).1 (hb ▸ List.mem_cons_self)
    rw [getLsbD_laneMask] at hl
    simp only [Bool.and_eq_true, decide_eq_true_eq, Bool.not_eq_true'] at hl
    obtain ⟨hl32, ⟨hm, hh⟩, ho⟩ := hl
    cases hn : next l with
    | none => simp [hn] at ho
    | some n =>
      have := h l hl32 hm hh n hn
      simp only [hn, decide_eq_true_eq] at ho
      omega
  · rfl

/-- The next word lies inside the code: every lane but those of `stay` goes on there. -/
theorem finishSeq_next (c : Inst) (m : Mods) (stay : LaneMask) (s0 s1 : State)
    (h : (afterUnit c.pc m).toNat < (s0.instKernel c).codeSize) :
    finishSeq c m stay s0 s1 = .next (s1.modGroup c.team c.group fun G =>
      G.goesOn c fun l => if stay.getLsbD l then none else some (afterUnit c.pc m)) := by
  apply finish_next
  intro l _ _ _ n hn
  split at hn
  · cases hn
  · cases hn
    exact h

/-- A lane takes what it receives and goes on, in either order. -/
theorem flagTrapLanes_none (G : Group) (act : LaneMask) (res : Nat → LaneOut) (h : G.flagsPass act res) :
    maskLanes (flagTrapLanes G act res) = [] := by
  rw [flagTrapLanes, maskLanes_laneMask_nil]
  intro l hl
  cases ha : act.getLsbD l
  · simp
  · cases hh : (G.lane l).helper
    · simp [h l hl ha hh]
    · simp

/-- A value-producing instance that raises no enabled flag retires. -/
theorem valueInst_next (c : Inst) (m : Mods) (g : BitVec 3) (n : Nat) (res : Group → Nat → LaneOut) (s : State)
    (hn : (afterUnit c.pc m).toNat < (s.instKernel c).codeSize)
    (hf : (s.instGrp c).flagsPass (activeOf s c g.toNat (guardNeg m)) (res (s.instGrp c))) :
    valueInst c m g n res s = .next (s.modGroup c.team c.group fun G =>
      G.retires c m (activeOf s c g.toNat (guardNeg m)) n (res (s.instGrp c))) := by
  simp only [valueInst]
  rw [flagTrapLanes_none _ _ _ hf]
  rw [finishSeq_next _ _ _ _ _ hn]
  simp only [State.commitLanes, State.modGroup_modGroup]
  refine congrArg Host.Outcome.next (congrArg (s.modGroup c.team c.group) (funext fun G => ?_))
  simp only [Group.retires, Group.goesOn, Group.orFlags, Group.mapLanes, mapIdx_mapIdx]
  congr 1
  · congr 1
    funext l L
    by_cases hm : c.mask.getLsbD l = true <;> simp [hm]
  · rw [show (~~~0 : LaneMask) = BitVec.allOnes 32 from rfl, BitVec.and_allOnes]

end Sys2Proof.Machine
end

