-- ==== Sys2Proof/Laws/Access.lean ====
section
/-! SUPPORT. Memory instances whose lanes find every byte here: they are performed, lane by lane in ascending order, and retire. -/

namespace Sys2Proof.Machine

-- one theorem at a time
set_option Elab.async false

/-! ## Reaching bytes that are here -/

theorem dirBlocks_read {s : State} {line : Nat} (h : s.dirBlocks line true = false) : s.dirBlocks line false = false := by
  unfold State.dirBlocks at *
  rw [Bool.or_eq_false_iff] at h ⊢
  refine ⟨?_, h.2⟩
  have h1 := h.1
  split at h1
  · rfl
  · simp only [Bool.or_eq_false_iff, Bool.and_eq_false_iff] at h1 ⊢
    exact ⟨h1.1, Or.inl trivial⟩

/-- A line that nothing stands in the way of is locked for no store. -/
theorem lockedBut_here {s : State} {line : Nat} {w : Bool} (h : s.dirBlocks line w = false) (but : Nat × Nat × Nat → Bool) :
    s.lockedBut line but = false := by
  unfold State.dirBlocks at h
  rw [Bool.or_eq_false_iff] at h
  have h2 := h.2
  unfold State.lockedBut at *
  rw [List.any_eq_false] at h2 ⊢
  intro x hx hx'
  apply h2 x hx
  simp only [Bool.and_eq_true] at hx' ⊢
  exact ⟨hx'.1, rfl⟩

/-- Bytes that are here can be reached at once. -/
theorem reach_here (s : State) (who : Nat × Nat × Nat) (grid : Option Nat) (k n : Nat) (u : Bool) (t : Touch)
    (hp : s.isPeerKey k = false) (hd : s.dirBlocks (k / 128) true = false) : s.reach who grid k n u t = .ready := by
  unfold State.reach
  dsimp only
  rw [lockedBut_here hd]
  simp only [Bool.false_eq_true, if_false]
  split
  · rfl
  · split
    · have : s.dirBlocks (k / 128) (t != .read) = false := by
        cases t != .read
        · exact dirBlocks_read hd
        · exact hd
      simp [this]
    · simp [hp]

theorem keyRuns_mem (ks : List (Nat × Bool)) : ∀ r ∈ keyRuns ks, ∃ u, (r.1, u) ∈ ks := by
  induction ks with
  | nil => intro r hr; simp [keyRuns] at hr
  | cons k ks ih =>
    obtain ⟨k, u⟩ := k
    intro r hr
    simp only [keyRuns] at hr
    split at hr
    · rename_i k' n u' more heq
      split at hr
      · rcases List.mem_cons.1 hr with h | h
        · exact ⟨u, by rw [h]; exact List.mem_cons_self⟩
        · obtain ⟨v, hv⟩ := ih r (by rw [heq]; exact List.mem_cons_of_mem _ h)
          exact ⟨v, List.mem_cons_of_mem _ hv⟩
      · rcases List.mem_cons.1 hr with h | h
        · exact ⟨u, by rw [h]; exact List.mem_cons_self⟩
        · obtain ⟨v, hv⟩ := ih r (by rw [heq]; exact h)
          exact ⟨v, List.mem_cons_of_mem _ hv⟩
    · rcases List.mem_singleton.1 hr with rfl
      exact ⟨u, List.mem_cons_self⟩

/-- Every run of bytes that are here can be reached at once, and nothing is asked for. -/
theorem reachAll_here (s : State) (who : Nat × Nat × Nat) (grid : Option Nat) (t : Touch) (ks : List (Nat × Bool))
    (h : ∀ k ∈ ks, s.isPeerKey k.1 = false ∧ s.dirBlocks (k.1 / 128) true = false) :
    s.reachAll who grid t (keyRuns ks) = (s, true) := by
  have key : ∀ (rs : List (Nat × Nat × Bool)) (b : Bool),
      (∀ r ∈ rs, s.isPeerKey r.1 = false ∧ s.dirBlocks (r.1 / 128) true = false) →
      rs.foldl (fun (acc : State × Bool) r =>
        match acc.1.reach who grid r.1 r.2.1 r.2.2 t with
        | .ready => acc
        | .wait s' => (s', false)
        | .failed _ => acc) (s, b) = (s, b) := by
    intro rs b
    induction rs with
    | nil => intro _; rfl
    | cons r rs ih =>
      intro hr
      have h0 := hr r List.mem_cons_self
      rw [List.foldl_cons]
      simp only [reach_here s who grid r.1 r.2.1 r.2.2 t h0.1 h0.2]
      exact ih fun r' hr' => hr r' (List.mem_cons_of_mem _ hr')
  apply key
  intro r hr
  obtain ⟨u, hu⟩ := keyRuns_mem ks r hr
  exact h _ hu

/-- What a lane that sees everything here reads first is reached at once. -/
theorem reachPre_here (s : State) (c : Inst) (l : Nat) (more : Bool) (r : LaneReq) (h : s.Sees c l r) :
    s.reachPre c l more (s.checkLane c l r) = (s, true) := by
  have hp : ∀ k ∈ (s.checkLane c l r).pre, s.isPeerKey k.1 = false ∧ s.dirBlocks (k.1 / 128) true = false :=
    fun k hk => h.here k (List.mem_append_left _ (List.mem_append_left _ hk))
  have hl : ∀ k ∈ (s.checkLane c l r).look, s.isPeerKey k.1 = false ∧ s.dirBlocks (k.1 / 128) true = false :=
    fun k hk => h.here k (List.mem_append_right _ hk)
  unfold State.reachPre
  dsimp only
  rw [reachAll_here s _ _ _ _ hp, if_pos rfl]
  split
  · exact reachAll_here s _ _ _ _ hl
  · rfl

/-- A lane that sees everything here reaches it at once. -/
theorem reachLane_here (s : State) (c : Inst) (op : MemOp) (l : Nat) (h : s.Sees c l (op.req l)) :
    s.reachLane c op l (s.checkLane c l (op.req l)) = (s, true) := by
  have hk : ∀ k ∈ (s.checkLane c l (op.req l)).keys, s.isPeerKey k.1 = false ∧ s.dirBlocks (k.1 / 128) true = false :=
    fun k hk => h.here k (List.mem_append_left _ (List.mem_append_right _ hk))
  unfold State.reachLane
  dsimp only
  rw [reachPre_here s c l _ _ h]
  split
  · rfl
  · split
    · rfl
    · exact reachAll_here s _ _ _ _ hk

/-- Lanes each of which is ready as things stand are all ready. -/
theorem reachTurns_here (s : State) (f : State → Nat → LaneAcc → State × Bool) (xs : List (Nat × LaneAcc))
    (h : ∀ x ∈ xs, f s x.1 x.2 = (s, true)) : s.reachTurns f xs = (s, xs, true) := by
  induction xs with
  | nil => rfl
  | cons x xs ih =>
    unfold State.reachTurns
    dsimp only
    rw [h x List.mem_cons_self, if_pos rfl, ih fun y hy => h y (List.mem_cons_of_mem _ hy)]

/-- Reads under version words that are all here are done at once. -/
theorem readTurns_here (s : State) (c : Inst) (xs : List (Nat × LaneAcc))
    (h : ∀ x ∈ xs, ∀ k ∈ x.2.keys ++ x.2.look, s.isPeerKey k.1 = false ∧ s.dirBlocks (k.1 / 128) true = false) :
    s.readTurns c xs = (s, true) := by
  unfold State.readTurns
  dsimp only
  rw [reachTurns_here s _ xs fun x hx => reachAll_here s _ _ _ _ fun k hk => h x hx k (List.mem_append_left _ hk)]
  simp only [Bool.not_true, Bool.false_eq_true, if_false]
  rw [reachTurns_here s _ xs fun x hx => reachAll_here s _ _ _ _ fun k hk => h x hx k (List.mem_append_right _ hk)]
  rfl

theorem keepBytes_here (s : State) (who : Nat × Nat × Nat) (rs : List (Nat × Nat × Bool))
    (h : ∀ r ∈ rs, s.isPeerKey r.1 = false) :
    rs.foldl (fun s r => if s.isPeerKey r.1 then s.keepBytes who r.1 r.2.1 else s) s = s := by
  induction rs with
  | nil => rfl
  | cons r rs ih =>
    rw [List.foldl_cons, h r List.mem_cons_self]
    exact ih fun r' hr' => h r' (List.mem_cons_of_mem _ hr')

/-- The discard that follows its read needs nothing either. -/
theorem reachDiscard_here (s : State) (c : Inst) (l : Nat) (r : LaneReq) (h : s.Sees c l r) :
    s.reachDiscard c l (s.checkLane c l r) = (s, true) := by
  have hk : ∀ k ∈ (s.checkLane c l r).keys, s.isPeerKey k.1 = false ∧ s.dirBlocks (k.1 / 128) true = false :=
    fun k hk => h.here k (List.mem_append_left _ (List.mem_append_right _ hk))
  unfold State.reachDiscard
  dsimp only
  rw [keepBytes_here]
  · exact reachAll_here s _ _ _ _ hk
  · intro r hr
    obtain ⟨u, hu⟩ := keyRuns_mem _ r hr
    exact (hk _ hu).1

/-! ## The lanes that take part -/

/-- The lanes of Active() that are performed: a discarded helper lane is not. -/
def MemOp.lanes (op : MemOp) (G : Group) (act : LaneMask) : List Nat :=
  (maskLanes act).filter fun l => !((G.lane l).helper && op.helper == .discarded)

/-- What the checks find for them. -/
def MemOp.found (op : MemOp) (s : State) (c : Inst) (act : LaneMask) : List (Nat × LaneAcc) :=
  (op.lanes (s.instGrp c) act).map fun l => (l, s.checkLane c l (op.req l))

/-- What the lanes of an instance ask for is all here, and the instruction's own conditions let it go on. -/
structure MemOp.Ready (op : MemOp) (s : State) (c : Inst) (act : LaneMask) : Prop where
  sees  : ∀ l ∈ op.lanes (s.instGrp c) act, s.Sees c l (op.req l)
  kept  : op.checked = true → (∀ l ks u, (op.perform l ks u).1 = u) ∧ ∀ a ∈ s.fab.answers, c.owns a.who = false
  late  : ∀ xs, op.late xs = []
  odd   : op.checked = true → ∀ x ∈ op.found s c act, s.versionOdd c x.1 x.2 = false
  holds : ∀ x ∈ op.found s c act, op.holds x.2.keys s = false
  wait  : op.wait 0 s = s
  rel   : op.release = false ∨ s.teamPending c.team = false

theorem filter_false {α : Type} (xs : List α) (p : α → Bool) (h : ∀ x ∈ xs, p x = false) : xs.filter p = [] := by
  rw [List.filter_eq_nil_iff]
  intro x hx
  simp [h x hx]

theorem filter_true {α : Type} (xs : List α) (p : α → Bool) (h : ∀ x ∈ xs, p x = true) : xs.filter p = xs := by
  rw [List.filter_eq_self]
  exact h

theorem any_false {α : Type} (xs : List α) (p : α → Bool) (h : ∀ x ∈ xs, p x = false) : xs.any p = false := by
  rw [List.any_eq_false]
  intro x hx
  simp [h x hx]

theorem laneMask_false : laneMask (fun _ => false) = 0 := by decide

theorem Ready_found {op : MemOp} {s : State} {c : Inst} {act : LaneMask} (h : op.Ready s c act) :
    ∀ x ∈ op.found s c act, x.2 = s.checkLane c x.1 (op.req x.1) ∧ s.Sees c x.1 (op.req x.1) := by
  intro x hx
  obtain ⟨l, hl, rfl⟩ := List.mem_map.1 hx
  exact ⟨rfl, h.sees l hl⟩

theorem foldl_fixed {α β : Type} (f : β → α → β) (b : β) (xs : List α) (h : ∀ x ∈ xs, f b x = b) : xs.foldl f b = b := by
  induction xs with
  | nil => rfl
  | cons x xs ih =>
    rw [List.foldl_cons, h x List.mem_cons_self]
    exact ih fun y hy => h y (List.mem_cons_of_mem _ hy)

theorem fifoParks_none (s : State) (c : Inst) (xs : List (Nat × LaneAcc)) (append : Bool) (h : ∀ x ∈ xs, x.2.fifo = none) :
    s.fifoParks c xs append = [] := by
  unfold State.fifoParks
  dsimp only
  rw [foldl_fixed]
  intro x hx
  simp [h x hx]

theorem fifoPoison_none (s : State) (c : Inst) (xs : List (Nat × LaneAcc)) (h : ∀ x ∈ xs, x.2.fifo = none) :
    s.fifoPoison c xs = [] := by
  unfold State.fifoPoison
  dsimp only
  rw [foldl_fixed]
  intro x hx
  simp [h x hx]

/-- Lanes each of which needs nothing are reached at once. -/
theorem reachLanes_here (s : State) (op : MemOp) (f : State → Nat → LaneAcc → State × Bool) (xs : List (Nat × LaneAcc))
    (h : ∀ x ∈ xs, f s x.1 x.2 = (s, true)) : s.reachLanes op f xs = (s, true) := by
  unfold State.reachLanes
  dsimp only
  rw [reachTurns_here s f xs h]
  simp [State.nameRequests]

theorem LaneAcc.first_none (a : LaneAcc) (h : a.conds = []) : a.first = none := by
  simp [LaneAcc.first, h]

theorem rowTrap_nil : rowTrap [] = none := rfl

/-- The end of an instance that is ready: it is performed. -/
theorem memInst_ready (c : Inst) (m : Mods) (act : LaneMask) (op : MemOp) (s : State) (h : op.Ready s c act) :
    memInst c m act op s =
      memPerform c m act op ((op.found s c act).any fun x => (op.req x.1).segs.any fun g => g.acc.writes) []
        (op.found s c act) 0 (fun u => u.parkLanes c [] []) s s := by
  have hf := Ready_found h
  have hconds : ∀ x ∈ op.found s c act, x.2.conds = [] := fun x hx => by rw [(hf x hx).1]; exact (hf x hx).2.conds
  have hpages : ∀ x ∈ op.found s c act, x.2.pages = [] := fun x hx => by rw [(hf x hx).1]; exact (hf x hx).2.pages
  have hlines : ∀ x ∈ op.found s c act, x.2.lines = [] := fun x hx => by rw [(hf x hx).1]; exact (hf x hx).2.lines
  have hfifo : ∀ x ∈ op.found s c act, x.2.fifo = none := fun x hx => by rw [(hf x hx).1]; exact (hf x hx).2.fifo
  have hmate : ∀ x ∈ op.found s c act, x.2.absentMate = false := fun x hx => by rw [(hf x hx).1]; exact (hf x hx).2.mate
  have hbusy : ∀ x ∈ op.found s c act, x.2.busy = [] := fun x hx => by rw [(hf x hx).1]; exact (hf x hx).2.busy
  have hfirst : ∀ x ∈ op.found s c act, x.2.first = none := fun x hx => x.2.first_none (hconds x hx)
  have hpre : ∀ x ∈ op.found s c act, s.reachPre c x.1 (op.req x.1).more x.2 = (s, true) := fun x hx => by
    rw [(hf x hx).1]; exact reachPre_here s c x.1 _ _ (hf x hx).2
  have hread : s.readTurns c (op.found s c act) = (s, true) := readTurns_here s c _ fun x hx k hk => by
    rw [(hf x hx).1] at hk
    refine (hf x hx).2.here k ?_
    rcases List.mem_append.1 hk with hk | hk
    · exact List.mem_append_left _ (List.mem_append_right _ hk)
    · exact List.mem_append_right _ hk
  have hpart : ∀ x ∈ op.found s c act, s.partOf (c.team, c.group, x.1) = none := fun x hx => (hf x hx).2.fresh
  have hreach : ∀ x ∈ op.found s c act, s.reachLane c op x.1 x.2 = (s, true) := fun x hx => by
    rw [(hf x hx).1]; exact reachLane_here s c op x.1 (hf x hx).2
  have hdisc : ∀ x ∈ op.found s c act, s.reachDiscard c x.1 x.2 = (s, true) := fun x hx => by
    rw [(hf x hx).1]; exact reachDiscard_here s c x.1 _ (hf x hx).2
  have hseg : ∀ x ∈ op.found s c act, ((op.req x.1).segs.any fun g => s.segHeld c.team g) = false :=
    fun x hx => any_false _ _ (hf x hx).2.free
  have hodd' := h.odd
  have hholds' := h.holds
  have hall : ((maskLanes act).filter fun l => !(((s.instGrp c).lane l).helper && op.helper == .discarded)).map
      (fun l => (l, if (s.partOf (c.team, c.group, l)).isSome then ({ keys := (s.checkLane c l (op.req l)).keys } : LaneAcc)
        else s.checkLane c l (op.req l))) = op.found s c act := by
    unfold MemOp.found MemOp.lanes
    apply List.map_congr_left
    intro l hl
    rw [(h.sees l hl).fresh]
    rfl
  unfold memInst
  dsimp only
  rw [hall]
  clear hf hall
  generalize op.found s c act = X at *
  have hpo : (if (X.any fun x => (op.req x.1).segs.any fun g => g.acc.writes) = true then ([] : List (Nat × Cond))
      else s.fifoPoison c X) = [] := by
    rw [fifoPoison_none s c X hfifo, ite_self]
  rw [hpo]
  have hmap : (X.map fun x => (x.1, { x.2 with conds := x.2.conds ++
      ((([] : List (Nat × Cond)).filter fun y => y.1 == x.1).map (·.2)) })) = X := by
    simp
  rw [hmap]
  have hrows : (X.filter fun x => !((s.instGrp c).lane x.1).helper).filterMap (fun x => x.2.first.map fun k => (x.1, k)) = [] := by
    rw [List.filterMap_eq_nil_iff]
    intro x hx
    simp [hfirst x (List.mem_filter.1 hx).1]
  rw [hrows]
  simp only [h.late, List.append_nil]
  have hpreAll : (if (op.fresh && s.begun c) = true then ((s, [], true) : State × List (Nat × LaneAcc) × Bool)
      else s.reachTurns (fun s l a => s.reachPre c l (op.req l).more a) X) =
        (s, if (op.fresh && s.begun c) = true then [] else X, true) := by
    split
    · rfl
    · exact reachTurns_here s _ X hpre
  rw [hpreAll]
  have htab : (X.flatMap fun x => x.2.busy) = [] := by
    rw [List.flatMap_eq_nil_iff]
    exact hbusy
  rw [htab]
  have hfail : (X.filter fun x => ((s.instGrp c).lane x.1).helper && (!x.2.conds.isEmpty || !x.2.pages.isEmpty)) = [] := by
    apply filter_false
    intro x hx
    simp [hconds x hx, hpages x hx]
  have hgo : (X.filter fun x => !(((s.instGrp c).lane x.1).helper && (!x.2.conds.isEmpty || !x.2.pages.isEmpty))) = X := by
    apply filter_true
    intro x hx
    simp [hconds x hx, hpages x hx]
  simp only [rowTrap_nil, hfail, hgo, List.isEmpty_nil, Bool.not_true, Bool.false_eq_true, if_false]
  unfold memProceed
  dsimp only
  have hmiss : (X.filter fun x => !x.2.pages.isEmpty || !x.2.lines.isEmpty) = [] := by
    apply filter_false
    intro x hx
    simp [hpages x hx, hlines x hx]
  rw [hmiss, fifoParks_none s c X _ hfifo]
  have hpark : (X.filter fun x => (([] : List (Nat × LaneAcc)).any fun y => y.1 == x.1) ||
      (([] : List (Nat × Nat)).any fun y => y.1 == x.1)) = [] := by
    apply filter_false
    intro x _
    rfl
  rw [hpark]
  have hrest : (X.filter fun x => !(([] : List (Nat × LaneAcc)).any fun y => y.1 == x.1)) = X := by
    apply filter_true
    intro x _
    rfl
  rw [hrest]
  have hheld : (X.any fun x => x.2.absentMate || (!op.plain && (op.req x.1).segs.any fun g => s.segHeld c.team g)) = false := by
    apply any_false
    intro x hx
    simp only [hmate x hx, hseg x hx, Bool.and_false, Bool.or_self]
  rw [hheld]
  have hodd : X.filter (fun x => op.checked && s.versionOdd c x.1 x.2) = [] := by
    apply filter_false
    intro x hx
    cases hc : op.checked
    · rfl
    · simp [hodd' hc x hx]
  have hwaits : laneMask (fun l => X.any fun x => x.1 == l && op.holds x.2.keys s) = 0 := by
    rw [← laneMask_false]
    congr 1
    funext l
    apply any_false
    intro x hx
    simp [hholds' x hx]
  have hstay : (laneMask fun l => ([] : List (Nat × LaneAcc)).any fun y => y.1 == l) = 0 := laneMask_false
  have hfin : X.filter (fun x => !(0 : LaneMask).getLsbD x.1) = X := by
    apply filter_true
    intro x _
    simp
  have hrel : (op.release && s.teamPending c.team) = false := by
    rcases h.rel with hr | hr <;> simp [hr]
  have hreachAll : s.reachLanes op (fun s l a => s.reachLane c op l a) X = (s, true) := reachLanes_here s op _ X hreach
  have hlast : ∀ p : Nat × LaneAcc → Bool, s.reachLanes op (fun s l a => s.reachDiscard c l a) (X.filter p) = (s, true) :=
    fun p => reachLanes_here s op _ _ fun x hx => hdisc x (List.mem_filter.1 hx).1
  have hpk : s.parkLanes c [] [] = s := rfl
  have hparts : (X.any fun x => (s.partOf (c.team, c.group, x.1)).isSome) = false := by
    apply any_false
    intro x hx
    rw [hpart x hx]
    rfl
  have hfirstTwo : (if op.checked = true then s.readTurns c X
      else s.reachLanes op (fun s l a => s.reachLane c op l a) X) = (s, true) := by
    split
    · exact hread
    · exact hreachAll
  simp only [List.map_nil, List.eraseDups_nil, List.isEmpty_nil, Bool.not_true, Bool.and_false, Bool.false_and, hpk, hfirstTwo,
    hlast, ite_self, hodd, hwaits, hfin, h.wait, hrel, hstay, hparts, Bool.or_self, Bool.false_eq_true, if_false, if_true]
  split
  · rename_i hc
    exfalso
    simp only [Bool.and_eq_true] at hc
    have := hc.1.1
    rw [List.any_eq_true] at this
    obtain ⟨x, hx, hxx⟩ := this
    simp [hfirst x hx] at hxx
  · rfl

/-! ## The end of an instance that is performed -/

/-- The lanes performed in ascending order, from their keys alone. -/
def MemOp.run (op : MemOp) (xs : List (Nat × LaneAcc)) (s : State) : State × List (Nat × LaneOut) :=
  xs.foldl (fun acc x =>
    ((op.perform x.1 x.2.keys acc.1).1, acc.2 ++ [(x.1, (op.perform x.1 x.2.keys acc.1).2)])) (s, [])

theorem foldl_congr {α β : Type} (f g : β → α → β) (xs : List α) (b : β) (h : ∀ x ∈ xs, ∀ acc, f acc x = g acc x) :
    xs.foldl f b = xs.foldl g b := by
  induction xs generalizing b with
  | nil => rfl
  | cons x xs ih =>
    rw [List.foldl_cons, List.foldl_cons, h x List.mem_cons_self]
    exact ih _ fun y hy => h y (List.mem_cons_of_mem _ hy)

/-- Bytes that the lane saw as they stand here stand as it has left them. -/
theorem unsee_here (s' s : State) (ks : List (Nat × Bool)) : s'.unsee s s ks = s' := by
  unfold State.unsee
  rw [filter_false _ _ fun k _ => by simp]
  rfl

/-- A lane that no answer and no kept byte concerns is performed on what stands here. -/
theorem performLanes_here (c : Inst) (op : MemOp) (append : Bool) (xs : List (Nat × LaneAcc)) (s : State)
    (hf : ∀ x ∈ xs, x.2.fifo = none) (hk : ∀ x ∈ xs, ∀ k ∈ x.2.pre ++ x.2.keys, s.isPeerKey k.1 = false)
    (hc : op.checked = true → (∀ l ks u, (op.perform l ks u).1 = u) ∧
      ∀ x ∈ xs, ∀ k, s.answerFor (c.team, c.group, x.1) k = none) :
    performLanes c op append xs s = op.run xs s := by
  have one : ∀ x ∈ xs, ∀ u : State,
      (op.checked = true → u = s) → ∀ w : Bool, (x.2.pre ++ x.2.keys).foldl (fun (t : State) k =>
        if t.isPeerKey k.1 || op.checked then t.useAnswer (c.team, c.group, x.1) w k.1 else t) u = u := by
    intro x hx u hu w
    apply foldl_fixed
    intro k hkk
    have hp : u.isPeerKey k.1 = false := hk x hx k hkk
    cases ho : op.checked
    · simp [hp]
    · have hn := (hc ho).2 x hx k.1
      rw [← hu ho] at hn
      simp [hp, State.useAnswer, hn]
  unfold performLanes MemOp.run
  have go : ∀ (ys : List (Nat × LaneAcc)), (∀ y ∈ ys, y ∈ xs) → ∀ acc : State × List (Nat × LaneOut),
      (op.checked = true → acc.1 = s) → ys.foldl (fun (acc : State × List (Nat × LaneOut)) x =>
        let s := acc.1
        let wide := (op.req x.1).segs.any fun g => match g.acc with
          | .atomic o => o.wide
          | _ => false
        let ks := x.2.pre ++ x.2.keys
        let view := ks.foldl (fun s k =>
          if s.isPeerKey k.1 || op.checked then s.useAnswer (c.team, c.group, x.1) wide k.1 else s) s
        let (keys, s1) := match x.2.fifo with
          | none => (x.2.keys, view)
          | some b =>
            let (k, s) := view.fifoStep c.team b append
            ((List.range 16).map fun i => (k + i, false), s)
        let (s2, o) := op.perform x.1 keys s1
        (s2.unsee view s ks, acc.2 ++ [(x.1, o)])) acc =
      ys.foldl (fun acc x =>
        ((op.perform x.1 x.2.keys acc.1).1, acc.2 ++ [(x.1, (op.perform x.1 x.2.keys acc.1).2)])) acc := by
    intro ys
    induction ys with
    | nil => intro _ acc _; rfl
    | cons y ys ih =>
      intro hy acc ha
      have hmem := hy y List.mem_cons_self
      rw [List.foldl_cons, List.foldl_cons]
      simp only [one y hmem acc.1 ha, hf y hmem, unsee_here]
      exact ih (fun z hz => hy z (List.mem_cons_of_mem _ hz)) _ fun ho => by rw [(hc ho).1]; exact ha ho
  exact go xs (fun y hy => hy) (s, []) fun _ => rfl

/-- The page register of a lane after its access. -/
def noteLane (xs : List (Nat × LaneAcc)) (l : Nat) (L : Lane) : Lane :=
  match (xs.find? fun x => x.1 == l).bind fun x => x.2.leaves.getLast? with
  | some f => { L with lastPage := some f }
  | none => L

/-- Leaves noted change the core's translations and the page registers of the lanes, and nothing else. -/
theorem noteLeaves_eq (s : State) (c : Inst) (xs : List (Nat × LaneAcc)) :
    ∃ tlb, s.noteLeaves c xs =
      ({ s with mm := { s.mm with tlb := tlb } }).modGroup c.team c.group fun G => G.mapLanes (noteLane xs) := by
  have h1 : ∀ (core ctx : Nat) (fs : List Leaf) (tlb : List TlbEntry), ∃ tlb',
      fs.foldl (fun (s : State) f => s.tlbAdd core ctx f) { s with mm := { s.mm with tlb := tlb } } =
        { s with mm := { s.mm with tlb := tlb' } } := by
    intro core ctx fs
    induction fs with
    | nil => intro tlb; exact ⟨tlb, rfl⟩
    | cons f fs ih =>
      intro tlb
      rw [List.foldl_cons]
      unfold State.tlbAdd
      split
      · exact ih tlb
      · exact ih _
  have h2 : ∀ (core ctx : Nat) (xs : List (Nat × LaneAcc)) (tlb : List TlbEntry), ∃ tlb',
      xs.foldl (fun (s : State) x => x.2.leaves.foldl (fun s f => s.tlbAdd core ctx f) s)
        { s with mm := { s.mm with tlb := tlb } } = { s with mm := { s.mm with tlb := tlb' } } := by
    intro core ctx xs
    induction xs with
    | nil => intro tlb; exact ⟨tlb, rfl⟩
    | cons x xs ih =>
      intro tlb
      rw [List.foldl_cons]
      obtain ⟨tlb', h⟩ := h1 core ctx x.2.leaves tlb
      rw [h]
      exact ih tlb'
  obtain ⟨tlb, h⟩ := h2 (s.team c.team).core (s.ctxOf c.team) xs s.mm.tlb
  refine ⟨tlb, ?_⟩
  unfold State.noteLeaves
  dsimp only
  rw [show ({ s with mm := { s.mm with tlb := s.mm.tlb } } : State) = s from rfl] at h
  rw [h]
  rfl

/-- What a lane of the instance receives: what the run gave it, or zeros. -/
def MemOp.given (op : MemOp) (outs : List (Nat × LaneOut)) (l : Nat) : LaneOut :=
  match outs.find? fun y => y.1 == l with
  | some y => y.2
  | none => zeroPushes op.pushes

/-- An instance that has asked for nothing has nothing to send. -/
theorem State.stillToSend_none {s1 s2 : State} (h : s2.fab.nextTag = s1.fab.nextTag) : s1.stillToSend s2 = none := by
  unfold State.stillToSend
  dsimp only
  rw [if_pos]
  rw [h]
  exact beq_self_eq_true _

/-- The end of a memory instance all of whose lanes are performed. -/
theorem memPerform_next (c : Inst) (m : Mods) (act : LaneMask) (op : MemOp) (append : Bool) (xs : List (Nat × LaneAcc)) (s : State)
    (park : State → State)
    (hn : (afterUnit c.pc m).toNat < (s.instKernel c).codeSize) (hf : ∀ x ∈ xs, x.2.fifo = none)
    (hk : ∀ x ∈ xs, ∀ k ∈ x.2.pre ++ x.2.keys, s.isPeerKey k.1 = false)
    (hc : op.checked = true → (∀ l ks u, (op.perform l ks u).1 = u) ∧
      ∀ x ∈ xs, ∀ k, s.answerFor (c.team, c.group, x.1) k = none)
    (ht : (op.after (xs.map fun x => (x.1, x.2.keys)) (op.run xs (s.noteLeaves c xs)).1).fab.nextTag =
      s.fab.nextTag) :
    memPerform c m act op append [] xs 0 park s s =
      .next ((((op.after (xs.map fun x => (x.1, x.2.keys)) (op.run xs (s.noteLeaves c xs)).1).commitLanes c act 0 op.pushes
        (op.given (op.run xs (s.noteLeaves c xs)).2)).clearAnswers c.owns).modGroup c.team c.group fun G =>
          G.goesOn c fun l => if (0 : LaneMask).getLsbD l then none else some (afterUnit c.pc m)) := by
  unfold memPerform
  dsimp only
  have hc' : op.checked = true → (∀ l ks u, (op.perform l ks u).1 = u) ∧
      ∀ x ∈ xs, ∀ k, (s.noteLeaves c xs).answerFor (c.team, c.group, x.1) k = none := by
    intro ho
    refine ⟨(hc ho).1, fun x hx k => ?_⟩
    obtain ⟨tlb, hnote⟩ := noteLeaves_eq s c xs
    rw [hnote]
    exact (hc ho).2 x hx k
  rw [performLanes_here c op append xs (s.noteLeaves c xs) hf hk hc']
  generalize hr : op.run xs (s.noteLeaves c xs) = r at *
  have hany : (xs.any fun x => x.2.fifo.isSome) = false := by
    apply any_false
    intro x hx
    simp [hf x hx]
  rw [hany]
  simp only [Bool.false_eq_true, if_false]
  rw [if_pos (by rw [ht]; exact beq_self_eq_true _), finishSeq_next _ _ _ _ _ hn]
  rfl

/-! ## What an instance that is performed leaves -/

theorem take_lastPage (L : Lane) (p : Option Leaf) (o : LaneOut) : ({ L with lastPage := p } : Lane).take o = { L.take o with lastPage := p } := by
  have hpush : ∀ (vs : List W64) (L : Lane), ({ L with lastPage := p } : Lane).pushes vs = { L.pushes vs with lastPage := p } := by
    intro vs
    induction vs with
    | nil => intro L; rfl
    | cons v vs ih => intro L; exact ih (L.push v)
  have hreg : ∀ (xs : List (Nat × W32)) (L : Lane), xs.foldl (fun (L : Lane) x => L.setReg x.1 x.2) { L with lastPage := p } =
      { xs.foldl (fun (L : Lane) x => L.setReg x.1 x.2) L with lastPage := p } := by
    intro xs
    induction xs with
    | nil => intro L; rfl
    | cons x xs ih => intro L; exact ih (L.setReg x.1 x.2)
  unfold Lane.take
  dsimp only
  rw [hpush, hreg]
  cases o.pred with
  | none => rfl
  | some x =>
    obtain ⟨n, b⟩ := x
    simp only [Lane.setPred]
    split <;> rfl

theorem take_helper (L : Lane) (o : LaneOut) : (L.take o).helper = L.helper := by
  have hpush : ∀ (vs : List W64) (L : Lane), (L.pushes vs).helper = L.helper := by
    intro vs
    induction vs with
    | nil => intro L; rfl
    | cons v vs ih => intro L; exact ih (L.push v)
  have hreg : ∀ (xs : List (Nat × W32)) (L : Lane), (xs.foldl (fun (L : Lane) x => L.setReg x.1 x.2) L).helper = L.helper := by
    intro xs
    induction xs with
    | nil => intro L; rfl
    | cons x xs ih => intro L; exact ih (L.setReg x.1 x.2)
  unfold Lane.take
  dsimp only
  cases o.pred with
  | none => rw [hreg, hpush]
  | some x =>
    obtain ⟨n, b⟩ := x
    simp only [Lane.setPred]
    split
    · rw [hreg, hpush]
    · dsimp only
      rw [hreg, hpush]

/-- The group of an instance after it has been performed, as one function. -/
def performed (c : Inst) (m : Mods) (act : LaneMask) (n : Nat) (out : Nat → LaneOut) (xs : List (Nat × LaneAcc)) (G : Group) :
    Group :=
  (((G.mapLanes (noteLane xs)).mapLanes fun l L =>
    if c.mask.getLsbD l && !(0 : LaneMask).getLsbD l then L.take (if act.getLsbD l then out l else zeroPushes n)
    else L).orFlags (raisedFlags (G.mapLanes (noteLane xs)) (act &&& ~~~0) out)).goesOn c
      fun l => if (0 : LaneMask).getLsbD l then none else some (afterUnit c.pc m)

theorem noteLane_helper (xs : List (Nat × LaneAcc)) (l : Nat) (L : Lane) : (noteLane xs l L).helper = L.helper := by
  unfold noteLane
  split <;> rfl

theorem mapLanes_lane_helper (G : Group) (xs : List (Nat × LaneAcc)) (l : Nat) :
    ((G.mapLanes (noteLane xs)).lane l).helper = (G.lane l).helper := by
  by_cases h : l < G.lanes.length
  · rw [Group.lane_mapLanes _ _ _ h, noteLane_helper]
  · simp [Group.lane, Group.mapLanes, List.getD, mapIdx_getElem?, List.getElem?_eq_none (Nat.le_of_not_lt h)]

theorem raisedFlags_congr (G H : Group) (act : LaneMask) (res res' : Nat → LaneOut)
    (hG : ∀ l, (G.lane l).helper = (H.lane l).helper) (hr : ∀ l, act.getLsbD l = true → res l = res' l) :
    raisedFlags G act res = raisedFlags H act res' := by
  unfold raisedFlags
  have : ∀ (ls : List Nat) (f : FlagBits), (∀ l ∈ ls, act.getLsbD l = true) →
      ls.foldl (fun f l => if (G.lane l).helper then f else f ||| (res l).flags) f =
      ls.foldl (fun f l => if (H.lane l).helper then f else f ||| (res' l).flags) f := by
    intro ls
    induction ls with
    | nil => intro f _; rfl
    | cons l ls ih =>
      intro f h
      rw [List.foldl_cons, List.foldl_cons, hG l, hr l (h l List.mem_cons_self)]
      exact ih _ fun k hk => h k (List.mem_cons_of_mem _ hk)
  exact this _ _ fun l hl => (mem_maskLanes act l).1 hl

/-- A state whose teams are those of `s` with the instance performed, and whose other parts are as before, is as `MemRetired` says. -/
theorem memRetired_of {s t : State} {c : Inst} {m : Mods} {act : LaneMask} {n : Nat} {out : Nat → LaneOut}
    {xs : List (Nat × LaneAcc)} (hp : s.Placed c) (hx : ∀ x ∈ xs, c.mask.getLsbD x.1 = true)
    (ht : t.teams = (s.modGroup c.team c.group (performed c m act n out xs)).teams)
    (hf : t.fab = (s.clearAnswers c.owns).fab)
    (hr : t.grids = s.grids ∧ t.cp = s.cp ∧ t.regs = s.regs ∧ t.hub = s.hub ∧ t.sched = s.sched) :
    MemRetired s t c m act fun l => if act.getLsbD l then out l else zeroPushes n := by
  have hgrp : ∀ u h, t.grp u h = (s.modGroup c.team c.group (performed c m act n out xs)).grp u h := by
    intro u h
    simp [State.grp, State.team, ht]
  have hG : t.grp c.team c.group = performed c m act n out xs (s.instGrp c) := by
    rw [hgrp, State.grp_modGroup_same _ _ _ _ hp.1 hp.2]
    rfl
  have hlane : ∀ l, l < (s.instGrp c).lanes.length → (t.grp c.team c.group).lane l =
      (if c.mask.getLsbD l then ((noteLane xs l ((s.instGrp c).lane l)).take
        (if act.getLsbD l then out l else zeroPushes n)).goesTo (afterUnit c.pc m)
       else noteLane xs l ((s.instGrp c).lane l)) := by
    intro l hl
    rw [hG]
    unfold performed Group.goesOn
    rw [Group.lane_mapLanes _ _ _ (by simpa [Group.orFlags, Group.mapLanes] using hl)]
    have : ((((s.instGrp c).mapLanes (noteLane xs)).mapLanes fun l L =>
        if c.mask.getLsbD l && !(0 : LaneMask).getLsbD l then L.take (if act.getLsbD l then out l else zeroPushes n)
        else L).orFlags (raisedFlags ((s.instGrp c).mapLanes (noteLane xs)) (act &&& ~~~0) out)).lane l =
        (((s.instGrp c).mapLanes (noteLane xs)).mapLanes fun l L =>
        if c.mask.getLsbD l && !(0 : LaneMask).getLsbD l then L.take (if act.getLsbD l then out l else zeroPushes n)
        else L).lane l := rfl
    rw [this, Group.lane_mapLanes _ _ _ (by simpa [Group.mapLanes] using hl), Group.lane_mapLanes _ _ _ hl]
    cases hm : c.mask.getLsbD l <;> simp
  refine ⟨?_, ?_, ?_, ?_, ?_, hf, hr⟩
  · intro l hm hl
    rw [hlane l hl, if_pos hm]
    unfold noteLane
    split
    · rename_i f _
      exact ⟨some f, by rw [take_lastPage]; rfl⟩
    · refine ⟨(((s.instGrp c).lane l).take (if act.getLsbD l then out l else zeroPushes n)).lastPage, ?_⟩
      rfl
  · intro l hm
    by_cases hl : l < (s.instGrp c).lanes.length
    · rw [hlane l hl]
      simp only [hm, Bool.false_eq_true, if_false]
      have : xs.find? (fun x => x.1 == l) = none := by
        rw [List.find?_eq_none]
        intro x hxx hxl
        have h1 := hx x hxx
        rw [eq_of_beq hxl, hm] at h1
        cases h1
      simp [noteLane, this]
    · rw [hG]
      have h1 : (s.instGrp c).lanes[l]? = none := List.getElem?_eq_none (Nat.le_of_not_lt hl)
      simp [performed, Group.goesOn, Group.lane, Group.mapLanes, Group.orFlags, List.getD, mapIdx_getElem?, h1]
  · rw [hG]
    have hfl : raisedFlags ((s.instGrp c).mapLanes (noteLane xs)) (act &&& ~~~0) out =
        raisedFlags (s.instGrp c) act fun l => if act.getLsbD l then out l else zeroPushes n := by
      rw [show (~~~0 : LaneMask) = BitVec.allOnes 32 from rfl, BitVec.and_allOnes]
      apply raisedFlags_congr
      · exact fun l => mapLanes_lane_helper _ _ _
      · intro l hl
        simp [hl]
    unfold performed
    rw [hfl]
    rfl
  · intro u h hne
    rw [hgrp]
    by_cases hu : u = c.team
    · subst hu
      rw [State.grp_modGroup_other_group]
      intro hh
      exact hne (by rw [hh])
    · exact State.grp_modGroup_other_team _ _ _ _ _ _ hu
  · intro u
    have : t.team u = (s.modGroup c.team c.group (performed c m act n out xs)).team u := by simp [State.team, ht]
    rw [this]
    by_cases hu : u = c.team
    · subst hu
      unfold State.modGroup
      rw [State.team_modTeam_same _ _ _ hp.1]
    · unfold State.modGroup
      rw [State.team_modTeam_other _ _ _ _ hu]

/-- The parts of a state that performing lanes may not touch. -/
structure SameRest (s t : State) : Prop where
  teams : t.teams = s.teams
  grids : t.grids = s.grids
  cp    : t.cp = s.cp
  fab   : t.fab = s.fab
  regs  : t.regs = s.regs
  hub   : t.hub = s.hub
  sched : t.sched = s.sched

theorem activeOf_sub {s : State} {c : Inst} {g : Nat} {n : Bool} {l : Nat} (h : (activeOf s c g n).getLsbD l = true) :
    c.mask.getLsbD l = true := by
  unfold activeOf at h
  rw [getLsbD_laneMask] at h
  simp only [Bool.and_eq_true] at h
  exact h.2.1

/-- A memory instance that is ready retires in all its lanes: what the run of its lanes leaves in memory, in the engines and in the
memory unit stands, and each lane has what the run gave it. -/
theorem memInst_retires (c : Inst) (m : Mods) (act : LaneMask) (op : MemOp) (s : State) (s2 : State)
    (outs : List (Nat × LaneOut)) (h : op.Ready s c act) (hp : s.Placed c)
    (hn : (afterUnit c.pc m).toNat < (s.instKernel c).codeSize) (ha : ∀ l, act.getLsbD l = true → c.mask.getLsbD l = true)
    (ho : (op.run (op.found s c act) (s.noteLeaves c (op.found s c act))).2 = outs)
    (h2 : op.after ((op.found s c act).map fun x => (x.1, x.2.keys))
      (op.run (op.found s c act) (s.noteLeaves c (op.found s c act))).1 = s2)
    (hs : SameRest (s.noteLeaves c (op.found s c act)) s2) :
    ∃ t, memInst c m act op s = .next t ∧
      MemRetired s t c m act (fun l => if act.getLsbD l then op.given outs l else zeroPushes op.pushes) ∧
      t.mem = s2.mem ∧ t.poison = s2.poison ∧ t.eng = s2.eng ∧ t.mm = s2.mm := by
  have hf := Ready_found h
  have hx : ∀ x ∈ op.found s c act, c.mask.getLsbD x.1 = true := by
    intro x hx
    obtain ⟨l, hl, rfl⟩ := List.mem_map.1 hx
    exact ha l ((mem_maskLanes _ _).1 (List.mem_filter.1 hl).1)
  obtain ⟨tlb, hnote⟩ := noteLeaves_eq s c (op.found s c act)
  have hfab : (s.noteLeaves c (op.found s c act)).fab = s.fab := by rw [hnote]; rfl
  have hown : ∀ x ∈ op.found s c act, c.owns (c.team, c.group, x.1) = true := by
    intro x hx'
    have hm := hx x hx'
    have hlt : x.1 < 32 := by
      apply Nat.lt_of_not_le
      intro hle
      rw [BitVec.getLsbD_of_ge _ _ hle] at hm
      cases hm
    simp [Inst.owns, Nat.mod_eq_of_lt (show x.1 < 64 by omega), hm]
  have hc : op.checked = true → (∀ l ks u, (op.perform l ks u).1 = u) ∧
      ∀ x ∈ op.found s c act, ∀ k, s.answerFor (c.team, c.group, x.1) k = none := by
    intro hch
    refine ⟨(h.kept hch).1, fun x hx' k => ?_⟩
    unfold State.answerFor
    rw [List.find?_eq_none]
    intro a ha hb
    simp only [Bool.and_eq_true] at hb
    have := (h.kept hch).2 a ha
    rw [eq_of_beq hb.1, hown x hx'] at this
    cases this
  rw [memInst_ready _ _ _ _ _ h, memPerform_next _ _ _ _ _ _ _ _ hn (fun x hx => by rw [(hf x hx).1]; exact (hf x hx).2.fifo)
    (fun x hx k hk => by rw [(hf x hx).1] at hk; exact ((hf x hx).2.here k (List.mem_append_left _ hk)).1) hc
    (by rw [h2, hs.fab, hfab]), h2, ho]
  refine ⟨_, rfl, ?_, rfl, rfl, rfl, rfl⟩
  apply memRetired_of hp hx (xs := op.found s c act)
  · show modNth (modNth s2.teams c.team _) c.team _ = modNth s.teams c.team _
    rw [hs.teams, hnote]
    show modNth (modNth (modNth s.teams c.team _) c.team _) c.team _ = _
    rw [modNth_modNth, modNth_modNth]
    simp only [modNth_modNth]
    rfl
  · show (State.clearAnswers s2 c.owns).fab = _
    unfold State.clearAnswers
    dsimp only
    rw [hs.fab, hfab]
  · refine ⟨?_, ?_, ?_, ?_, ?_⟩
    · show s2.grids = s.grids
      rw [hs.grids, hnote]
      rfl
    · show s2.cp = s.cp
      rw [hs.cp, hnote]
      rfl
    · show s2.regs = s.regs
      rw [hs.regs, hnote]
      rfl
    · show s2.hub = s.hub
      rw [hs.hub, hnote]
      rfl
    · show s2.sched = s.sched
      rw [hs.sched, hnote]
      rfl

/-- Only what the lanes of the instance receive matters. -/
theorem MemRetired.congr {s t : State} {c : Inst} {m : Mods} {act : LaneMask} {res res' : Nat → LaneOut}
    (h : MemRetired s t c m act res) (hr : ∀ l, c.mask.getLsbD l = true → res l = res' l)
    (ha : ∀ l, act.getLsbD l = true → c.mask.getLsbD l = true) : MemRetired s t c m act res' := by
  refine ⟨?_, h.others, ?_, h.groups, h.teams, h.fab, h.rest⟩
  · intro l hm hl
    rw [← hr l hm]
    exact h.lanes l hm hl
  · rw [h.group, raisedFlags_congr _ _ act res res' (fun _ => rfl) fun l hl => hr l (ha l hl)]

/-- A run whose lanes leave the state as it is. -/
theorem run_same (op : MemOp) (xs : List (Nat × LaneAcc)) (s : State) (out : Nat × LaneAcc → LaneOut)
    (h : ∀ x ∈ xs, op.perform x.1 x.2.keys s = (s, out x)) : op.run xs s = (s, xs.map fun x => (x.1, out x)) := by
  unfold MemOp.run
  have : ∀ (xs : List (Nat × LaneAcc)) (acc : List (Nat × LaneOut)), (∀ x ∈ xs, op.perform x.1 x.2.keys s = (s, out x)) →
      xs.foldl (fun acc x => ((op.perform x.1 x.2.keys acc.1).1, acc.2 ++ [(x.1, (op.perform x.1 x.2.keys acc.1).2)])) (s, acc) =
      (s, acc ++ xs.map fun x => (x.1, out x)) := by
    intro xs
    induction xs with
    | nil => intro acc _; simp
    | cons x xs ih =>
      intro acc h
      rw [List.foldl_cons]
      simp only [h x List.mem_cons_self]
      rw [ih _ fun y hy => h y (List.mem_cons_of_mem _ hy)]
      simp
  simpa using this xs [] h

/-- What a lane receives when the outcomes are listed by lane. -/
theorem given_map (op : MemOp) (ls : List Nat) (f : Nat → LaneOut) (l : Nat) :
    op.given (ls.map fun l => (l, f l)) l = if l ∈ ls then f l else zeroPushes op.pushes := by
  unfold MemOp.given
  induction ls with
  | nil => rfl
  | cons a ls ih =>
    rw [List.map_cons, List.find?_cons]
    by_cases h : a = l
    · subst h
      simp
    · have : (a == l) = false := by simpa using h
      simp only [this]
      rw [ih]
      simp [Ne.symm h]

end Sys2Proof.Machine
end

