-- ==== Sys2Proof/Laws/Encode.lean ====
section
/-! SUPPORT. The fields of a packed word are those it was packed from (spec 05 Table 5-1). -/

namespace Sys2Proof

-- one theorem at a time
set_option Elab.async false

/-! ## Fields of appended bit vectors -/

theorem extract_append_hi {m n s t : Nat} (x : BitVec m) (y : BitVec n) (w : Nat) (h : s = t + n) :
    (x ++ y).extractLsb' s w = x.extractLsb' t w := by
  subst h
  apply BitVec.eq_of_getLsbD_eq
  intro i hi
  have h1 : ¬ t + n + i < n := by omega
  have h2 : t + n + i - n = t + i := by omega
  simp [BitVec.getLsbD_extractLsb', BitVec.getLsbD_append, h1, h2]

theorem extract_append_lo {m n : Nat} (x : BitVec m) (y : BitVec n) (s w : Nat) (h : s + w ≤ n) :
    (x ++ y).extractLsb' s w = y.extractLsb' s w := by
  apply BitVec.eq_of_getLsbD_eq
  intro i hi
  have h1 : s + i < n := by omega
  simp [BitVec.getLsbD_extractLsb', BitVec.getLsbD_append, h1]

theorem getLsbD_append_hi {m n s t : Nat} (x : BitVec m) (y : BitVec n) (h : s = t + n) :
    (x ++ y).getLsbD s = x.getLsbD t := by
  subst h
  simp [BitVec.getLsbD_append]

/-! ## Words of each format -/

@[simp] theorem majorOf_packV3 (maj : BitVec 6) (min : BitVec 4) (f : V3) (c : Bool) : majorOf (packV3 maj min f c) = maj := by
  simp only [majorOf, packV3, packTop]
  rw [extract_append_hi (m := 28) (n := 4) (s := 25) (t := 21) _ _ 6 rfl, extract_append_hi (m := 25) (n := 3) (s := 21) (t := 18) _ _ 6 rfl, extract_append_hi (m := 19) (n := 6) (s := 18) (t := 12) _ _ 6 rfl, extract_append_hi (m := 13) (n := 6) (s := 12) (t := 6) _ _ 6 rfl, extract_append_hi (m := 7) (n := 6) (s := 6) (t := 0) _ _ 6 rfl, extract_append_lo (m := 1) (n := 6) _ _ 0 6 (by decide)]
  exact BitVec.extractLsb'_eq_self

@[simp] theorem minorOf_packV3 (maj : BitVec 6) (min : BitVec 4) (f : V3) (c : Bool) : minorOf (packV3 maj min f c) = min := by
  simp only [minorOf, packV3, packTop]
  rw [extract_append_lo (m := 28) (n := 4) _ _ 0 4 (by decide)]
  exact BitVec.extractLsb'_eq_self

@[simp] theorem unpackV3_packV3 (maj : BitVec 6) (min : BitVec 4) (f : V3) (c : Bool) : unpackV3 (packV3 maj min f c) = f := by
  have h0 : (packV3 maj min f c).extractLsb' 19 6 = f.d := by
    simp only [packV3, packTop]
    rw [extract_append_hi (m := 28) (n := 4) (s := 19) (t := 15) _ _ 6 rfl, extract_append_hi (m := 25) (n := 3) (s := 15) (t := 12) _ _ 6 rfl, extract_append_hi (m := 19) (n := 6) (s := 12) (t := 6) _ _ 6 rfl, extract_append_hi (m := 13) (n := 6) (s := 6) (t := 0) _ _ 6 rfl, extract_append_lo (m := 7) (n := 6) _ _ 0 6 (by decide)]
    exact BitVec.extractLsb'_eq_self
  have h1 : (packV3 maj min f c).extractLsb' 13 6 = f.a := by
    simp only [packV3, packTop]
    rw [extract_append_hi (m := 28) (n := 4) (s := 13) (t := 9) _ _ 6 rfl, extract_append_hi (m := 25) (n := 3) (s := 9) (t := 6) _ _ 6 rfl, extract_append_hi (m := 19) (n := 6) (s := 6) (t := 0) _ _ 6 rfl, extract_append_lo (m := 13) (n := 6) _ _ 0 6 (by decide)]
    exact BitVec.extractLsb'_eq_self
  have h2 : (packV3 maj min f c).extractLsb' 7 6 = f.b := by
    simp only [packV3, packTop]
    rw [extract_append_hi (m := 28) (n := 4) (s := 7) (t := 3) _ _ 6 rfl, extract_append_hi (m := 25) (n := 3) (s := 3) (t := 0) _ _ 6 rfl, extract_append_lo (m := 19) (n := 6) _ _ 0 6 (by decide)]
    exact BitVec.extractLsb'_eq_self
  have h3 : (packV3 maj min f c).extractLsb' 4 3 = f.g := by
    simp only [packV3, packTop]
    rw [extract_append_hi (m := 28) (n := 4) (s := 4) (t := 0) _ _ 3 rfl, extract_append_lo (m := 25) (n := 3) _ _ 0 3 (by decide)]
    exact BitVec.extractLsb'_eq_self
  unfold unpackV3
  rw [h0, h1, h2, h3]

@[simp] theorem chainOf_packV3 (maj : BitVec 6) (min : BitVec 4) (f : V3) (c : Bool) : chainOf (packV3 maj min f c) = c := by
  simp only [chainOf, packV3, packTop]
  rw [getLsbD_append_hi (m := 28) (n := 4) (s := 31) (t := 27) _ _ rfl, getLsbD_append_hi (m := 25) (n := 3) (s := 27) (t := 24) _ _ rfl, getLsbD_append_hi (m := 19) (n := 6) (s := 24) (t := 18) _ _ rfl, getLsbD_append_hi (m := 13) (n := 6) (s := 18) (t := 12) _ _ rfl, getLsbD_append_hi (m := 7) (n := 6) (s := 12) (t := 6) _ _ rfl, getLsbD_append_hi (m := 1) (n := 6) (s := 6) (t := 0) _ _ rfl]
  cases c <;> rfl

@[simp] theorem majorOf_packV4 (maj : BitVec 6) (min : BitVec 4) (f : V4) (c : Bool) : majorOf (packV4 maj min f c) = maj := by
  simp only [majorOf, packV4, packTop]
  rw [extract_append_hi (m := 28) (n := 4) (s := 25) (t := 21) _ _ 6 rfl, extract_append_hi (m := 25) (n := 3) (s := 21) (t := 18) _ _ 6 rfl, extract_append_hi (m := 19) (n := 6) (s := 18) (t := 12) _ _ 6 rfl, extract_append_hi (m := 13) (n := 6) (s := 12) (t := 6) _ _ 6 rfl, extract_append_hi (m := 7) (n := 6) (s := 6) (t := 0) _ _ 6 rfl, extract_append_lo (m := 1) (n := 6) _ _ 0 6 (by decide)]
  exact BitVec.extractLsb'_eq_self

@[simp] theorem minorOf_packV4 (maj : BitVec 6) (min : BitVec 4) (f : V4) (c : Bool) : minorOf (packV4 maj min f c) = min := by
  simp only [minorOf, packV4, packTop]
  rw [extract_append_lo (m := 28) (n := 4) _ _ 0 4 (by decide)]
  exact BitVec.extractLsb'_eq_self

@[simp] theorem unpackV4_packV4 (maj : BitVec 6) (min : BitVec 4) (f : V4) (c : Bool) : unpackV4 (packV4 maj min f c) = f := by
  have h0 : (packV4 maj min f c).extractLsb' 19 6 = f.a := by
    simp only [packV4, packTop]
    rw [extract_append_hi (m := 28) (n := 4) (s := 19) (t := 15) _ _ 6 rfl, extract_append_hi (m := 25) (n := 3) (s := 15) (t := 12) _ _ 6 rfl, extract_append_hi (m := 19) (n := 6) (s := 12) (t := 6) _ _ 6 rfl, extract_append_hi (m := 13) (n := 6) (s := 6) (t := 0) _ _ 6 rfl, extract_append_lo (m := 7) (n := 6) _ _ 0 6 (by decide)]
    exact BitVec.extractLsb'_eq_self
  have h1 : (packV4 maj min f c).extractLsb' 13 6 = f.b := by
    simp only [packV4, packTop]
    rw [extract_append_hi (m := 28) (n := 4) (s := 13) (t := 9) _ _ 6 rfl, extract_append_hi (m := 25) (n := 3) (s := 9) (t := 6) _ _ 6 rfl, extract_append_hi (m := 19) (n := 6) (s := 6) (t := 0) _ _ 6 rfl, extract_append_lo (m := 13) (n := 6) _ _ 0 6 (by decide)]
    exact BitVec.extractLsb'_eq_self
  have h2 : (packV4 maj min f c).extractLsb' 7 6 = f.c := by
    simp only [packV4, packTop]
    rw [extract_append_hi (m := 28) (n := 4) (s := 7) (t := 3) _ _ 6 rfl, extract_append_hi (m := 25) (n := 3) (s := 3) (t := 0) _ _ 6 rfl, extract_append_lo (m := 19) (n := 6) _ _ 0 6 (by decide)]
    exact BitVec.extractLsb'_eq_self
  have h3 : (packV4 maj min f c).extractLsb' 4 3 = f.g := by
    simp only [packV4, packTop]
    rw [extract_append_hi (m := 28) (n := 4) (s := 4) (t := 0) _ _ 3 rfl, extract_append_lo (m := 25) (n := 3) _ _ 0 3 (by decide)]
    exact BitVec.extractLsb'_eq_self
  unfold unpackV4
  rw [h0, h1, h2, h3]

@[simp] theorem chainOf_packV4 (maj : BitVec 6) (min : BitVec 4) (f : V4) (c : Bool) : chainOf (packV4 maj min f c) = c := by
  simp only [chainOf, packV4, packTop]
  rw [getLsbD_append_hi (m := 28) (n := 4) (s := 31) (t := 27) _ _ rfl, getLsbD_append_hi (m := 25) (n := 3) (s := 27) (t := 24) _ _ rfl, getLsbD_append_hi (m := 19) (n := 6) (s := 24) (t := 18) _ _ rfl, getLsbD_append_hi (m := 13) (n := 6) (s := 18) (t := 12) _ _ rfl, getLsbD_append_hi (m := 7) (n := 6) (s := 12) (t := 6) _ _ rfl, getLsbD_append_hi (m := 1) (n := 6) (s := 6) (t := 0) _ _ rfl]
  cases c <;> rfl

@[simp] theorem majorOf_packS (maj : BitVec 6) (min : BitVec 4) (f : FS) (c : Bool) : majorOf (packS maj min f c) = maj := by
  simp only [majorOf, packS, packTop]
  rw [extract_append_hi (m := 28) (n := 4) (s := 25) (t := 21) _ _ 6 rfl, extract_append_hi (m := 23) (n := 5) (s := 21) (t := 16) _ _ 6 rfl, extract_append_hi (m := 17) (n := 6) (s := 16) (t := 10) _ _ 6 rfl, extract_append_hi (m := 12) (n := 5) (s := 10) (t := 5) _ _ 6 rfl, extract_append_hi (m := 7) (n := 5) (s := 5) (t := 0) _ _ 6 rfl, extract_append_lo (m := 1) (n := 6) _ _ 0 6 (by decide)]
  exact BitVec.extractLsb'_eq_self

@[simp] theorem minorOf_packS (maj : BitVec 6) (min : BitVec 4) (f : FS) (c : Bool) : minorOf (packS maj min f c) = min := by
  simp only [minorOf, packS, packTop]
  rw [extract_append_lo (m := 28) (n := 4) _ _ 0 4 (by decide)]
  exact BitVec.extractLsb'_eq_self

@[simp] theorem unpackS_packS (maj : BitVec 6) (min : BitVec 4) (f : FS) (c : Bool) : unpackS (packS maj min f c) = f := by
  have h0 : (packS maj min f c).extractLsb' 20 5 = f.sd := by
    simp only [packS, packTop]
    rw [extract_append_hi (m := 28) (n := 4) (s := 20) (t := 16) _ _ 5 rfl, extract_append_hi (m := 23) (n := 5) (s := 16) (t := 11) _ _ 5 rfl, extract_append_hi (m := 17) (n := 6) (s := 11) (t := 5) _ _ 5 rfl, extract_append_hi (m := 12) (n := 5) (s := 5) (t := 0) _ _ 5 rfl, extract_append_lo (m := 7) (n := 5) _ _ 0 5 (by decide)]
    exact BitVec.extractLsb'_eq_self
  have h1 : (packS maj min f c).extractLsb' 15 5 = f.sa := by
    simp only [packS, packTop]
    rw [extract_append_hi (m := 28) (n := 4) (s := 15) (t := 11) _ _ 5 rfl, extract_append_hi (m := 23) (n := 5) (s := 11) (t := 6) _ _ 5 rfl, extract_append_hi (m := 17) (n := 6) (s := 6) (t := 0) _ _ 5 rfl, extract_append_lo (m := 12) (n := 5) _ _ 0 5 (by decide)]
    exact BitVec.extractLsb'_eq_self
  have h2 : (packS maj min f c).extractLsb' 9 6 = f.sb := by
    simp only [packS, packTop]
    rw [extract_append_hi (m := 28) (n := 4) (s := 9) (t := 5) _ _ 6 rfl, extract_append_hi (m := 23) (n := 5) (s := 5) (t := 0) _ _ 6 rfl, extract_append_lo (m := 17) (n := 6) _ _ 0 6 (by decide)]
    exact BitVec.extractLsb'_eq_self
  have h3 : (packS maj min f c).extractLsb' 4 5 = f.sx := by
    simp only [packS, packTop]
    rw [extract_append_hi (m := 28) (n := 4) (s := 4) (t := 0) _ _ 5 rfl, extract_append_lo (m := 23) (n := 5) _ _ 0 5 (by decide)]
    exact BitVec.extractLsb'_eq_self
  unfold unpackS
  rw [h0, h1, h2, h3]

@[simp] theorem chainOf_packS (maj : BitVec 6) (min : BitVec 4) (f : FS) (c : Bool) : chainOf (packS maj min f c) = c := by
  simp only [chainOf, packS, packTop]
  rw [getLsbD_append_hi (m := 28) (n := 4) (s := 31) (t := 27) _ _ rfl, getLsbD_append_hi (m := 23) (n := 5) (s := 27) (t := 22) _ _ rfl, getLsbD_append_hi (m := 17) (n := 6) (s := 22) (t := 16) _ _ rfl, getLsbD_append_hi (m := 12) (n := 5) (s := 16) (t := 11) _ _ rfl, getLsbD_append_hi (m := 7) (n := 5) (s := 11) (t := 6) _ _ rfl, getLsbD_append_hi (m := 1) (n := 6) (s := 6) (t := 0) _ _ rfl]
  cases c <;> rfl

@[simp] theorem majorOf_packB (maj : BitVec 6) (min : BitVec 4) (f : FB) (c : Bool) : majorOf (packB maj min f c) = maj := by
  simp only [majorOf, packB, packTop]
  rw [extract_append_hi (m := 28) (n := 4) (s := 25) (t := 21) _ _ 6 rfl, extract_append_hi (m := 11) (n := 17) (s := 21) (t := 4) _ _ 6 rfl, extract_append_hi (m := 8) (n := 3) (s := 4) (t := 1) _ _ 6 rfl, extract_append_hi (m := 7) (n := 1) (s := 1) (t := 0) _ _ 6 rfl, extract_append_lo (m := 1) (n := 6) _ _ 0 6 (by decide)]
  exact BitVec.extractLsb'_eq_self

@[simp] theorem minorOf_packB (maj : BitVec 6) (min : BitVec 4) (f : FB) (c : Bool) : minorOf (packB maj min f c) = min := by
  simp only [minorOf, packB, packTop]
  rw [extract_append_lo (m := 28) (n := 4) _ _ 0 4 (by decide)]
  exact BitVec.extractLsb'_eq_self

@[simp] theorem unpackB_packB (maj : BitVec 6) (min : BitVec 4) (f : FB) (c : Bool) : unpackB (packB maj min f c) = f := by
  have h0 : (packB maj min f c).extractLsb' 24 1 = f.gn := by
    simp only [packB, packTop]
    rw [extract_append_hi (m := 28) (n := 4) (s := 24) (t := 20) _ _ 1 rfl, extract_append_hi (m := 11) (n := 17) (s := 20) (t := 3) _ _ 1 rfl, extract_append_hi (m := 8) (n := 3) (s := 3) (t := 0) _ _ 1 rfl, extract_append_lo (m := 7) (n := 1) _ _ 0 1 (by decide)]
    exact BitVec.extractLsb'_eq_self
  have h1 : (packB maj min f c).extractLsb' 21 3 = f.g := by
    simp only [packB, packTop]
    rw [extract_append_hi (m := 28) (n := 4) (s := 21) (t := 17) _ _ 3 rfl, extract_append_hi (m := 11) (n := 17) (s := 17) (t := 0) _ _ 3 rfl, extract_append_lo (m := 8) (n := 3) _ _ 0 3 (by decide)]
    exact BitVec.extractLsb'_eq_self
  have h2 : (packB maj min f c).extractLsb' 4 17 = f.off := by
    simp only [packB, packTop]
    rw [extract_append_hi (m := 28) (n := 4) (s := 4) (t := 0) _ _ 17 rfl, extract_append_lo (m := 11) (n := 17) _ _ 0 17 (by decide)]
    exact BitVec.extractLsb'_eq_self
  unfold unpackB
  rw [h0, h1, h2]

@[simp] theorem chainOf_packB (maj : BitVec 6) (min : BitVec 4) (f : FB) (c : Bool) : chainOf (packB maj min f c) = c := by
  simp only [chainOf, packB, packTop]
  rw [getLsbD_append_hi (m := 28) (n := 4) (s := 31) (t := 27) _ _ rfl, getLsbD_append_hi (m := 11) (n := 17) (s := 27) (t := 10) _ _ rfl, getLsbD_append_hi (m := 8) (n := 3) (s := 10) (t := 7) _ _ rfl, getLsbD_append_hi (m := 7) (n := 1) (s := 7) (t := 6) _ _ rfl, getLsbD_append_hi (m := 1) (n := 6) (s := 6) (t := 0) _ _ rfl]
  cases c <;> rfl

@[simp] theorem majorOf_packBrs (z : BitVec 1) (f : FBrs) (c : Bool) : majorOf (packBrs z f c) = 12 := by
  simp only [majorOf, packBrs, packTop]
  rw [extract_append_hi (m := 28) (n := 4) (s := 25) (t := 21) _ _ 6 rfl, extract_append_hi (m := 13) (n := 15) (s := 21) (t := 6) _ _ 6 rfl, extract_append_hi (m := 12) (n := 1) (s := 6) (t := 5) _ _ 6 rfl, extract_append_hi (m := 7) (n := 5) (s := 5) (t := 0) _ _ 6 rfl, extract_append_lo (m := 1) (n := 6) _ _ 0 6 (by decide)]
  exact BitVec.extractLsb'_eq_self

@[simp] theorem minorOf_packBrs (z : BitVec 1) (f : FBrs) (c : Bool) : minorOf (packBrs z f c) = 1 := by
  simp only [minorOf, packBrs, packTop]
  rw [extract_append_lo (m := 28) (n := 4) _ _ 0 4 (by decide)]
  exact BitVec.extractLsb'_eq_self

@[simp] theorem zOf_packBrs (z : BitVec 1) (f : FBrs) (c : Bool) : (packBrs z f c).extractLsb' 19 1 = z := by
  simp only [packBrs, packTop]
  rw [extract_append_hi (m := 28) (n := 4) (s := 19) (t := 15) _ _ 1 rfl, extract_append_hi (m := 13) (n := 15) (s := 15) (t := 0) _ _ 1 rfl, extract_append_lo (m := 12) (n := 1) _ _ 0 1 (by decide)]
  exact BitVec.extractLsb'_eq_self

@[simp] theorem unpackBrs_packBrs (z : BitVec 1) (f : FBrs) (c : Bool) : unpackBrs (packBrs z f c) = f := by
  have h0 : (packBrs z f c).extractLsb' 20 5 = f.sa := by
    simp only [packBrs, packTop]
    rw [extract_append_hi (m := 28) (n := 4) (s := 20) (t := 16) _ _ 5 rfl, extract_append_hi (m := 13) (n := 15) (s := 16) (t := 1) _ _ 5 rfl, extract_append_hi (m := 12) (n := 1) (s := 1) (t := 0) _ _ 5 rfl, extract_append_lo (m := 7) (n := 5) _ _ 0 5 (by decide)]
    exact BitVec.extractLsb'_eq_self
  have h1 : (packBrs z f c).extractLsb' 4 15 = f.off := by
    simp only [packBrs, packTop]
    rw [extract_append_hi (m := 28) (n := 4) (s := 4) (t := 0) _ _ 15 rfl, extract_append_lo (m := 13) (n := 15) _ _ 0 15 (by decide)]
    exact BitVec.extractLsb'_eq_self
  unfold unpackBrs
  rw [h0, h1]

@[simp] theorem chainOf_packBrs (z : BitVec 1) (f : FBrs) (c : Bool) : chainOf (packBrs z f c) = c := by
  simp only [chainOf, packBrs, packTop]
  rw [getLsbD_append_hi (m := 28) (n := 4) (s := 31) (t := 27) _ _ rfl, getLsbD_append_hi (m := 13) (n := 15) (s := 27) (t := 12) _ _ rfl, getLsbD_append_hi (m := 12) (n := 1) (s := 12) (t := 11) _ _ rfl, getLsbD_append_hi (m := 7) (n := 5) (s := 11) (t := 6) _ _ rfl, getLsbD_append_hi (m := 1) (n := 6) (s := 6) (t := 0) _ _ rfl]
  cases c <;> rfl

@[simp] theorem majorOf_packY (maj : BitVec 6) (min : BitVec 4) (f : FY) (c : Bool) : majorOf (packY maj min f c) = maj := by
  simp only [majorOf, packY, packTop]
  rw [extract_append_hi (m := 28) (n := 4) (s := 25) (t := 21) _ _ 6 rfl, extract_append_hi (m := 19) (n := 9) (s := 21) (t := 12) _ _ 6 rfl, extract_append_hi (m := 13) (n := 6) (s := 12) (t := 6) _ _ 6 rfl, extract_append_hi (m := 7) (n := 6) (s := 6) (t := 0) _ _ 6 rfl, extract_append_lo (m := 1) (n := 6) _ _ 0 6 (by decide)]
  exact BitVec.extractLsb'_eq_self

@[simp] theorem minorOf_packY (maj : BitVec 6) (min : BitVec 4) (f : FY) (c : Bool) : minorOf (packY maj min f c) = min := by
  simp only [minorOf, packY, packTop]
  rw [extract_append_lo (m := 28) (n := 4) _ _ 0 4 (by decide)]
  exact BitVec.extractLsb'_eq_self

@[simp] theorem unpackY_packY (maj : BitVec 6) (min : BitVec 4) (f : FY) (c : Bool) : unpackY (packY maj min f c) = f := by
  have h0 : (packY maj min f c).extractLsb' 19 6 = f.d := by
    simp only [packY, packTop]
    rw [extract_append_hi (m := 28) (n := 4) (s := 19) (t := 15) _ _ 6 rfl, extract_append_hi (m := 19) (n := 9) (s := 15) (t := 6) _ _ 6 rfl, extract_append_hi (m := 13) (n := 6) (s := 6) (t := 0) _ _ 6 rfl, extract_append_lo (m := 7) (n := 6) _ _ 0 6 (by decide)]
    exact BitVec.extractLsb'_eq_self
  have h1 : (packY maj min f c).extractLsb' 13 6 = f.a := by
    simp only [packY, packTop]
    rw [extract_append_hi (m := 28) (n := 4) (s := 13) (t := 9) _ _ 6 rfl, extract_append_hi (m := 19) (n := 9) (s := 9) (t := 0) _ _ 6 rfl, extract_append_lo (m := 13) (n := 6) _ _ 0 6 (by decide)]
    exact BitVec.extractLsb'_eq_self
  have h2 : (packY maj min f c).extractLsb' 4 9 = f.n := by
    simp only [packY, packTop]
    rw [extract_append_hi (m := 28) (n := 4) (s := 4) (t := 0) _ _ 9 rfl, extract_append_lo (m := 19) (n := 9) _ _ 0 9 (by decide)]
    exact BitVec.extractLsb'_eq_self
  unfold unpackY
  rw [h0, h1, h2]

@[simp] theorem chainOf_packY (maj : BitVec 6) (min : BitVec 4) (f : FY) (c : Bool) : chainOf (packY maj min f c) = c := by
  simp only [chainOf, packY, packTop]
  rw [getLsbD_append_hi (m := 28) (n := 4) (s := 31) (t := 27) _ _ rfl, getLsbD_append_hi (m := 19) (n := 9) (s := 27) (t := 18) _ _ rfl, getLsbD_append_hi (m := 13) (n := 6) (s := 18) (t := 12) _ _ rfl, getLsbD_append_hi (m := 7) (n := 6) (s := 12) (t := 6) _ _ rfl, getLsbD_append_hi (m := 1) (n := 6) (s := 6) (t := 0) _ _ rfl]
  cases c <;> rfl
/-- The bit that tells BRS.z from BRS.nz. -/
theorem getLsbD19_packBrs (z : BitVec 1) (f : FBrs) (c : Bool) : (packBrs z f c).getLsbD 19 = z.getLsbD 0 := by
  simp only [packBrs, packTop]
  rw [getLsbD_append_hi (m := 28) (n := 4) (s := 19) (t := 15) _ _ rfl,
    getLsbD_append_hi (m := 13) (n := 15) (s := 15) (t := 0) _ _ rfl]
  exact (BitVec.getLsbD_append (x := (BitVec.ofBool c ++ (12 : BitVec 6)) ++ f.sa) (y := z)).trans (by simp)

/-! ## Extension words -/

@[simp] theorem majorOf_packExt (e : Ext) : majorOf (packExt e) = 63 := by
  simp only [majorOf, packExt, packTop]
  rw [extract_append_hi (m := 28) (n := 4) (s := 25) (t := 21) _ _ 6 rfl,
    extract_append_hi (m := 12) (n := 16) (s := 21) (t := 5) _ _ 6 rfl,
    extract_append_hi (m := 11) (n := 1) (s := 5) (t := 4) _ _ 6 rfl,
    extract_append_hi (m := 8) (n := 3) (s := 4) (t := 1) _ _ 6 rfl,
    extract_append_hi (m := 7) (n := 1) (s := 1) (t := 0) _ _ 6 rfl, extract_append_lo (m := 1) (n := 6) _ _ 0 6 (by decide)]
  exact BitVec.extractLsb'_eq_self

@[simp] theorem unpackExt_packExt (e : Ext) : unpackExt (packExt e) = e := by
  have hc : chainOf (packExt e) = e.chain := by
    simp only [chainOf, packExt, packTop]
    rw [getLsbD_append_hi (m := 28) (n := 4) (s := 31) (t := 27) _ _ rfl,
      getLsbD_append_hi (m := 12) (n := 16) (s := 27) (t := 11) _ _ rfl,
      getLsbD_append_hi (m := 11) (n := 1) (s := 11) (t := 10) _ _ rfl,
      getLsbD_append_hi (m := 8) (n := 3) (s := 10) (t := 7) _ _ rfl,
      getLsbD_append_hi (m := 7) (n := 1) (s := 7) (t := 6) _ _ rfl,
      getLsbD_append_hi (m := 1) (n := 6) (s := 6) (t := 0) _ _ rfl]
    cases e.chain <;> rfl
  have hg : (packExt e).getLsbD 24 = e.gn := by
    simp only [packExt, packTop]
    rw [getLsbD_append_hi (m := 28) (n := 4) (s := 24) (t := 20) _ _ rfl,
      getLsbD_append_hi (m := 12) (n := 16) (s := 20) (t := 4) _ _ rfl,
      getLsbD_append_hi (m := 11) (n := 1) (s := 4) (t := 3) _ _ rfl,
      getLsbD_append_hi (m := 8) (n := 3) (s := 3) (t := 0) _ _ rfl]
    cases e.gn <;> cases e.chain <;> rfl
  have h3 : (packExt e).extractLsb' 21 3 = e.mod3 := by
    simp only [packExt, packTop]
    rw [extract_append_hi (m := 28) (n := 4) (s := 21) (t := 17) _ _ 3 rfl,
      extract_append_hi (m := 12) (n := 16) (s := 17) (t := 1) _ _ 3 rfl,
      extract_append_hi (m := 11) (n := 1) (s := 1) (t := 0) _ _ 3 rfl,
      extract_append_lo (m := 8) (n := 3) _ _ 0 3 (by decide)]
    exact BitVec.extractLsb'_eq_self
  have h1 : (packExt e).extractLsb' 20 1 = e.mod1 := by
    simp only [packExt, packTop]
    rw [extract_append_hi (m := 28) (n := 4) (s := 20) (t := 16) _ _ 1 rfl,
      extract_append_hi (m := 12) (n := 16) (s := 16) (t := 0) _ _ 1 rfl,
      extract_append_lo (m := 11) (n := 1) _ _ 0 1 (by decide)]
    exact BitVec.extractLsb'_eq_self
  have hi : (packExt e).extractLsb' 4 16 = e.imm16 := by
    simp only [packExt, packTop]
    rw [extract_append_hi (m := 28) (n := 4) (s := 4) (t := 0) _ _ 16 rfl,
      extract_append_lo (m := 12) (n := 16) _ _ 0 16 (by decide)]
    exact BitVec.extractLsb'_eq_self
  have hx : (packExt e).extractLsb' 0 4 = e.xop := by
    simp only [packExt, packTop]
    rw [extract_append_lo (m := 28) (n := 4) _ _ 0 4 (by decide)]
    exact BitVec.extractLsb'_eq_self
  unfold unpackExt
  rw [hc, hg, h3, h1, hi, hx]

end Sys2Proof
end

