-- ==== Sys2Proof/Laws/PerInstr.lean ====
section
/-! SUPPORT. Per instruction: the decoder reads an instruction's own word as that instruction, with every field at every value
(spec 05 Tables 5-1 and 5-5). An event has no word. -/

namespace Sys2Proof.Laws.WordRoundTrip

-- one theorem at a time
set_option Elab.async false

/-- An instruction's word, read with the words around it, is that instruction. -/
def Statement (i : Instr) : Prop := ∀ w m, i.word = some w → i.mods = some m → decodeWord w m = some i

/-- An instruction with no word. -/
theorem of_none {i : Instr} (h : i.word = none) : Statement i := by
  intro w m hw
  rw [h] at hw
  cases hw

/-- An instruction whose word and surroundings are known. -/
theorem of_some {i : Instr} {w : W32} {m : Mods} (hw : i.word = some w) (hm : i.mods = some m)
    (h : decodeWord w m = some i) : Statement i := by
  intro w' m' hw' hm'
  rw [hw] at hw'
  rw [hm] at hm'
  cases hw'
  cases hm'
  exact h

theorem bits2 (h : BitVec 2) : h = 0 ∨ h = 1 ∨ h = 2 ∨ h = 3 := by
  revert h
  decide

theorem qwriteWrite x0 x1 : Statement (.qwriteWrite x0 x1) := of_none rfl
theorem queueDisable x0 x1 : Statement (.queueDisable x0 x1) := of_none rfl
theorem segrelGo x0 x1 : Statement (.segrelGo x0 x1) := of_none rfl
theorem readLaunchPacket x0 : Statement (.readLaunchPacket x0) := of_none rfl
theorem beginDispatch : Statement (.beginDispatch) := of_none rfl
theorem dispatchTeam x0 : Statement (.dispatchTeam x0) := of_none rfl
theorem releaseTimeReached x0 : Statement (.releaseTimeReached x0) := of_none rfl
theorem deadlineReached x0 : Statement (.deadlineReached x0) := of_none rfl
theorem deadlinePreemptRequest x0 : Statement (.deadlinePreemptRequest x0) := of_none rfl
theorem replayLaunchPacket x0 : Statement (.replayLaunchPacket x0) := of_none rfl
theorem gridComplete x0 : Statement (.gridComplete x0) := of_none rfl
theorem teamEnd x0 : Statement (.teamEnd x0) := of_none rfl
theorem fetchPacket : Statement (.fetchPacket) := of_none rfl
theorem groupSwitchIn x0 x1 : Statement (.groupSwitchIn x0 x1) := of_none rfl
theorem asyncTrapDelivery x0 x1 : Statement (.asyncTrapDelivery x0 x1) := of_none rfl
theorem syncTimeout x0 x1 x2 : Statement (.syncTimeout x0 x1 x2) := of_none rfl
theorem yieldExpire x0 x1 x2 : Statement (.yieldExpire x0 x1 x2) := of_none rfl
theorem faultRecordDeliver : Statement (.faultRecordDeliver) := of_none rfl
theorem fqreadWrite x0 : Statement (.fqreadWrite x0) := of_none rfl
theorem fqbaseWrite x0 : Statement (.fqbaseWrite x0) := of_none rfl
theorem fresolveMapped x0 : Statement (.fresolveMapped x0) := of_none rfl
theorem fresolveUnresolvable x0 : Statement (.fresolveUnresolvable x0) := of_none rfl
theorem invcmdPage x0 : Statement (.invcmdPage x0) := of_none rfl
theorem invcmdContext x0 : Statement (.invcmdContext x0) := of_none rfl
theorem invcmdAll x0 : Statement (.invcmdAll x0) := of_none rfl
theorem invalidationDone : Statement (.invalidationDone) := of_none rfl
theorem migreqGo x0 : Statement (.migreqGo x0) := of_none rfl
theorem holdExpire x0 x1 : Statement (.holdExpire x0 x1) := of_none rfl
theorem fabricReadShared x0 : Statement (.fabricReadShared x0) := of_none rfl
theorem fabricReadExclusive x0 : Statement (.fabricReadExclusive x0) := of_none rfl
theorem fabricUpgrade x0 : Statement (.fabricUpgrade x0) := of_none rfl
theorem fabricWriteback x0 : Statement (.fabricWriteback x0) := of_none rfl
theorem fabricEvictNotice x0 : Statement (.fabricEvictNotice x0) := of_none rfl
theorem fabricInvalidate x0 : Statement (.fabricInvalidate x0) := of_none rfl
theorem fabricRecall x0 : Statement (.fabricRecall x0) := of_none rfl
theorem fabricInvalAck x0 x1 x2 : Statement (.fabricInvalAck x0 x1 x2) := of_none rfl
theorem fabricAtomic x0 x1 : Statement (.fabricAtomic x0 x1) := of_none rfl
theorem fabricResponse x0 x1 : Statement (.fabricResponse x0 x1) := of_none rfl
theorem fabricTimeout x0 : Statement (.fabricTimeout x0) := of_none rfl
theorem fabricRequestArrival x0 x1 x2 x3 : Statement (.fabricRequestArrival x0 x1 x2 x3) := of_none rfl
theorem flowPause x0 x1 : Statement (.flowPause x0 x1) := of_none rfl
theorem flowResume x0 x1 : Statement (.flowResume x0 x1) := of_none rfl
theorem replayEvent x0 x1 : Statement (.replayEvent x0 x1) := of_none rfl
theorem linkNak x0 x1 : Statement (.linkNak x0 x1) := of_none rfl
theorem linkAck x0 x1 : Statement (.linkAck x0 x1) := of_none rfl
theorem laneLoss x0 x1 : Statement (.laneLoss x0 x1) := of_none rfl
theorem linkRetrainDone x0 : Statement (.linkRetrainDone x0) := of_none rfl
theorem keyInstall x0 : Statement (.keyInstall x0) := of_none rfl
theorem keyClearFlit x0 : Statement (.keyClearFlit x0) := of_none rfl
theorem linkTraining x0 x1 x2 x3 : Statement (.linkTraining x0 x1 x2 x3) := of_none rfl
theorem routedataWrite x0 : Statement (.routedataWrite x0) := of_none rfl
theorem matrixOpStart x0 x1 : Statement (.matrixOpStart x0 x1) := of_none rfl
theorem matrixKgroup x0 x1 : Statement (.matrixKgroup x0 x1) := of_none rfl
theorem mloadRow x0 x1 : Statement (.mloadRow x0 x1) := of_none rfl
theorem drainBlock x0 x1 : Statement (.drainBlock x0 x1) := of_none rfl
theorem updateBlock x0 x1 : Statement (.updateBlock x0 x1) := of_none rfl
theorem cardItemStart x0 : Statement (.cardItemStart x0) := of_none rfl
theorem cardLineWrite x0 : Statement (.cardLineWrite x0) := of_none rfl
theorem cardItemEnd x0 : Statement (.cardItemEnd x0) := of_none rfl
theorem rasterWalk x0 : Statement (.rasterWalk x0) := of_none rfl
theorem vertexGradientContrib x0 x1 : Statement (.vertexGradientContrib x0 x1) := of_none rfl
theorem edgeSample x0 : Statement (.edgeSample x0) := of_none rfl
theorem vaccmdGo x0 : Statement (.vaccmdGo x0) := of_none rfl
theorem vacate : Statement (.vacate) := of_none rfl
theorem ctxcmdGo x0 : Statement (.ctxcmdGo x0) := of_none rfl
theorem eccCorrection x0 x1 x2 x3 : Statement (.eccCorrection x0 x1 x2 x3) := of_none rfl
theorem poisonLine x0 x1 x2 : Statement (.poisonLine x0 x1 x2) := of_none rfl
theorem stateError x0 : Statement (.stateError x0) := of_none rfl
theorem deviceError x0 : Statement (.deviceError x0) := of_none rfl
theorem deviceReset : Statement (.deviceReset) := of_none rfl
theorem powerOnReset : Statement (.powerOnReset) := of_none rfl
theorem fwcmdGo : Statement (.fwcmdGo) := of_none rfl
theorem fwcmdReset : Statement (.fwcmdReset) := of_none rfl
theorem spdmGetMeasurements x0 : Statement (.spdmGetMeasurements x0) := of_none rfl
theorem spdmChallenge x0 : Statement (.spdmChallenge x0) := of_none rfl
theorem spdmSecuredSession x0 : Statement (.spdmSecuredSession x0) := of_none rfl
theorem fabricBringup x0 x1 : Statement (.fabricBringup x0 x1) := of_none rfl
theorem bar2Access x0 x1 x2 : Statement (.bar2Access x0 x1 x2) := of_none rfl
theorem bar0UnmappedAccess x0 x1 : Statement (.bar0UnmappedAccess x0 x1) := of_none rfl
theorem ptpMessage x0 : Statement (.ptpMessage x0) := of_none rfl
theorem ptmRequest : Statement (.ptmRequest) := of_none rfl
theorem ppsEdge : Statement (.ppsEdge) := of_none rfl
theorem holdoverTimeout : Statement (.holdoverTimeout) := of_none rfl
theorem ppsLossTimeout : Statement (.ppsLossTimeout) := of_none rfl
theorem timectlSrcWrite x0 : Statement (.timectlSrcWrite x0) := of_none rfl
theorem powerPredict x0 : Statement (.powerPredict x0) := of_none rfl
theorem powerRestoreStep x0 : Statement (.powerRestoreStep x0) := of_none rfl
theorem thermal105 x0 : Statement (.thermal105 x0) := of_none rfl
theorem thermal115 : Statement (.thermal115) := of_none rfl
theorem ellostRead : Statement (.ellostRead) := of_none rfl
theorem ppscountRead : Statement (.ppscountRead) := of_none rfl
theorem pwrcapnsRead : Statement (.pwrcapnsRead) := of_none rfl
theorem portstatRead x0 : Statement (.portstatRead x0) := of_none rfl
theorem registerWrite x0 x1 : Statement (.registerWrite x0 x1) := of_none rfl
theorem contextEnd x0 : Statement (.contextEnd x0) := of_none rfl
theorem cardReltimeReached x0 : Statement (.cardReltimeReached x0) := of_none rfl
theorem bulkPrefetchLine x0 : Statement (.bulkPrefetchLine x0) := of_none rfl
theorem ptmResponse x0 x1 : Statement (.ptmResponse x0 x1) := of_none rfl
theorem firmwareUpdateDone : Statement (.firmwareUpdateDone) := of_none rfl
theorem powerLoss : Statement (.powerLoss) := of_none rfl
theorem nop (f m) : Statement (.nop f m) := of_some rfl rfl (by
  simp [decodeWord, decodeMajor00])
theorem hint (h f m) : Statement (.hint h f m) := of_some rfl rfl (by
  rcases bits2 h with rfl | rfl | rfl | rfl <;> simp [decodeWord, decodeMajor00])
theorem trap (f m) : Statement (.trap f m) := of_some rfl rfl (by
  simp [decodeWord, decodeMajor00])
theorem eret (f m) : Statement (.eret f m) := of_some rfl rfl (by
  simp [decodeWord, decodeMajor00])
theorem bkpt (f m) : Statement (.bkpt f m) := of_some rfl rfl (by
  simp [decodeWord, decodeMajor00])
theorem yield (f m) : Statement (.yield f m) := of_some rfl rfl (by
  simp [decodeWord, decodeMajor00])
theorem sysrd (f m) : Statement (.sysrd f m) := of_some rfl rfl (by
  simp [decodeWord, decodeMajor00])
theorem syswr (f m) : Statement (.syswr f m) := of_some rfl rfl (by
  simp [decodeWord, decodeMajor00])
theorem sread (f m) : Statement (.sread f m) := of_some rfl rfl (by
  simp [decodeWord, decodeMajor00])
theorem regn (f m) : Statement (.regn f m) := of_some rfl rfl (by
  simp [decodeWord, decodeMajor00])
theorem iaddS32 (f m) : Statement (.iaddS32 f m) := of_some rfl rfl (by
  simp [decodeWord, decodeMajor01])
theorem isubS32 (f m) : Statement (.isubS32 f m) := of_some rfl rfl (by
  simp [decodeWord, decodeMajor01])
theorem imulS32 (f m) : Statement (.imulS32 f m) := of_some rfl rfl (by
  simp [decodeWord, decodeMajor01])
theorem imulhS32 (f m) : Statement (.imulhS32 f m) := of_some rfl rfl (by
  simp [decodeWord, decodeMajor01])
theorem idivS32 (f m) : Statement (.idivS32 f m) := of_some rfl rfl (by
  simp [decodeWord, decodeMajor01])
theorem iremS32 (f m) : Statement (.iremS32 f m) := of_some rfl rfl (by
  simp [decodeWord, decodeMajor01])
theorem iminS32 (f m) : Statement (.iminS32 f m) := of_some rfl rfl (by
  simp [decodeWord, decodeMajor01])
theorem imaxS32 (f m) : Statement (.imaxS32 f m) := of_some rfl rfl (by
  simp [decodeWord, decodeMajor01])
theorem iabsS32 (f m) : Statement (.iabsS32 f m) := of_some rfl rfl (by
  simp [decodeWord, decodeMajor01])
theorem inegS32 (f m) : Statement (.inegS32 f m) := of_some rfl rfl (by
  simp [decodeWord, decodeMajor01])
theorem shlS32 (f m) : Statement (.shlS32 f m) := of_some rfl rfl (by
  simp [decodeWord, decodeMajor01])
theorem shrS32 (f m) : Statement (.shrS32 f m) := of_some rfl rfl (by
  simp [decodeWord, decodeMajor01])
theorem sarS32 (f m) : Statement (.sarS32 f m) := of_some rfl rfl (by
  simp [decodeWord, decodeMajor01])
theorem popcS32 (f m) : Statement (.popcS32 f m) := of_some rfl rfl (by
  simp [decodeWord, decodeMajor01])
theorem clzS32 (f m) : Statement (.clzS32 f m) := of_some rfl rfl (by
  simp [decodeWord, decodeMajor01])
theorem brevS32 (f m) : Statement (.brevS32 f m) := of_some rfl rfl (by
  simp [decodeWord, decodeMajor01])
theorem iaddN32 (f m) : Statement (.iaddN32 f m) := of_some rfl rfl (by
  simp [decodeWord, decodeMajor02])
theorem isubN32 (f m) : Statement (.isubN32 f m) := of_some rfl rfl (by
  simp [decodeWord, decodeMajor02])
theorem imulN32 (f m) : Statement (.imulN32 f m) := of_some rfl rfl (by
  simp [decodeWord, decodeMajor02])
theorem imulhN32 (f m) : Statement (.imulhN32 f m) := of_some rfl rfl (by
  simp [decodeWord, decodeMajor02])
theorem idivN32 (f m) : Statement (.idivN32 f m) := of_some rfl rfl (by
  simp [decodeWord, decodeMajor02])
theorem iremN32 (f m) : Statement (.iremN32 f m) := of_some rfl rfl (by
  simp [decodeWord, decodeMajor02])
theorem iminN32 (f m) : Statement (.iminN32 f m) := of_some rfl rfl (by
  simp [decodeWord, decodeMajor02])
theorem imaxN32 (f m) : Statement (.imaxN32 f m) := of_some rfl rfl (by
  simp [decodeWord, decodeMajor02])
theorem inegN32 (f m) : Statement (.inegN32 f m) := of_some rfl rfl (by
  simp [decodeWord, decodeMajor02])
theorem shlN32 (f m) : Statement (.shlN32 f m) := of_some rfl rfl (by
  simp [decodeWord, decodeMajor02])
theorem shrN32 (f m) : Statement (.shrN32 f m) := of_some rfl rfl (by
  simp [decodeWord, decodeMajor02])
theorem popcN32 (f m) : Statement (.popcN32 f m) := of_some rfl rfl (by
  simp [decodeWord, decodeMajor02])
theorem clzN32 (f m) : Statement (.clzN32 f m) := of_some rfl rfl (by
  simp [decodeWord, decodeMajor02])
theorem brevN32 (f m) : Statement (.brevN32 f m) := of_some rfl rfl (by
  simp [decodeWord, decodeMajor02])
theorem iaddS64 (f m) : Statement (.iaddS64 f m) := of_some rfl rfl (by
  simp [decodeWord, decodeMajor03])
theorem isubS64 (f m) : Statement (.isubS64 f m) := of_some rfl rfl (by
  simp [decodeWord, decodeMajor03])
theorem imulS64 (f m) : Statement (.imulS64 f m) := of_some rfl rfl (by
  simp [decodeWord, decodeMajor03])
theorem imulhS64 (f m) : Statement (.imulhS64 f m) := of_some rfl rfl (by
  simp [decodeWord, decodeMajor03])
theorem idivS64 (f m) : Statement (.idivS64 f m) := of_some rfl rfl (by
  simp [decodeWord, decodeMajor03])
theorem iremS64 (f m) : Statement (.iremS64 f m) := of_some rfl rfl (by
  simp [decodeWord, decodeMajor03])
theorem iminS64 (f m) : Statement (.iminS64 f m) := of_some rfl rfl (by
  simp [decodeWord, decodeMajor03])
theorem imaxS64 (f m) : Statement (.imaxS64 f m) := of_some rfl rfl (by
  simp [decodeWord, decodeMajor03])
theorem iabsS64 (f m) : Statement (.iabsS64 f m) := of_some rfl rfl (by
  simp [decodeWord, decodeMajor03])
theorem inegS64 (f m) : Statement (.inegS64 f m) := of_some rfl rfl (by
  simp [decodeWord, decodeMajor03])
theorem shlS64 (f m) : Statement (.shlS64 f m) := of_some rfl rfl (by
  simp [decodeWord, decodeMajor03])
theorem shrS64 (f m) : Statement (.shrS64 f m) := of_some rfl rfl (by
  simp [decodeWord, decodeMajor03])
theorem sarS64 (f m) : Statement (.sarS64 f m) := of_some rfl rfl (by
  simp [decodeWord, decodeMajor03])
theorem popcS64 (f m) : Statement (.popcS64 f m) := of_some rfl rfl (by
  simp [decodeWord, decodeMajor03])
theorem clzS64 (f m) : Statement (.clzS64 f m) := of_some rfl rfl (by
  simp [decodeWord, decodeMajor03])
theorem brevS64 (f m) : Statement (.brevS64 f m) := of_some rfl rfl (by
  simp [decodeWord, decodeMajor03])
theorem iaddN64 (f m) : Statement (.iaddN64 f m) := of_some rfl rfl (by
  simp [decodeWord, decodeMajor04])
theorem isubN64 (f m) : Statement (.isubN64 f m) := of_some rfl rfl (by
  simp [decodeWord, decodeMajor04])
theorem imulN64 (f m) : Statement (.imulN64 f m) := of_some rfl rfl (by
  simp [decodeWord, decodeMajor04])
theorem imulhN64 (f m) : Statement (.imulhN64 f m) := of_some rfl rfl (by
  simp [decodeWord, decodeMajor04])
theorem idivN64 (f m) : Statement (.idivN64 f m) := of_some rfl rfl (by
  simp [decodeWord, decodeMajor04])
theorem iremN64 (f m) : Statement (.iremN64 f m) := of_some rfl rfl (by
  simp [decodeWord, decodeMajor04])
theorem iminN64 (f m) : Statement (.iminN64 f m) := of_some rfl rfl (by
  simp [decodeWord, decodeMajor04])
theorem imaxN64 (f m) : Statement (.imaxN64 f m) := of_some rfl rfl (by
  simp [decodeWord, decodeMajor04])
theorem inegN64 (f m) : Statement (.inegN64 f m) := of_some rfl rfl (by
  simp [decodeWord, decodeMajor04])
theorem shlN64 (f m) : Statement (.shlN64 f m) := of_some rfl rfl (by
  simp [decodeWord, decodeMajor04])
theorem shrN64 (f m) : Statement (.shrN64 f m) := of_some rfl rfl (by
  simp [decodeWord, decodeMajor04])
theorem popcN64 (f m) : Statement (.popcN64 f m) := of_some rfl rfl (by
  simp [decodeWord, decodeMajor04])
theorem clzN64 (f m) : Statement (.clzN64 f m) := of_some rfl rfl (by
  simp [decodeWord, decodeMajor04])
theorem brevN64 (f m) : Statement (.brevN64 f m) := of_some rfl rfl (by
  simp [decodeWord, decodeMajor04])
theorem iaddS16X2 (f m) : Statement (.iaddS16X2 f m) := of_some rfl rfl (by
  simp [decodeWord, decodeMajor05])
theorem isubS16X2 (f m) : Statement (.isubS16X2 f m) := of_some rfl rfl (by
  simp [decodeWord, decodeMajor05])
theorem imulS16X2 (f m) : Statement (.imulS16X2 f m) := of_some rfl rfl (by
  simp [decodeWord, decodeMajor05])
theorem iminS16X2 (f m) : Statement (.iminS16X2 f m) := of_some rfl rfl (by
  simp [decodeWord, decodeMajor05])
theorem imaxS16X2 (f m) : Statement (.imaxS16X2 f m) := of_some rfl rfl (by
  simp [decodeWord, decodeMajor05])
theorem iminN16X2 (f m) : Statement (.iminN16X2 f m) := of_some rfl rfl (by
  simp [decodeWord, decodeMajor05])
theorem imaxN16X2 (f m) : Statement (.imaxN16X2 f m) := of_some rfl rfl (by
  simp [decodeWord, decodeMajor05])
theorem iabsS16X2 (f m) : Statement (.iabsS16X2 f m) := of_some rfl rfl (by
  simp [decodeWord, decodeMajor05])
theorem inegS16X2 (f m) : Statement (.inegS16X2 f m) := of_some rfl rfl (by
  simp [decodeWord, decodeMajor05])
theorem shlB16X2 (f m) : Statement (.shlB16X2 f m) := of_some rfl rfl (by
  simp [decodeWord, decodeMajor05])
theorem shrB16X2 (f m) : Statement (.shrB16X2 f m) := of_some rfl rfl (by
  simp [decodeWord, decodeMajor05])
theorem sarS16X2 (f m) : Statement (.sarS16X2 f m) := of_some rfl rfl (by
  simp [decodeWord, decodeMajor05])
theorem icmp32 (cond f m) : Statement (.icmp32 cond f m) := of_some rfl rfl (by
  simp [decodeWord, decodeMajor06])
theorem icmp64 (cond f m) : Statement (.icmp64 cond f m) := of_some rfl rfl (by
  simp [decodeWord, decodeMajor07])
theorem movB32 (f m) : Statement (.movB32 f m) := of_some rfl rfl (by
  simp [decodeWord, decodeMajor08])
theorem movB64 (f m) : Statement (.movB64 f m) := of_some rfl rfl (by
  simp [decodeWord, decodeMajor08])
theorem movsB32 (f m) : Statement (.movsB32 f m) := of_some rfl rfl (by
  simp [decodeWord, decodeMajor08])
theorem movsB64 (f m) : Statement (.movsB64 f m) := of_some rfl rfl (by
  simp [decodeWord, decodeMajor08])
theorem mvrd (f m) : Statement (.mvrd f m) := of_some rfl rfl (by
  simp [decodeWord, decodeMajor08])
theorem leaSh0 (f m) : Statement (.leaSh0 f m) := of_some rfl rfl (by
  simp [decodeWord, decodeMajor08])
theorem leaSh1 (f m) : Statement (.leaSh1 f m) := of_some rfl rfl (by
  simp [decodeWord, decodeMajor08])
theorem leaSh2 (f m) : Statement (.leaSh2 f m) := of_some rfl rfl (by
  simp [decodeWord, decodeMajor08])
theorem leaSh3 (f m) : Statement (.leaSh3 f m) := of_some rfl rfl (by
  simp [decodeWord, decodeMajor08])
theorem bfxS32 (f m) : Statement (.bfxS32 f m) := of_some rfl rfl (by
  simp [decodeWord, decodeMajor08])
theorem bfxN32 (f m) : Statement (.bfxN32 f m) := of_some rfl rfl (by
  simp [decodeWord, decodeMajor08])
theorem bfxS64 (f m) : Statement (.bfxS64 f m) := of_some rfl rfl (by
  simp [decodeWord, decodeMajor08])
theorem bfxN64 (f m) : Statement (.bfxN64 f m) := of_some rfl rfl (by
  simp [decodeWord, decodeMajor08])
theorem imadS32 (f m) : Statement (.imadS32 f m) := of_some rfl rfl (by
  simp [decodeWord, decodeMajor09])
theorem imadN32 (f m) : Statement (.imadN32 f m) := of_some rfl rfl (by
  simp [decodeWord, decodeMajor09])
theorem imadS64 (f m) : Statement (.imadS64 f m) := of_some rfl rfl (by
  simp [decodeWord, decodeMajor09])
theorem imadN64 (f m) : Statement (.imadN64 f m) := of_some rfl rfl (by
  simp [decodeWord, decodeMajor09])
theorem logic3B32 (f m) : Statement (.logic3B32 f m) := of_some rfl rfl (by
  simp [decodeWord, decodeMajor09])
theorem logic3B64 (f m) : Statement (.logic3B64 f m) := of_some rfl rfl (by
  simp [decodeWord, decodeMajor09])
theorem fshfLB32 (f m) : Statement (.fshfLB32 f m) := of_some rfl rfl (by
  simp [decodeWord, decodeMajor09])
theorem fshfRB32 (f m) : Statement (.fshfRB32 f m) := of_some rfl rfl (by
  simp [decodeWord, decodeMajor09])
theorem bfiB32 (f m) : Statement (.bfiB32 f m) := of_some rfl rfl (by
  simp [decodeWord, decodeMajor09])
theorem bfiB64 (f m) : Statement (.bfiB64 f m) := of_some rfl rfl (by
  simp [decodeWord, decodeMajor09])
theorem selB32 (f m) : Statement (.selB32 f m) := of_some rfl rfl (by
  simp [decodeWord, decodeMajor09])
theorem selB64 (f m) : Statement (.selB64 f m) := of_some rfl rfl (by
  simp [decodeWord, decodeMajor09])
theorem mvwr (f m) : Statement (.mvwr f m) := of_some rfl rfl (by
  simp [decodeWord, decodeMajor09])
theorem plogic (f m) : Statement (.plogic f m) := of_some rfl rfl (by
  simp [decodeWord, decodeMajor0A])
theorem voteAny (f m) : Statement (.voteAny f m) := of_some rfl rfl (by
  simp [decodeWord, decodeMajor0A])
theorem voteAll (f m) : Statement (.voteAll f m) := of_some rfl rfl (by
  simp [decodeWord, decodeMajor0A])
theorem voteBallot (f m) : Statement (.voteBallot f m) := of_some rfl rfl (by
  simp [decodeWord, decodeMajor0A])
theorem sadd (f m) : Statement (.sadd f m) := of_some rfl rfl (by
  simp [decodeWord, decodeMajor0B])
theorem ssub (f m) : Statement (.ssub f m) := of_some rfl rfl (by
  simp [decodeWord, decodeMajor0B])
theorem smul (f m) : Statement (.smul f m) := of_some rfl rfl (by
  simp [decodeWord, decodeMajor0B])
theorem sand (f m) : Statement (.sand f m) := of_some rfl rfl (by
  simp [decodeWord, decodeMajor0B])
theorem sor (f m) : Statement (.sor f m) := of_some rfl rfl (by
  simp [decodeWord, decodeMajor0B])
theorem sxor (f m) : Statement (.sxor f m) := of_some rfl rfl (by
  simp [decodeWord, decodeMajor0B])
theorem sshl (f m) : Statement (.sshl f m) := of_some rfl rfl (by
  simp [decodeWord, decodeMajor0B])
theorem sshr (f m) : Statement (.sshr f m) := of_some rfl rfl (by
  simp [decodeWord, decodeMajor0B])
theorem scmp (f m) : Statement (.scmp f m) := of_some rfl rfl (by
  simp [decodeWord, decodeMajor0B])
theorem smov (f m) : Statement (.smov f m) := of_some rfl rfl (by
  simp [decodeWord, decodeMajor0B])
theorem br (f m) : Statement (.br f m) := of_some rfl rfl (by
  simp [decodeWord, decodeMajor0C])
theorem brsZ (f m) : Statement (.brsZ f m) := of_some rfl rfl (by
  simp [decodeWord, decodeMajor0C, -BitVec.getLsbD_eq_getElem, getLsbD19_packBrs])
theorem brsNz (f m) : Statement (.brsNz f m) := of_some rfl rfl (by
  simp [decodeWord, decodeMajor0C, -BitVec.getLsbD_eq_getElem, getLsbD19_packBrs])
theorem call (f m) : Statement (.call f m) := of_some rfl rfl (by
  simp [decodeWord, decodeMajor0C])
theorem ret (f m) : Statement (.ret f m) := of_some rfl rfl (by
  simp [decodeWord, decodeMajor0C])
theorem enrol (f m) : Statement (.enrol f m) := of_some rfl rfl (by
  simp [decodeWord, decodeMajor0C])
theorem rejoin (f m) : Statement (.rejoin f m) := of_some rfl rfl (by
  simp [decodeWord, decodeMajor0C])
theorem exit (f m) : Statement (.exit f m) := of_some rfl rfl (by
  simp [decodeWord, decodeMajor0C])
theorem jmpi (f m) : Statement (.jmpi f m) := of_some rfl rfl (by
  simp [decodeWord, decodeMajor0C])
theorem faddF32 (f m) : Statement (.faddF32 f m) := of_some rfl rfl (by
  simp [decodeWord, decodeMajor10])
theorem fsubF32 (f m) : Statement (.fsubF32 f m) := of_some rfl rfl (by
  simp [decodeWord, decodeMajor10])
theorem fmulF32 (f m) : Statement (.fmulF32 f m) := of_some rfl rfl (by
  simp [decodeWord, decodeMajor10])
theorem fminF32 (f m) : Statement (.fminF32 f m) := of_some rfl rfl (by
  simp [decodeWord, decodeMajor10])
theorem fmaxF32 (f m) : Statement (.fmaxF32 f m) := of_some rfl rfl (by
  simp [decodeWord, decodeMajor10])
theorem frndF32 (f m) : Statement (.frndF32 f m) := of_some rfl rfl (by
  simp [decodeWord, decodeMajor10])
theorem fclassF32 (f m) : Statement (.fclassF32 f m) := of_some rfl rfl (by
  simp [decodeWord, decodeMajor10])
theorem faddF64 (f m) : Statement (.faddF64 f m) := of_some rfl rfl (by
  simp [decodeWord, decodeMajor11])
theorem fsubF64 (f m) : Statement (.fsubF64 f m) := of_some rfl rfl (by
  simp [decodeWord, decodeMajor11])
theorem fmulF64 (f m) : Statement (.fmulF64 f m) := of_some rfl rfl (by
  simp [decodeWord, decodeMajor11])
theorem fminF64 (f m) : Statement (.fminF64 f m) := of_some rfl rfl (by
  simp [decodeWord, decodeMajor11])
theorem fmaxF64 (f m) : Statement (.fmaxF64 f m) := of_some rfl rfl (by
  simp [decodeWord, decodeMajor11])
theorem frndF64 (f m) : Statement (.frndF64 f m) := of_some rfl rfl (by
  simp [decodeWord, decodeMajor11])
theorem fclassF64 (f m) : Statement (.fclassF64 f m) := of_some rfl rfl (by
  simp [decodeWord, decodeMajor11])
theorem faddF16X2 (f m) : Statement (.faddF16X2 f m) := of_some rfl rfl (by
  simp [decodeWord, decodeMajor12])
theorem fsubF16X2 (f m) : Statement (.fsubF16X2 f m) := of_some rfl rfl (by
  simp [decodeWord, decodeMajor12])
theorem fmulF16X2 (f m) : Statement (.fmulF16X2 f m) := of_some rfl rfl (by
  simp [decodeWord, decodeMajor12])
theorem fminF16X2 (f m) : Statement (.fminF16X2 f m) := of_some rfl rfl (by
  simp [decodeWord, decodeMajor12])
theorem fmaxF16X2 (f m) : Statement (.fmaxF16X2 f m) := of_some rfl rfl (by
  simp [decodeWord, decodeMajor12])
theorem frndF16X2 (f m) : Statement (.frndF16X2 f m) := of_some rfl rfl (by
  simp [decodeWord, decodeMajor12])
theorem faddBf16X2 (f m) : Statement (.faddBf16X2 f m) := of_some rfl rfl (by
  simp [decodeWord, decodeMajor13])
theorem fsubBf16X2 (f m) : Statement (.fsubBf16X2 f m) := of_some rfl rfl (by
  simp [decodeWord, decodeMajor13])
theorem fmulBf16X2 (f m) : Statement (.fmulBf16X2 f m) := of_some rfl rfl (by
  simp [decodeWord, decodeMajor13])
theorem fminBf16X2 (f m) : Statement (.fminBf16X2 f m) := of_some rfl rfl (by
  simp [decodeWord, decodeMajor13])
theorem fmaxBf16X2 (f m) : Statement (.fmaxBf16X2 f m) := of_some rfl rfl (by
  simp [decodeWord, decodeMajor13])
theorem frndBf16X2 (f m) : Statement (.frndBf16X2 f m) := of_some rfl rfl (by
  simp [decodeWord, decodeMajor13])
theorem ffmaF32 (f m) : Statement (.ffmaF32 f m) := of_some rfl rfl (by
  simp [decodeWord, decodeMajor14])
theorem ffmaF64 (f m) : Statement (.ffmaF64 f m) := of_some rfl rfl (by
  simp [decodeWord, decodeMajor14])
theorem ffmaF16X2 (f m) : Statement (.ffmaF16X2 f m) := of_some rfl rfl (by
  simp [decodeWord, decodeMajor14])
theorem ffmaBf16X2 (f m) : Statement (.ffmaBf16X2 f m) := of_some rfl rfl (by
  simp [decodeWord, decodeMajor14])
theorem fcmpF32 (cond f m) : Statement (.fcmpF32 cond f m) := of_some rfl rfl (by
  simp only [decodeWord, decodeMajor15, majorOf_packV3, minorOf_packV3, unpackV3_packV3]
  have h : ∀ x : BitVec 3, ((0#1 ++ x : BitVec 4).getLsbD 3 = false ∧ (0#1 ++ x : BitVec 4).extractLsb' 0 3 = x) := by decide
  have h := h cond
  rw [if_neg (by rw [h.1]; decide), h.2]
  rfl)
theorem fcmpF64 (cond f m) : Statement (.fcmpF64 cond f m) := of_some rfl rfl (by
  simp only [decodeWord, decodeMajor15, majorOf_packV3, minorOf_packV3, unpackV3_packV3]
  have h : ∀ x : BitVec 3, ((1#1 ++ x : BitVec 4).getLsbD 3 = true ∧ (1#1 ++ x : BitVec 4).extractLsb' 0 3 = x) := by decide
  have h := h cond
  rw [if_pos (by rw [h.1]), h.2]
  rfl)
theorem fdivF32 (f m) : Statement (.fdivF32 f m) := of_some rfl rfl (by
  simp [decodeWord, decodeMajor16])
theorem fsqrtF32 (f m) : Statement (.fsqrtF32 f m) := of_some rfl rfl (by
  simp [decodeWord, decodeMajor16])
theorem frcpF32 (f m) : Statement (.frcpF32 f m) := of_some rfl rfl (by
  simp [decodeWord, decodeMajor16])
theorem frsqF32 (f m) : Statement (.frsqF32 f m) := of_some rfl rfl (by
  simp [decodeWord, decodeMajor16])
theorem fexp2F32 (f m) : Statement (.fexp2F32 f m) := of_some rfl rfl (by
  simp [decodeWord, decodeMajor16])
theorem flog2F32 (f m) : Statement (.flog2F32 f m) := of_some rfl rfl (by
  simp [decodeWord, decodeMajor16])
theorem fsinF32 (f m) : Statement (.fsinF32 f m) := of_some rfl rfl (by
  simp [decodeWord, decodeMajor16])
theorem fcosF32 (f m) : Statement (.fcosF32 f m) := of_some rfl rfl (by
  simp [decodeWord, decodeMajor16])
theorem fdivF64 (f m) : Statement (.fdivF64 f m) := of_some rfl rfl (by
  simp [decodeWord, decodeMajor16])
theorem fsqrtF64 (f m) : Statement (.fsqrtF64 f m) := of_some rfl rfl (by
  simp [decodeWord, decodeMajor16])
theorem frcpF64 (f m) : Statement (.frcpF64 f m) := of_some rfl rfl (by
  simp [decodeWord, decodeMajor16])
theorem frsqF64 (f m) : Statement (.frsqF64 f m) := of_some rfl rfl (by
  simp [decodeWord, decodeMajor16])
theorem cvt (from4 f m) : Statement (.cvt from4 f m) := of_some rfl rfl (by
  simp [decodeWord, decodeMajor17])
theorem cvtsr (from4 f m) : Statement (.cvtsr from4 f m) := of_some rfl rfl (by
  simp [decodeWord, decodeMajor18])
theorem cvtmxMxe4m3F32 (f m) : Statement (.cvtmxMxe4m3F32 f m) := of_some rfl rfl (by
  simp [decodeWord, decodeMajor19])
theorem cvtmxMxe5m2F32 (f m) : Statement (.cvtmxMxe5m2F32 f m) := of_some rfl rfl (by
  simp [decodeWord, decodeMajor19])
theorem cvtmxMxe2m1F32 (f m) : Statement (.cvtmxMxe2m1F32 f m) := of_some rfl rfl (by
  simp [decodeWord, decodeMajor19])
theorem cvtmxMxe4m3Bf16 (f m) : Statement (.cvtmxMxe4m3Bf16 f m) := of_some rfl rfl (by
  simp [decodeWord, decodeMajor19])
theorem cvtmxMxe5m2Bf16 (f m) : Statement (.cvtmxMxe5m2Bf16 f m) := of_some rfl rfl (by
  simp [decodeWord, decodeMajor19])
theorem cvtmxMxe2m1Bf16 (f m) : Statement (.cvtmxMxe2m1Bf16 f m) := of_some rfl rfl (by
  simp [decodeWord, decodeMajor19])
theorem expandE4m3I4 (f m) : Statement (.expandE4m3I4 f m) := of_some rfl rfl (by
  simp [decodeWord, decodeMajor19])
theorem expandE4m3E2m3 (f m) : Statement (.expandE4m3E2m3 f m) := of_some rfl rfl (by
  simp [decodeWord, decodeMajor19])
theorem expandE4m3E3m2 (f m) : Statement (.expandE4m3E3m2 f m) := of_some rfl rfl (by
  simp [decodeWord, decodeMajor19])
theorem expandE5m2E3m2 (f m) : Statement (.expandE5m2E3m2 f m) := of_some rfl rfl (by
  simp [decodeWord, decodeMajor19])
theorem blkscaleMxe4m3 (f m) : Statement (.blkscaleMxe4m3 f m) := of_some rfl rfl (by
  simp [decodeWord, decodeMajor19])
theorem blkscaleMxe5m2 (f m) : Statement (.blkscaleMxe5m2 f m) := of_some rfl rfl (by
  simp [decodeWord, decodeMajor19])
theorem blkscaleMxe2m1 (f m) : Statement (.blkscaleMxe2m1 f m) := of_some rfl rfl (by
  simp [decodeWord, decodeMajor19])
theorem shflIdxB32 (f m) : Statement (.shflIdxB32 f m) := of_some rfl rfl (by
  simp [decodeWord, decodeMajor1A])
theorem shflUpB32 (f m) : Statement (.shflUpB32 f m) := of_some rfl rfl (by
  simp [decodeWord, decodeMajor1A])
theorem shflDownB32 (f m) : Statement (.shflDownB32 f m) := of_some rfl rfl (by
  simp [decodeWord, decodeMajor1A])
theorem shflXorB32 (f m) : Statement (.shflXorB32 f m) := of_some rfl rfl (by
  simp [decodeWord, decodeMajor1A])
theorem qswapHB32 (f m) : Statement (.qswapHB32 f m) := of_some rfl rfl (by
  simp [decodeWord, decodeMajor1A])
theorem qswapVB32 (f m) : Statement (.qswapVB32 f m) := of_some rfl rfl (by
  simp [decodeWord, decodeMajor1A])
theorem qswapDB32 (f m) : Statement (.qswapDB32 f m) := of_some rfl rfl (by
  simp [decodeWord, decodeMajor1A])
theorem qbcastB32 (f m) : Statement (.qbcastB32 f m) := of_some rfl rfl (by
  simp [decodeWord, decodeMajor1A])
theorem qderivXFineF32 (f m) : Statement (.qderivXFineF32 f m) := of_some rfl rfl (by
  simp [decodeWord, decodeMajor1A])
theorem qderivYFineF32 (f m) : Statement (.qderivYFineF32 f m) := of_some rfl rfl (by
  simp [decodeWord, decodeMajor1A])
theorem qderivXCoarseF32 (f m) : Statement (.qderivXCoarseF32 f m) := of_some rfl rfl (by
  simp [decodeWord, decodeMajor1A])
theorem qderivYCoarseF32 (f m) : Statement (.qderivYCoarseF32 f m) := of_some rfl rfl (by
  simp [decodeWord, decodeMajor1A])
theorem flagrd (f m) : Statement (.flagrd f m) := of_some rfl rfl (by
  simp [decodeWord, decodeMajor1A])
theorem flagclr (f m) : Statement (.flagclr f m) := of_some rfl rfl (by
  simp [decodeWord, decodeMajor1A])
theorem shflIdxB64 (f m) : Statement (.shflIdxB64 f m) := of_some rfl rfl (by
  simp [decodeWord, decodeMajor1B])
theorem shflUpB64 (f m) : Statement (.shflUpB64 f m) := of_some rfl rfl (by
  simp [decodeWord, decodeMajor1B])
theorem shflDownB64 (f m) : Statement (.shflDownB64 f m) := of_some rfl rfl (by
  simp [decodeWord, decodeMajor1B])
theorem shflXorB64 (f m) : Statement (.shflXorB64 f m) := of_some rfl rfl (by
  simp [decodeWord, decodeMajor1B])
theorem qswapHB64 (f m) : Statement (.qswapHB64 f m) := of_some rfl rfl (by
  simp [decodeWord, decodeMajor1B])
theorem qswapVB64 (f m) : Statement (.qswapVB64 f m) := of_some rfl rfl (by
  simp [decodeWord, decodeMajor1B])
theorem qswapDB64 (f m) : Statement (.qswapDB64 f m) := of_some rfl rfl (by
  simp [decodeWord, decodeMajor1B])
theorem qbcastB64 (f m) : Statement (.qbcastB64 f m) := of_some rfl rfl (by
  simp [decodeWord, decodeMajor1B])
theorem qderivXFineF64 (f m) : Statement (.qderivXFineF64 f m) := of_some rfl rfl (by
  simp [decodeWord, decodeMajor1B])
theorem qderivYFineF64 (f m) : Statement (.qderivYFineF64 f m) := of_some rfl rfl (by
  simp [decodeWord, decodeMajor1B])
theorem qderivXCoarseF64 (f m) : Statement (.qderivXCoarseF64 f m) := of_some rfl rfl (by
  simp [decodeWord, decodeMajor1B])
theorem qderivYCoarseF64 (f m) : Statement (.qderivYCoarseF64 f m) := of_some rfl rfl (by
  simp [decodeWord, decodeMajor1B])
theorem gredSumF32 (f m) : Statement (.gredSumF32 f m) := of_some rfl rfl (by
  simp [decodeWord, decodeMajor1C])
theorem gredMinF32 (f m) : Statement (.gredMinF32 f m) := of_some rfl rfl (by
  simp [decodeWord, decodeMajor1C])
theorem gredMaxF32 (f m) : Statement (.gredMaxF32 f m) := of_some rfl rfl (by
  simp [decodeWord, decodeMajor1C])
theorem gredSumS32 (f m) : Statement (.gredSumS32 f m) := of_some rfl rfl (by
  simp [decodeWord, decodeMajor1C])
theorem gredMinS32 (f m) : Statement (.gredMinS32 f m) := of_some rfl rfl (by
  simp [decodeWord, decodeMajor1C])
theorem gredMaxS32 (f m) : Statement (.gredMaxS32 f m) := of_some rfl rfl (by
  simp [decodeWord, decodeMajor1C])
theorem gredSumF64 (f m) : Statement (.gredSumF64 f m) := of_some rfl rfl (by
  simp [decodeWord, decodeMajor1C])
theorem gredSumS64 (f m) : Statement (.gredSumS64 f m) := of_some rfl rfl (by
  simp [decodeWord, decodeMajor1C])
theorem gredSegSumF32 (f m) : Statement (.gredSegSumF32 f m) := of_some rfl rfl (by
  simp [decodeWord, decodeMajor1C])
theorem gredSegMinF32 (f m) : Statement (.gredSegMinF32 f m) := of_some rfl rfl (by
  simp [decodeWord, decodeMajor1C])
theorem gredSegMaxF32 (f m) : Statement (.gredSegMaxF32 f m) := of_some rfl rfl (by
  simp [decodeWord, decodeMajor1C])
theorem gredSegSumS32 (f m) : Statement (.gredSegSumS32 f m) := of_some rfl rfl (by
  simp [decodeWord, decodeMajor1C])
theorem gredSegMinS32 (f m) : Statement (.gredSegMinS32 f m) := of_some rfl rfl (by
  simp [decodeWord, decodeMajor1C])
theorem gredSegMaxS32 (f m) : Statement (.gredSegMaxS32 f m) := of_some rfl rfl (by
  simp [decodeWord, decodeMajor1C])
theorem gredSegSumF64 (f m) : Statement (.gredSegSumF64 f m) := of_some rfl rfl (by
  simp [decodeWord, decodeMajor1C])
theorem gredSegSumS64 (f m) : Statement (.gredSegSumS64 f m) := of_some rfl rfl (by
  simp [decodeWord, decodeMajor1C])
theorem ldN8 (f m) : Statement (.ldN8 f m) := of_some rfl rfl (by
  simp [decodeWord, decodeMajor20])
theorem ldS8 (f m) : Statement (.ldS8 f m) := of_some rfl rfl (by
  simp [decodeWord, decodeMajor20])
theorem ldN16 (f m) : Statement (.ldN16 f m) := of_some rfl rfl (by
  simp [decodeWord, decodeMajor20])
theorem ldS16 (f m) : Statement (.ldS16 f m) := of_some rfl rfl (by
  simp [decodeWord, decodeMajor20])
theorem ldB32 (f m) : Statement (.ldB32 f m) := of_some rfl rfl (by
  simp [decodeWord, decodeMajor20])
theorem ldB64 (f m) : Statement (.ldB64 f m) := of_some rfl rfl (by
  simp [decodeWord, decodeMajor20])
theorem ldB128 (f m) : Statement (.ldB128 f m) := of_some rfl rfl (by
  simp [decodeWord, decodeMajor20])
theorem stB8 (f m) : Statement (.stB8 f m) := of_some rfl rfl (by
  simp [decodeWord, decodeMajor20])
theorem stB16 (f m) : Statement (.stB16 f m) := of_some rfl rfl (by
  simp [decodeWord, decodeMajor20])
theorem stB32 (f m) : Statement (.stB32 f m) := of_some rfl rfl (by
  simp [decodeWord, decodeMajor20])
theorem stB64 (f m) : Statement (.stB64 f m) := of_some rfl rfl (by
  simp [decodeWord, decodeMajor20])
theorem stB128 (f m) : Statement (.stB128 f m) := of_some rfl rfl (by
  simp [decodeWord, decodeMajor20])
theorem pref (f m) : Statement (.pref f m) := of_some rfl rfl (by
  simp [decodeWord, decodeMajor20])
theorem discard (f m) : Statement (.discard f m) := of_some rfl rfl (by
  simp [decodeWord, decodeMajor20])
theorem lastuse (f m) : Statement (.lastuse f m) := of_some rfl rfl (by
  simp [decodeWord, decodeMajor20])
theorem ldN8Scr (f m) : Statement (.ldN8Scr f m) := of_some rfl rfl (by
  simp [decodeWord, decodeMajor21])
theorem ldS8Scr (f m) : Statement (.ldS8Scr f m) := of_some rfl rfl (by
  simp [decodeWord, decodeMajor21])
theorem ldN16Scr (f m) : Statement (.ldN16Scr f m) := of_some rfl rfl (by
  simp [decodeWord, decodeMajor21])
theorem ldS16Scr (f m) : Statement (.ldS16Scr f m) := of_some rfl rfl (by
  simp [decodeWord, decodeMajor21])
theorem ldB32Scr (f m) : Statement (.ldB32Scr f m) := of_some rfl rfl (by
  simp [decodeWord, decodeMajor21])
theorem ldB64Scr (f m) : Statement (.ldB64Scr f m) := of_some rfl rfl (by
  simp [decodeWord, decodeMajor21])
theorem ldB128Scr (f m) : Statement (.ldB128Scr f m) := of_some rfl rfl (by
  simp [decodeWord, decodeMajor21])
theorem stB8Scr (f m) : Statement (.stB8Scr f m) := of_some rfl rfl (by
  simp [decodeWord, decodeMajor21])
theorem stB16Scr (f m) : Statement (.stB16Scr f m) := of_some rfl rfl (by
  simp [decodeWord, decodeMajor21])
theorem stB32Scr (f m) : Statement (.stB32Scr f m) := of_some rfl rfl (by
  simp [decodeWord, decodeMajor21])
theorem stB64Scr (f m) : Statement (.stB64Scr f m) := of_some rfl rfl (by
  simp [decodeWord, decodeMajor21])
theorem stB128Scr (f m) : Statement (.stB128Scr f m) := of_some rfl rfl (by
  simp [decodeWord, decodeMajor21])
theorem ldN8Cscr (f m) : Statement (.ldN8Cscr f m) := of_some rfl rfl (by
  simp [decodeWord, decodeMajor22])
theorem ldS8Cscr (f m) : Statement (.ldS8Cscr f m) := of_some rfl rfl (by
  simp [decodeWord, decodeMajor22])
theorem ldN16Cscr (f m) : Statement (.ldN16Cscr f m) := of_some rfl rfl (by
  simp [decodeWord, decodeMajor22])
theorem ldS16Cscr (f m) : Statement (.ldS16Cscr f m) := of_some rfl rfl (by
  simp [decodeWord, decodeMajor22])
theorem ldB32Cscr (f m) : Statement (.ldB32Cscr f m) := of_some rfl rfl (by
  simp [decodeWord, decodeMajor22])
theorem ldB64Cscr (f m) : Statement (.ldB64Cscr f m) := of_some rfl rfl (by
  simp [decodeWord, decodeMajor22])
theorem ldB128Cscr (f m) : Statement (.ldB128Cscr f m) := of_some rfl rfl (by
  simp [decodeWord, decodeMajor22])
theorem stB8Cscr (f m) : Statement (.stB8Cscr f m) := of_some rfl rfl (by
  simp [decodeWord, decodeMajor22])
theorem stB16Cscr (f m) : Statement (.stB16Cscr f m) := of_some rfl rfl (by
  simp [decodeWord, decodeMajor22])
theorem stB32Cscr (f m) : Statement (.stB32Cscr f m) := of_some rfl rfl (by
  simp [decodeWord, decodeMajor22])
theorem stB64Cscr (f m) : Statement (.stB64Cscr f m) := of_some rfl rfl (by
  simp [decodeWord, decodeMajor22])
theorem stB128Cscr (f m) : Statement (.stB128Cscr f m) := of_some rfl rfl (by
  simp [decodeWord, decodeMajor22])
theorem tld (f m) : Statement (.tld f m) := of_some rfl rfl (by
  simp [decodeWord, decodeMajor23])
theorem tldVer (f m) : Statement (.tldVer f m) := of_some rfl rfl (by
  simp [decodeWord, decodeMajor23])
theorem tst (f m) : Statement (.tst f m) := of_some rfl rfl (by
  simp [decodeWord, decodeMajor23])
theorem tstWhole (f m) : Statement (.tstWhole f m) := of_some rfl rfl (by
  simp [decodeWord, decodeMajor23])
theorem rld (f m) : Statement (.rld f m) := of_some rfl rfl (by
  simp [decodeWord, decodeMajor23])
theorem rst (f m) : Statement (.rst f m) := of_some rfl rfl (by
  simp [decodeWord, decodeMajor23])
theorem tldScr (f m) : Statement (.tldScr f m) := of_some rfl rfl (by
  simp [decodeWord, decodeMajor24])
theorem tldVerScr (f m) : Statement (.tldVerScr f m) := of_some rfl rfl (by
  simp [decodeWord, decodeMajor24])
theorem tstScr (f m) : Statement (.tstScr f m) := of_some rfl rfl (by
  simp [decodeWord, decodeMajor24])
theorem tstWholeScr (f m) : Statement (.tstWholeScr f m) := of_some rfl rfl (by
  simp [decodeWord, decodeMajor24])
theorem rldScr (f m) : Statement (.rldScr f m) := of_some rfl rfl (by
  simp [decodeWord, decodeMajor24])
theorem rstScr (f m) : Statement (.rstScr f m) := of_some rfl rfl (by
  simp [decodeWord, decodeMajor24])
theorem atomAddB32 (f m) : Statement (.atomAddB32 f m) := of_some rfl rfl (by
  simp [decodeWord, decodeMajor25])
theorem atomMinSB32 (f m) : Statement (.atomMinSB32 f m) := of_some rfl rfl (by
  simp [decodeWord, decodeMajor25])
theorem atomMaxSB32 (f m) : Statement (.atomMaxSB32 f m) := of_some rfl rfl (by
  simp [decodeWord, decodeMajor25])
theorem atomMinNB32 (f m) : Statement (.atomMinNB32 f m) := of_some rfl rfl (by
  simp [decodeWord, decodeMajor25])
theorem atomMaxNB32 (f m) : Statement (.atomMaxNB32 f m) := of_some rfl rfl (by
  simp [decodeWord, decodeMajor25])
theorem atomAndB32 (f m) : Statement (.atomAndB32 f m) := of_some rfl rfl (by
  simp [decodeWord, decodeMajor25])
theorem atomOrB32 (f m) : Statement (.atomOrB32 f m) := of_some rfl rfl (by
  simp [decodeWord, decodeMajor25])
theorem atomXorB32 (f m) : Statement (.atomXorB32 f m) := of_some rfl rfl (by
  simp [decodeWord, decodeMajor25])
theorem atomExchB32 (f m) : Statement (.atomExchB32 f m) := of_some rfl rfl (by
  simp [decodeWord, decodeMajor25])
theorem atomCasB32 (f m) : Statement (.atomCasB32 f m) := of_some rfl rfl (by
  simp [decodeWord, decodeMajor25])
theorem atomFaddF32 (f m) : Statement (.atomFaddF32 f m) := of_some rfl rfl (by
  simp [decodeWord, decodeMajor25])
theorem atomAddB64 (f m) : Statement (.atomAddB64 f m) := of_some rfl rfl (by
  simp [decodeWord, decodeMajor26])
theorem atomMinSB64 (f m) : Statement (.atomMinSB64 f m) := of_some rfl rfl (by
  simp [decodeWord, decodeMajor26])
theorem atomMaxSB64 (f m) : Statement (.atomMaxSB64 f m) := of_some rfl rfl (by
  simp [decodeWord, decodeMajor26])
theorem atomMinNB64 (f m) : Statement (.atomMinNB64 f m) := of_some rfl rfl (by
  simp [decodeWord, decodeMajor26])
theorem atomMaxNB64 (f m) : Statement (.atomMaxNB64 f m) := of_some rfl rfl (by
  simp [decodeWord, decodeMajor26])
theorem atomAndB64 (f m) : Statement (.atomAndB64 f m) := of_some rfl rfl (by
  simp [decodeWord, decodeMajor26])
theorem atomOrB64 (f m) : Statement (.atomOrB64 f m) := of_some rfl rfl (by
  simp [decodeWord, decodeMajor26])
theorem atomXorB64 (f m) : Statement (.atomXorB64 f m) := of_some rfl rfl (by
  simp [decodeWord, decodeMajor26])
theorem atomExchB64 (f m) : Statement (.atomExchB64 f m) := of_some rfl rfl (by
  simp [decodeWord, decodeMajor26])
theorem atomCasB64 (f m) : Statement (.atomCasB64 f m) := of_some rfl rfl (by
  simp [decodeWord, decodeMajor26])
theorem atomFaddF64 (f m) : Statement (.atomFaddF64 f m) := of_some rfl rfl (by
  simp [decodeWord, decodeMajor26])
theorem atomAddB32Scr (f m) : Statement (.atomAddB32Scr f m) := of_some rfl rfl (by
  simp [decodeWord, decodeMajor27])
theorem atomMinSB32Scr (f m) : Statement (.atomMinSB32Scr f m) := of_some rfl rfl (by
  simp [decodeWord, decodeMajor27])
theorem atomMaxSB32Scr (f m) : Statement (.atomMaxSB32Scr f m) := of_some rfl rfl (by
  simp [decodeWord, decodeMajor27])
theorem atomMinNB32Scr (f m) : Statement (.atomMinNB32Scr f m) := of_some rfl rfl (by
  simp [decodeWord, decodeMajor27])
theorem atomMaxNB32Scr (f m) : Statement (.atomMaxNB32Scr f m) := of_some rfl rfl (by
  simp [decodeWord, decodeMajor27])
theorem atomAndB32Scr (f m) : Statement (.atomAndB32Scr f m) := of_some rfl rfl (by
  simp [decodeWord, decodeMajor27])
theorem atomOrB32Scr (f m) : Statement (.atomOrB32Scr f m) := of_some rfl rfl (by
  simp [decodeWord, decodeMajor27])
theorem atomXorB32Scr (f m) : Statement (.atomXorB32Scr f m) := of_some rfl rfl (by
  simp [decodeWord, decodeMajor27])
theorem atomExchB32Scr (f m) : Statement (.atomExchB32Scr f m) := of_some rfl rfl (by
  simp [decodeWord, decodeMajor27])
theorem atomCasB32Scr (f m) : Statement (.atomCasB32Scr f m) := of_some rfl rfl (by
  simp [decodeWord, decodeMajor27])
theorem atomFaddF32Scr (f m) : Statement (.atomFaddF32Scr f m) := of_some rfl rfl (by
  simp [decodeWord, decodeMajor27])
theorem atomAddB64Scr (f m) : Statement (.atomAddB64Scr f m) := of_some rfl rfl (by
  simp [decodeWord, decodeMajor28])
theorem atomMinSB64Scr (f m) : Statement (.atomMinSB64Scr f m) := of_some rfl rfl (by
  simp [decodeWord, decodeMajor28])
theorem atomMaxSB64Scr (f m) : Statement (.atomMaxSB64Scr f m) := of_some rfl rfl (by
  simp [decodeWord, decodeMajor28])
theorem atomMinNB64Scr (f m) : Statement (.atomMinNB64Scr f m) := of_some rfl rfl (by
  simp [decodeWord, decodeMajor28])
theorem atomMaxNB64Scr (f m) : Statement (.atomMaxNB64Scr f m) := of_some rfl rfl (by
  simp [decodeWord, decodeMajor28])
theorem atomAndB64Scr (f m) : Statement (.atomAndB64Scr f m) := of_some rfl rfl (by
  simp [decodeWord, decodeMajor28])
theorem atomOrB64Scr (f m) : Statement (.atomOrB64Scr f m) := of_some rfl rfl (by
  simp [decodeWord, decodeMajor28])
theorem atomXorB64Scr (f m) : Statement (.atomXorB64Scr f m) := of_some rfl rfl (by
  simp [decodeWord, decodeMajor28])
theorem atomExchB64Scr (f m) : Statement (.atomExchB64Scr f m) := of_some rfl rfl (by
  simp [decodeWord, decodeMajor28])
theorem atomCasB64Scr (f m) : Statement (.atomCasB64Scr f m) := of_some rfl rfl (by
  simp [decodeWord, decodeMajor28])
theorem atomFaddF64Scr (f m) : Statement (.atomFaddF64Scr f m) := of_some rfl rfl (by
  simp [decodeWord, decodeMajor28])
theorem sldB32 (f m) : Statement (.sldB32 f m) := of_some rfl rfl (by
  simp [decodeWord, decodeMajor29])
theorem sldB64 (f m) : Statement (.sldB64 f m) := of_some rfl rfl (by
  simp [decodeWord, decodeMajor29])
theorem sstB32 (f m) : Statement (.sstB32 f m) := of_some rfl rfl (by
  simp [decodeWord, decodeMajor29])
theorem sstB64 (f m) : Statement (.sstB64 f m) := of_some rfl rfl (by
  simp [decodeWord, decodeMajor29])
theorem atomsAddB32 (f m) : Statement (.atomsAddB32 f m) := of_some rfl rfl (by
  simp [decodeWord, decodeMajor29])
theorem atomsMaxN32 (f m) : Statement (.atomsMaxN32 f m) := of_some rfl rfl (by
  simp [decodeWord, decodeMajor29])
theorem atomsExchB32 (f m) : Statement (.atomsExchB32 f m) := of_some rfl rfl (by
  simp [decodeWord, decodeMajor29])
theorem atomsAddB64 (f m) : Statement (.atomsAddB64 f m) := of_some rfl rfl (by
  simp [decodeWord, decodeMajor29])
theorem atomsMaxN64 (f m) : Statement (.atomsMaxN64 f m) := of_some rfl rfl (by
  simp [decodeWord, decodeMajor29])
theorem atomsExchB64 (f m) : Statement (.atomsExchB64 f m) := of_some rfl rfl (by
  simp [decodeWord, decodeMajor29])
theorem scataddF32 (f m) : Statement (.scataddF32 f m) := of_some rfl rfl (by
  simp [decodeWord, decodeMajor2A])
theorem bpref (f m) : Statement (.bpref f m) := of_some rfl rfl (by
  simp [decodeWord, decodeMajor2A])
theorem bprefBo (f m) : Statement (.bprefBo f m) := of_some rfl rfl (by
  simp [decodeWord, decodeMajor2A])
theorem shinv (f m) : Statement (.shinv f m) := of_some rfl rfl (by
  simp [decodeWord, decodeMajor2A])
theorem shinvAll (f m) : Statement (.shinvAll f m) := of_some rfl rfl (by
  simp [decodeWord, decodeMajor2A])
theorem mma (f m) : Statement (.mma f m) := of_some rfl rfl (by
  simp [decodeWord, decodeMajor30])
theorem mzero (f m) : Statement (.mzero f m) := of_some rfl rfl (by
  simp [decodeWord, decodeMajor30])
theorem mload (f m) : Statement (.mload f m) := of_some rfl rfl (by
  simp [decodeWord, decodeMajor30])
theorem mdrain (f m) : Statement (.mdrain f m) := of_some rfl rfl (by
  simp [decodeWord, decodeMajor30])
theorem mupd (f m) : Statement (.mupd f m) := of_some rfl rfl (by
  simp [decodeWord, decodeMajor30])
theorem mwait (f m) : Statement (.mwait f m) := of_some rfl rfl (by
  simp [decodeWord, decodeMajor30])
theorem mcompress (f m) : Statement (.mcompress f m) := of_some rfl rfl (by
  simp [decodeWord, decodeMajor30])
theorem amaxrd (f m) : Statement (.amaxrd f m) := of_some rfl rfl (by
  simp [decodeWord, decodeMajor30])
theorem amaxrdSync (f m) : Statement (.amaxrdSync f m) := of_some rfl rfl (by
  simp [decodeWord, decodeMajor30])
theorem amaxclr (f m) : Statement (.amaxclr f m) := of_some rfl rfl (by
  simp [decodeWord, decodeMajor30])
theorem fence (f m) : Statement (.fence f m) := of_some rfl rfl (by
  simp [decodeWord, decodeMajor31])
theorem barteam (f m) : Statement (.barteam f m) := of_some rfl rfl (by
  simp [decodeWord, decodeMajor31])
theorem barclu (f m) : Statement (.barclu f m) := of_some rfl rfl (by
  simp [decodeWord, decodeMajor31])
theorem boinit (f m) : Statement (.boinit f m) := of_some rfl rfl (by
  simp [decodeWord, decodeMajor31])
theorem boarr (f m) : Statement (.boarr f m) := of_some rfl rfl (by
  simp [decodeWord, decodeMajor31])
theorem bowait (f m) : Statement (.bowait f m) := of_some rfl rfl (by
  simp [decodeWord, decodeMajor31])
theorem tokwait (f m) : Statement (.tokwait f m) := of_some rfl rfl (by
  simp [decodeWord, decodeMajor31])
theorem kick (f m) : Statement (.kick f m) := of_some rfl rfl (by
  simp [decodeWord, decodeMajor31])
theorem scatflush (f m) : Statement (.scatflush f m) := of_some rfl rfl (by
  simp [decodeWord, decodeMajor31])
theorem glaunch (f m) : Statement (.glaunch f m) := of_some rfl rfl (by
  simp [decodeWord, decodeMajor31])
theorem srammode (f m) : Statement (.srammode f m) := of_some rfl rfl (by
  simp [decodeWord, decodeMajor31])
theorem texs (f m) : Statement (.texs f m) := of_some rfl rfl (by
  simp [decodeWord, decodeMajor32])
theorem texg (f m) : Statement (.texg f m) := of_some rfl rfl (by
  simp [decodeWord, decodeMajor32])
theorem texadj (f m) : Statement (.texadj f m) := of_some rfl rfl (by
  simp [decodeWord, decodeMajor32])
theorem trace (f m) : Statement (.trace f m) := of_some rfl rfl (by
  simp [decodeWord, decodeMajor32])
theorem traceadj (f m) : Statement (.traceadj f m) := of_some rfl rfl (by
  simp [decodeWord, decodeMajor32])
theorem edgeq (f m) : Statement (.edgeq f m) := of_some rfl rfl (by
  simp [decodeWord, decodeMajor32])
theorem trecB32 (f m) : Statement (.trecB32 f m) := of_some rfl rfl (by
  simp [decodeWord, decodeMajor33])
theorem trecB64 (f m) : Statement (.trecB64 f m) := of_some rfl rfl (by
  simp [decodeWord, decodeMajor33])
theorem tpopB32 (f m) : Statement (.tpopB32 f m) := of_some rfl rfl (by
  simp [decodeWord, decodeMajor33])
theorem tpopB64 (f m) : Statement (.tpopB64 f m) := of_some rfl rfl (by
  simp [decodeWord, decodeMajor33])
theorem tmark (f m) : Statement (.tmark f m) := of_some rfl rfl (by
  simp [decodeWord, decodeMajor33])
theorem tseal (f m) : Statement (.tseal f m) := of_some rfl rfl (by
  simp [decodeWord, decodeMajor33])

end Sys2Proof.Laws.WordRoundTrip
end

