-- ==== Sys2Proof/Laws/Updates.lean ====
section
/-! SUPPORT. What the named updates of the units' part of the state leave alone and what they set: ports, cards, queues, the units'
answers, the parts and locks of an access under way, the clock. One lemma per field per update, each true by definition. -/

namespace Sys2Proof.Machine

-- one theorem at a time
set_option Elab.async false

@[simp] theorem State.modPort_mem (s : State) (n : Nat) (f : Port → Port) : (s.modPort n f).mem = s.mem := rfl
@[simp] theorem State.modPort_poison (s : State) (n : Nat) (f : Port → Port) : (s.modPort n f).poison = s.poison := rfl
@[simp] theorem State.modPort_badBytes (s : State) (n : Nat) (f : Port → Port) : (s.modPort n f).badBytes = s.badBytes := rfl
@[simp] theorem State.modPort_teams (s : State) (n : Nat) (f : Port → Port) : (s.modPort n f).teams = s.teams := rfl
@[simp] theorem State.modPort_grids (s : State) (n : Nat) (f : Port → Port) : (s.modPort n f).grids = s.grids := rfl
@[simp] theorem State.modPort_cp (s : State) (n : Nat) (f : Port → Port) : (s.modPort n f).cp = s.cp := rfl
@[simp] theorem State.modPort_mm (s : State) (n : Nat) (f : Port → Port) : (s.modPort n f).mm = s.mm := rfl
@[simp] theorem State.modPort_eng (s : State) (n : Nat) (f : Port → Port) : (s.modPort n f).eng = s.eng := rfl
@[simp] theorem State.modPort_fab (s : State) (n : Nat) (f : Port → Port) : (s.modPort n f).fab = { s.fab with ports := modNth s.fab.ports n f } := rfl
@[simp] theorem State.modPort_regs (s : State) (n : Nat) (f : Port → Port) : (s.modPort n f).regs = s.regs := rfl
@[simp] theorem State.modPort_hub (s : State) (n : Nat) (f : Port → Port) : (s.modPort n f).hub = s.hub := rfl
@[simp] theorem State.modPort_sched (s : State) (n : Nat) (f : Port → Port) : (s.modPort n f).sched = s.sched := rfl

@[simp] theorem State.modCard_mem (s : State) (n : Nat) (f : Card → Card) : (s.modCard n f).mem = s.mem := rfl
@[simp] theorem State.modCard_poison (s : State) (n : Nat) (f : Card → Card) : (s.modCard n f).poison = s.poison := rfl
@[simp] theorem State.modCard_badBytes (s : State) (n : Nat) (f : Card → Card) : (s.modCard n f).badBytes = s.badBytes := rfl
@[simp] theorem State.modCard_teams (s : State) (n : Nat) (f : Card → Card) : (s.modCard n f).teams = s.teams := rfl
@[simp] theorem State.modCard_grids (s : State) (n : Nat) (f : Card → Card) : (s.modCard n f).grids = s.grids := rfl
@[simp] theorem State.modCard_cp (s : State) (n : Nat) (f : Card → Card) : (s.modCard n f).cp = s.cp := rfl
@[simp] theorem State.modCard_mm (s : State) (n : Nat) (f : Card → Card) : (s.modCard n f).mm = s.mm := rfl
@[simp] theorem State.modCard_eng (s : State) (n : Nat) (f : Card → Card) : (s.modCard n f).eng = { s.eng with cards := modNth s.eng.cards n f } := rfl
@[simp] theorem State.modCard_fab (s : State) (n : Nat) (f : Card → Card) : (s.modCard n f).fab = s.fab := rfl
@[simp] theorem State.modCard_regs (s : State) (n : Nat) (f : Card → Card) : (s.modCard n f).regs = s.regs := rfl
@[simp] theorem State.modCard_hub (s : State) (n : Nat) (f : Card → Card) : (s.modCard n f).hub = s.hub := rfl
@[simp] theorem State.modCard_sched (s : State) (n : Nat) (f : Card → Card) : (s.modCard n f).sched = s.sched := rfl

@[simp] theorem State.modQueue_mem (s : State) (q : Nat) (f : Queue → Queue) : (s.modQueue q f).mem = s.mem := rfl
@[simp] theorem State.modQueue_poison (s : State) (q : Nat) (f : Queue → Queue) : (s.modQueue q f).poison = s.poison := rfl
@[simp] theorem State.modQueue_badBytes (s : State) (q : Nat) (f : Queue → Queue) : (s.modQueue q f).badBytes = s.badBytes := rfl
@[simp] theorem State.modQueue_teams (s : State) (q : Nat) (f : Queue → Queue) : (s.modQueue q f).teams = s.teams := rfl
@[simp] theorem State.modQueue_grids (s : State) (q : Nat) (f : Queue → Queue) : (s.modQueue q f).grids = s.grids := rfl
@[simp] theorem State.modQueue_cp (s : State) (q : Nat) (f : Queue → Queue) : (s.modQueue q f).cp = { s.cp with queues := modNth s.cp.queues q f } := rfl
@[simp] theorem State.modQueue_mm (s : State) (q : Nat) (f : Queue → Queue) : (s.modQueue q f).mm = s.mm := rfl
@[simp] theorem State.modQueue_eng (s : State) (q : Nat) (f : Queue → Queue) : (s.modQueue q f).eng = s.eng := rfl
@[simp] theorem State.modQueue_fab (s : State) (q : Nat) (f : Queue → Queue) : (s.modQueue q f).fab = s.fab := rfl
@[simp] theorem State.modQueue_regs (s : State) (q : Nat) (f : Queue → Queue) : (s.modQueue q f).regs = s.regs := rfl
@[simp] theorem State.modQueue_hub (s : State) (q : Nat) (f : Queue → Queue) : (s.modQueue q f).hub = s.hub := rfl
@[simp] theorem State.modQueue_sched (s : State) (q : Nat) (f : Queue → Queue) : (s.modQueue q f).sched = s.sched := rfl

@[simp] theorem State.mapSegments_mem (s : State) (f : Segment → Segment) : (s.mapSegments f).mem = s.mem := rfl
@[simp] theorem State.mapSegments_poison (s : State) (f : Segment → Segment) : (s.mapSegments f).poison = s.poison := rfl
@[simp] theorem State.mapSegments_badBytes (s : State) (f : Segment → Segment) : (s.mapSegments f).badBytes = s.badBytes := rfl
@[simp] theorem State.mapSegments_teams (s : State) (f : Segment → Segment) : (s.mapSegments f).teams = s.teams := rfl
@[simp] theorem State.mapSegments_grids (s : State) (f : Segment → Segment) : (s.mapSegments f).grids = s.grids := rfl
@[simp] theorem State.mapSegments_cp (s : State) (f : Segment → Segment) : (s.mapSegments f).cp = { s.cp with segments := s.cp.segments.map f } := rfl
@[simp] theorem State.mapSegments_mm (s : State) (f : Segment → Segment) : (s.mapSegments f).mm = s.mm := rfl
@[simp] theorem State.mapSegments_eng (s : State) (f : Segment → Segment) : (s.mapSegments f).eng = s.eng := rfl
@[simp] theorem State.mapSegments_fab (s : State) (f : Segment → Segment) : (s.mapSegments f).fab = s.fab := rfl
@[simp] theorem State.mapSegments_regs (s : State) (f : Segment → Segment) : (s.mapSegments f).regs = s.regs := rfl
@[simp] theorem State.mapSegments_hub (s : State) (f : Segment → Segment) : (s.mapSegments f).hub = s.hub := rfl
@[simp] theorem State.mapSegments_sched (s : State) (f : Segment → Segment) : (s.mapSegments f).sched = s.sched := rfl

@[simp] theorem State.mapGrids_mem (s : State) (f : Grid → Grid) : (s.mapGrids f).mem = s.mem := rfl
@[simp] theorem State.mapGrids_poison (s : State) (f : Grid → Grid) : (s.mapGrids f).poison = s.poison := rfl
@[simp] theorem State.mapGrids_badBytes (s : State) (f : Grid → Grid) : (s.mapGrids f).badBytes = s.badBytes := rfl
@[simp] theorem State.mapGrids_teams (s : State) (f : Grid → Grid) : (s.mapGrids f).teams = s.teams := rfl
@[simp] theorem State.mapGrids_grids (s : State) (f : Grid → Grid) : (s.mapGrids f).grids = s.grids.map f := rfl
@[simp] theorem State.mapGrids_cp (s : State) (f : Grid → Grid) : (s.mapGrids f).cp = s.cp := rfl
@[simp] theorem State.mapGrids_mm (s : State) (f : Grid → Grid) : (s.mapGrids f).mm = s.mm := rfl
@[simp] theorem State.mapGrids_eng (s : State) (f : Grid → Grid) : (s.mapGrids f).eng = s.eng := rfl
@[simp] theorem State.mapGrids_fab (s : State) (f : Grid → Grid) : (s.mapGrids f).fab = s.fab := rfl
@[simp] theorem State.mapGrids_regs (s : State) (f : Grid → Grid) : (s.mapGrids f).regs = s.regs := rfl
@[simp] theorem State.mapGrids_hub (s : State) (f : Grid → Grid) : (s.mapGrids f).hub = s.hub := rfl
@[simp] theorem State.mapGrids_sched (s : State) (f : Grid → Grid) : (s.mapGrids f).sched = s.sched := rfl

@[simp] theorem State.switchTo_mem (s : State) (n : Nat) : (s.switchTo n).mem = s.mem := rfl
@[simp] theorem State.switchTo_poison (s : State) (n : Nat) : (s.switchTo n).poison = s.poison := rfl
@[simp] theorem State.switchTo_badBytes (s : State) (n : Nat) : (s.switchTo n).badBytes = s.badBytes := rfl
@[simp] theorem State.switchTo_teams (s : State) (n : Nat) : (s.switchTo n).teams = s.teams := rfl
@[simp] theorem State.switchTo_grids (s : State) (n : Nat) : (s.switchTo n).grids = s.grids := rfl
@[simp] theorem State.switchTo_cp (s : State) (n : Nat) : (s.switchTo n).cp = { s.cp with switchStep := n } := rfl
@[simp] theorem State.switchTo_mm (s : State) (n : Nat) : (s.switchTo n).mm = s.mm := rfl
@[simp] theorem State.switchTo_eng (s : State) (n : Nat) : (s.switchTo n).eng = s.eng := rfl
@[simp] theorem State.switchTo_fab (s : State) (n : Nat) : (s.switchTo n).fab = s.fab := rfl
@[simp] theorem State.switchTo_regs (s : State) (n : Nat) : (s.switchTo n).regs = s.regs := rfl
@[simp] theorem State.switchTo_hub (s : State) (n : Nat) : (s.switchTo n).hub = s.hub := rfl
@[simp] theorem State.switchTo_sched (s : State) (n : Nat) : (s.switchTo n).sched = s.sched := rfl

@[simp] theorem State.clearAnswers_mem (s : State) (hit : Nat × Nat × Nat → Bool) : (s.clearAnswers hit).mem = s.mem := rfl
@[simp] theorem State.clearAnswers_poison (s : State) (hit : Nat × Nat × Nat → Bool) : (s.clearAnswers hit).poison = s.poison := rfl
@[simp] theorem State.clearAnswers_badBytes (s : State) (hit : Nat × Nat × Nat → Bool) : (s.clearAnswers hit).badBytes = s.badBytes := rfl
@[simp] theorem State.clearAnswers_teams (s : State) (hit : Nat × Nat × Nat → Bool) : (s.clearAnswers hit).teams = s.teams := rfl
@[simp] theorem State.clearAnswers_grids (s : State) (hit : Nat × Nat × Nat → Bool) : (s.clearAnswers hit).grids = s.grids := rfl
@[simp] theorem State.clearAnswers_cp (s : State) (hit : Nat × Nat × Nat → Bool) : (s.clearAnswers hit).cp = s.cp := rfl
@[simp] theorem State.clearAnswers_mm (s : State) (hit : Nat × Nat × Nat → Bool) : (s.clearAnswers hit).mm = s.mm := rfl
@[simp] theorem State.clearAnswers_eng (s : State) (hit : Nat × Nat × Nat → Bool) : (s.clearAnswers hit).eng = s.eng := rfl
@[simp] theorem State.clearAnswers_regs (s : State) (hit : Nat × Nat × Nat → Bool) : (s.clearAnswers hit).regs = s.regs := rfl
@[simp] theorem State.clearAnswers_hub (s : State) (hit : Nat × Nat × Nat → Bool) : (s.clearAnswers hit).hub = s.hub := rfl
@[simp] theorem State.clearAnswers_sched (s : State) (hit : Nat × Nat × Nat → Bool) : (s.clearAnswers hit).sched = s.sched := rfl

@[simp] theorem State.lockLines_mem (s : State) (who : Nat × Nat × Nat) (ks : List (Nat × Bool)) : (s.lockLines who ks).mem = s.mem := rfl
@[simp] theorem State.lockLines_poison (s : State) (who : Nat × Nat × Nat) (ks : List (Nat × Bool)) : (s.lockLines who ks).poison = s.poison := rfl
@[simp] theorem State.lockLines_badBytes (s : State) (who : Nat × Nat × Nat) (ks : List (Nat × Bool)) : (s.lockLines who ks).badBytes = s.badBytes := rfl
@[simp] theorem State.lockLines_teams (s : State) (who : Nat × Nat × Nat) (ks : List (Nat × Bool)) : (s.lockLines who ks).teams = s.teams := rfl
@[simp] theorem State.lockLines_grids (s : State) (who : Nat × Nat × Nat) (ks : List (Nat × Bool)) : (s.lockLines who ks).grids = s.grids := rfl
@[simp] theorem State.lockLines_cp (s : State) (who : Nat × Nat × Nat) (ks : List (Nat × Bool)) : (s.lockLines who ks).cp = s.cp := rfl
@[simp] theorem State.lockLines_mm (s : State) (who : Nat × Nat × Nat) (ks : List (Nat × Bool)) : (s.lockLines who ks).mm = s.mm := rfl
@[simp] theorem State.lockLines_eng (s : State) (who : Nat × Nat × Nat) (ks : List (Nat × Bool)) : (s.lockLines who ks).eng = s.eng := rfl
@[simp] theorem State.lockLines_regs (s : State) (who : Nat × Nat × Nat) (ks : List (Nat × Bool)) : (s.lockLines who ks).regs = s.regs := rfl
@[simp] theorem State.lockLines_hub (s : State) (who : Nat × Nat × Nat) (ks : List (Nat × Bool)) : (s.lockLines who ks).hub = s.hub := rfl
@[simp] theorem State.lockLines_sched (s : State) (who : Nat × Nat × Nat) (ks : List (Nat × Bool)) : (s.lockLines who ks).sched = s.sched := rfl

@[simp] theorem State.markDone_mem (s : State) (who : Nat × Nat × Nat) (line : Nat) : (s.markDone who line).mem = s.mem := rfl
@[simp] theorem State.markDone_poison (s : State) (who : Nat × Nat × Nat) (line : Nat) : (s.markDone who line).poison = s.poison := rfl
@[simp] theorem State.markDone_badBytes (s : State) (who : Nat × Nat × Nat) (line : Nat) : (s.markDone who line).badBytes = s.badBytes := rfl
@[simp] theorem State.markDone_teams (s : State) (who : Nat × Nat × Nat) (line : Nat) : (s.markDone who line).teams = s.teams := rfl
@[simp] theorem State.markDone_grids (s : State) (who : Nat × Nat × Nat) (line : Nat) : (s.markDone who line).grids = s.grids := rfl
@[simp] theorem State.markDone_cp (s : State) (who : Nat × Nat × Nat) (line : Nat) : (s.markDone who line).cp = s.cp := rfl
@[simp] theorem State.markDone_mm (s : State) (who : Nat × Nat × Nat) (line : Nat) : (s.markDone who line).mm = s.mm := rfl
@[simp] theorem State.markDone_eng (s : State) (who : Nat × Nat × Nat) (line : Nat) : (s.markDone who line).eng = s.eng := rfl
@[simp] theorem State.markDone_fab (s : State) (who : Nat × Nat × Nat) (line : Nat) : (s.markDone who line).fab = { s.fab with answers := s.fab.answers ++ [⟨who, line * 128, .done⟩] } := rfl
@[simp] theorem State.markDone_regs (s : State) (who : Nat × Nat × Nat) (line : Nat) : (s.markDone who line).regs = s.regs := rfl
@[simp] theorem State.markDone_hub (s : State) (who : Nat × Nat × Nat) (line : Nat) : (s.markDone who line).hub = s.hub := rfl
@[simp] theorem State.markDone_sched (s : State) (who : Nat × Nat × Nat) (line : Nat) : (s.markDone who line).sched = s.sched := rfl

@[simp] theorem State.keepParts_mem (s : State) (c : Inst) (outs : List (Nat × LaneOut)) : (s.keepParts c outs).mem = s.mem := rfl
@[simp] theorem State.keepParts_poison (s : State) (c : Inst) (outs : List (Nat × LaneOut)) : (s.keepParts c outs).poison = s.poison := rfl
@[simp] theorem State.keepParts_badBytes (s : State) (c : Inst) (outs : List (Nat × LaneOut)) : (s.keepParts c outs).badBytes = s.badBytes := rfl
@[simp] theorem State.keepParts_teams (s : State) (c : Inst) (outs : List (Nat × LaneOut)) : (s.keepParts c outs).teams = s.teams := rfl
@[simp] theorem State.keepParts_grids (s : State) (c : Inst) (outs : List (Nat × LaneOut)) : (s.keepParts c outs).grids = s.grids := rfl
@[simp] theorem State.keepParts_cp (s : State) (c : Inst) (outs : List (Nat × LaneOut)) : (s.keepParts c outs).cp = s.cp := rfl
@[simp] theorem State.keepParts_mm (s : State) (c : Inst) (outs : List (Nat × LaneOut)) : (s.keepParts c outs).mm = s.mm := rfl
@[simp] theorem State.keepParts_eng (s : State) (c : Inst) (outs : List (Nat × LaneOut)) : (s.keepParts c outs).eng = s.eng := rfl
@[simp] theorem State.keepParts_regs (s : State) (c : Inst) (outs : List (Nat × LaneOut)) : (s.keepParts c outs).regs = s.regs := rfl
@[simp] theorem State.keepParts_hub (s : State) (c : Inst) (outs : List (Nat × LaneOut)) : (s.keepParts c outs).hub = s.hub := rfl
@[simp] theorem State.keepParts_sched (s : State) (c : Inst) (outs : List (Nat × LaneOut)) : (s.keepParts c outs).sched = s.sched := rfl

@[simp] theorem State.dropReads_mem (s : State) (c : Inst) (l : Nat) : (s.dropReads c l).mem = s.mem := rfl
@[simp] theorem State.dropReads_poison (s : State) (c : Inst) (l : Nat) : (s.dropReads c l).poison = s.poison := rfl
@[simp] theorem State.dropReads_badBytes (s : State) (c : Inst) (l : Nat) : (s.dropReads c l).badBytes = s.badBytes := rfl
@[simp] theorem State.dropReads_teams (s : State) (c : Inst) (l : Nat) : (s.dropReads c l).teams = s.teams := rfl
@[simp] theorem State.dropReads_grids (s : State) (c : Inst) (l : Nat) : (s.dropReads c l).grids = s.grids := rfl
@[simp] theorem State.dropReads_cp (s : State) (c : Inst) (l : Nat) : (s.dropReads c l).cp = s.cp := rfl
@[simp] theorem State.dropReads_mm (s : State) (c : Inst) (l : Nat) : (s.dropReads c l).mm = s.mm := rfl
@[simp] theorem State.dropReads_eng (s : State) (c : Inst) (l : Nat) : (s.dropReads c l).eng = s.eng := rfl
@[simp] theorem State.dropReads_regs (s : State) (c : Inst) (l : Nat) : (s.dropReads c l).regs = s.regs := rfl
@[simp] theorem State.dropReads_hub (s : State) (c : Inst) (l : Nat) : (s.dropReads c l).hub = s.hub := rfl
@[simp] theorem State.dropReads_sched (s : State) (c : Inst) (l : Nat) : (s.dropReads c l).sched = s.sched := rfl

@[simp] theorem State.setClock_mem (s : State) (c : Clock) (lock : Bool) : (s.setClock c lock).mem = s.mem := rfl
@[simp] theorem State.setClock_poison (s : State) (c : Clock) (lock : Bool) : (s.setClock c lock).poison = s.poison := rfl
@[simp] theorem State.setClock_badBytes (s : State) (c : Clock) (lock : Bool) : (s.setClock c lock).badBytes = s.badBytes := rfl
@[simp] theorem State.setClock_teams (s : State) (c : Clock) (lock : Bool) : (s.setClock c lock).teams = s.teams := rfl
@[simp] theorem State.setClock_grids (s : State) (c : Clock) (lock : Bool) : (s.setClock c lock).grids = s.grids := rfl
@[simp] theorem State.setClock_cp (s : State) (c : Clock) (lock : Bool) : (s.setClock c lock).cp = s.cp := rfl
@[simp] theorem State.setClock_mm (s : State) (c : Clock) (lock : Bool) : (s.setClock c lock).mm = s.mm := rfl
@[simp] theorem State.setClock_eng (s : State) (c : Clock) (lock : Bool) : (s.setClock c lock).eng = s.eng := rfl
@[simp] theorem State.setClock_fab (s : State) (c : Clock) (lock : Bool) : (s.setClock c lock).fab = s.fab := rfl
@[simp] theorem State.setClock_sched (s : State) (c : Clock) (lock : Bool) : (s.setClock c lock).sched = s.sched := rfl

@[simp] theorem State.clearAnswers_fab_proxies (s : State) (hit : Nat × Nat × Nat → Bool) : (s.clearAnswers hit).fab.proxies = s.fab.proxies := rfl
@[simp] theorem State.clearAnswers_fab_dir (s : State) (hit : Nat × Nat × Nat → Bool) : (s.clearAnswers hit).fab.dir = s.fab.dir := rfl
@[simp] theorem State.clearAnswers_fab_requests (s : State) (hit : Nat × Nat × Nat → Bool) : (s.clearAnswers hit).fab.requests = s.fab.requests := rfl
@[simp] theorem State.clearAnswers_fab_answers (s : State) (hit : Nat × Nat × Nat → Bool) : (s.clearAnswers hit).fab.answers = s.fab.answers.filter fun a => !hit a.who := rfl
@[simp] theorem State.clearAnswers_fab_reqFails (s : State) (hit : Nat × Nat × Nat → Bool) : (s.clearAnswers hit).fab.reqFails = s.fab.reqFails.filter fun a => !hit a.who := rfl
@[simp] theorem State.clearAnswers_fab_nextTag (s : State) (hit : Nat × Nat × Nat → Bool) : (s.clearAnswers hit).fab.nextTag = s.fab.nextTag := rfl
@[simp] theorem State.clearAnswers_fab_answered (s : State) (hit : Nat × Nat × Nat → Bool) : (s.clearAnswers hit).fab.answered = s.fab.answered := rfl
@[simp] theorem State.clearAnswers_fab_routes (s : State) (hit : Nat × Nat × Nat → Bool) : (s.clearAnswers hit).fab.routes = s.fab.routes := rfl
@[simp] theorem State.clearAnswers_fab_ports (s : State) (hit : Nat × Nat × Nat → Bool) : (s.clearAnswers hit).fab.ports = s.fab.ports := rfl
@[simp] theorem State.clearAnswers_fab_outbox (s : State) (hit : Nat × Nat × Nat → Bool) : (s.clearAnswers hit).fab.outbox = s.fab.outbox := rfl
@[simp] theorem State.clearAnswers_fab_farDown (s : State) (hit : Nat × Nat × Nat → Bool) : (s.clearAnswers hit).fab.farDown = s.fab.farDown := rfl
@[simp] theorem State.clearAnswers_fab_parts (s : State) (hit : Nat × Nat × Nat → Bool) : (s.clearAnswers hit).fab.parts = s.fab.parts.filter fun a => !hit a.1 := rfl
@[simp] theorem State.clearAnswers_fab_locks (s : State) (hit : Nat × Nat × Nat → Bool) : (s.clearAnswers hit).fab.locks = s.fab.locks.filter fun a => !hit a.2 := rfl
@[simp] theorem State.clearAnswers_fab_attested (s : State) (hit : Nat × Nat × Nat → Bool) : (s.clearAnswers hit).fab.attested = s.fab.attested := rfl

@[simp] theorem State.lockLines_fab_proxies (s : State) (who : Nat × Nat × Nat) (ks : List (Nat × Bool)) : (s.lockLines who ks).fab.proxies = s.fab.proxies := rfl
@[simp] theorem State.lockLines_fab_dir (s : State) (who : Nat × Nat × Nat) (ks : List (Nat × Bool)) : (s.lockLines who ks).fab.dir = s.fab.dir := rfl
@[simp] theorem State.lockLines_fab_requests (s : State) (who : Nat × Nat × Nat) (ks : List (Nat × Bool)) : (s.lockLines who ks).fab.requests = s.fab.requests := rfl
@[simp] theorem State.lockLines_fab_answers (s : State) (who : Nat × Nat × Nat) (ks : List (Nat × Bool)) : (s.lockLines who ks).fab.answers = s.fab.answers := rfl
@[simp] theorem State.lockLines_fab_reqFails (s : State) (who : Nat × Nat × Nat) (ks : List (Nat × Bool)) : (s.lockLines who ks).fab.reqFails = s.fab.reqFails := rfl
@[simp] theorem State.lockLines_fab_nextTag (s : State) (who : Nat × Nat × Nat) (ks : List (Nat × Bool)) : (s.lockLines who ks).fab.nextTag = s.fab.nextTag := rfl
@[simp] theorem State.lockLines_fab_answered (s : State) (who : Nat × Nat × Nat) (ks : List (Nat × Bool)) : (s.lockLines who ks).fab.answered = s.fab.answered := rfl
@[simp] theorem State.lockLines_fab_routes (s : State) (who : Nat × Nat × Nat) (ks : List (Nat × Bool)) : (s.lockLines who ks).fab.routes = s.fab.routes := rfl
@[simp] theorem State.lockLines_fab_ports (s : State) (who : Nat × Nat × Nat) (ks : List (Nat × Bool)) : (s.lockLines who ks).fab.ports = s.fab.ports := rfl
@[simp] theorem State.lockLines_fab_outbox (s : State) (who : Nat × Nat × Nat) (ks : List (Nat × Bool)) : (s.lockLines who ks).fab.outbox = s.fab.outbox := rfl
@[simp] theorem State.lockLines_fab_farDown (s : State) (who : Nat × Nat × Nat) (ks : List (Nat × Bool)) : (s.lockLines who ks).fab.farDown = s.fab.farDown := rfl
@[simp] theorem State.lockLines_fab_parts (s : State) (who : Nat × Nat × Nat) (ks : List (Nat × Bool)) : (s.lockLines who ks).fab.parts = s.fab.parts := rfl
@[simp] theorem State.lockLines_fab_locks (s : State) (who : Nat × Nat × Nat) (ks : List (Nat × Bool)) : (s.lockLines who ks).fab.locks = s.fab.locks ++ ((ks.map fun k => (k.1 / 128, who)).eraseDups).filter fun x => !s.fab.locks.contains x := rfl
@[simp] theorem State.lockLines_fab_attested (s : State) (who : Nat × Nat × Nat) (ks : List (Nat × Bool)) : (s.lockLines who ks).fab.attested = s.fab.attested := rfl

@[simp] theorem State.keepParts_fab_proxies (s : State) (c : Inst) (outs : List (Nat × LaneOut)) : (s.keepParts c outs).fab.proxies = s.fab.proxies := rfl
@[simp] theorem State.keepParts_fab_dir (s : State) (c : Inst) (outs : List (Nat × LaneOut)) : (s.keepParts c outs).fab.dir = s.fab.dir := rfl
@[simp] theorem State.keepParts_fab_requests (s : State) (c : Inst) (outs : List (Nat × LaneOut)) : (s.keepParts c outs).fab.requests = s.fab.requests := rfl
@[simp] theorem State.keepParts_fab_answers (s : State) (c : Inst) (outs : List (Nat × LaneOut)) : (s.keepParts c outs).fab.answers = s.fab.answers := rfl
@[simp] theorem State.keepParts_fab_reqFails (s : State) (c : Inst) (outs : List (Nat × LaneOut)) : (s.keepParts c outs).fab.reqFails = s.fab.reqFails := rfl
@[simp] theorem State.keepParts_fab_nextTag (s : State) (c : Inst) (outs : List (Nat × LaneOut)) : (s.keepParts c outs).fab.nextTag = s.fab.nextTag := rfl
@[simp] theorem State.keepParts_fab_answered (s : State) (c : Inst) (outs : List (Nat × LaneOut)) : (s.keepParts c outs).fab.answered = s.fab.answered := rfl
@[simp] theorem State.keepParts_fab_routes (s : State) (c : Inst) (outs : List (Nat × LaneOut)) : (s.keepParts c outs).fab.routes = s.fab.routes := rfl
@[simp] theorem State.keepParts_fab_ports (s : State) (c : Inst) (outs : List (Nat × LaneOut)) : (s.keepParts c outs).fab.ports = s.fab.ports := rfl
@[simp] theorem State.keepParts_fab_outbox (s : State) (c : Inst) (outs : List (Nat × LaneOut)) : (s.keepParts c outs).fab.outbox = s.fab.outbox := rfl
@[simp] theorem State.keepParts_fab_farDown (s : State) (c : Inst) (outs : List (Nat × LaneOut)) : (s.keepParts c outs).fab.farDown = s.fab.farDown := rfl
@[simp] theorem State.keepParts_fab_parts (s : State) (c : Inst) (outs : List (Nat × LaneOut)) : (s.keepParts c outs).fab.parts = s.fab.parts ++ (outs.map fun o => ((c.team, c.group, o.1), o.2)).filter fun p => (s.partOf p.1).isNone := rfl
@[simp] theorem State.keepParts_fab_locks (s : State) (c : Inst) (outs : List (Nat × LaneOut)) : (s.keepParts c outs).fab.locks = s.fab.locks := rfl
@[simp] theorem State.keepParts_fab_attested (s : State) (c : Inst) (outs : List (Nat × LaneOut)) : (s.keepParts c outs).fab.attested = s.fab.attested := rfl

@[simp] theorem State.dropReads_fab_proxies (s : State) (c : Inst) (l : Nat) : (s.dropReads c l).fab.proxies = s.fab.proxies := rfl
@[simp] theorem State.dropReads_fab_dir (s : State) (c : Inst) (l : Nat) : (s.dropReads c l).fab.dir = s.fab.dir := rfl
@[simp] theorem State.dropReads_fab_requests (s : State) (c : Inst) (l : Nat) : (s.dropReads c l).fab.requests = s.fab.requests := rfl
@[simp] theorem State.dropReads_fab_answers (s : State) (c : Inst) (l : Nat) : (s.dropReads c l).fab.answers = s.fab.answers.filter fun a => !c.owns a.who || a.who.2.2 == l || a.value == .done := rfl
@[simp] theorem State.dropReads_fab_reqFails (s : State) (c : Inst) (l : Nat) : (s.dropReads c l).fab.reqFails = s.fab.reqFails := rfl
@[simp] theorem State.dropReads_fab_nextTag (s : State) (c : Inst) (l : Nat) : (s.dropReads c l).fab.nextTag = s.fab.nextTag := rfl
@[simp] theorem State.dropReads_fab_answered (s : State) (c : Inst) (l : Nat) : (s.dropReads c l).fab.answered = s.fab.answered := rfl
@[simp] theorem State.dropReads_fab_routes (s : State) (c : Inst) (l : Nat) : (s.dropReads c l).fab.routes = s.fab.routes := rfl
@[simp] theorem State.dropReads_fab_ports (s : State) (c : Inst) (l : Nat) : (s.dropReads c l).fab.ports = s.fab.ports := rfl
@[simp] theorem State.dropReads_fab_outbox (s : State) (c : Inst) (l : Nat) : (s.dropReads c l).fab.outbox = s.fab.outbox := rfl
@[simp] theorem State.dropReads_fab_farDown (s : State) (c : Inst) (l : Nat) : (s.dropReads c l).fab.farDown = s.fab.farDown := rfl
@[simp] theorem State.dropReads_fab_parts (s : State) (c : Inst) (l : Nat) : (s.dropReads c l).fab.parts = s.fab.parts := rfl
@[simp] theorem State.dropReads_fab_locks (s : State) (c : Inst) (l : Nat) : (s.dropReads c l).fab.locks = s.fab.locks := rfl
@[simp] theorem State.dropReads_fab_attested (s : State) (c : Inst) (l : Nat) : (s.dropReads c l).fab.attested = s.fab.attested := rfl

@[simp] theorem State.setClock_clock (s : State) (c : Clock) (lock : Bool) : (s.setClock c lock).hub.clock = c := rfl

end Sys2Proof.Machine
end

