-- ==== Sys2Proof/Tests/Slice0.lean ====
section
/-! SUPPORT. The model's own tests: ill-formed terms that WellFormed refuses, words written out from the manual's encodings, single
steps against worked examples, and for each statement with hypotheses a state and operands that meet them. -/

namespace Sys2Proof.Tests

open Sys2Proof.Machine Sys2Proof.Forms

-- the kernel evaluates one test at a time
set_option Elab.async false

/-! ## States -/

/-- The instance of lane 0 at the first word of its group's code. -/
def one : Inst := ⟨0, 0, 1, 0⟩

/-- A team of one group on core 0, whose page of code and data stands in the core's translation buffer, with `one` at issue. -/
def world : State := let s := State.reset.placeProbe; { s with sched := { s.sched with cur := some one } }

/-- The state with the group of `one` changed. -/
def onGroup (f : Group → Group) (s : State) : State := s.modGroup 0 0 f

/-- The state with lane 0 of that group changed. -/
def onLane (f : Lane → Lane) : State → State := onGroup fun G => { G with lanes := modNth G.lanes 0 f }

/-- The state with queue slots of lane 0 set from slot 0 on. -/
def withSlots (vs : List W64) : State → State := onLane fun L => { L with q := vs ++ L.q.drop vs.length }

/-- The state with its team changed. -/
def onTeam (f : Team → Team) (s : State) : State := s.modTeam 0 f

/-- The state with its grid changed. -/
def onGrid (f : Grid → Grid) (s : State) : State := s.modGrid 0 f

/-- The state with the kernel of its grid changed. -/
def onKernel (f : Kernel → Kernel) : State → State := onGrid fun G => { G with par := { G.par with kernels := G.par.kernels.map f } }

/-- The state with lane 0 a helper lane. -/
def helped : State → State := onLane fun L => { L with helper := true }

/-- Whether an outcome is a next state. -/
def goes (r : Res) : Bool := match r with
  | .next _ => true
  | _ => false

theorem goes_next {r : Res} (h : goes r = true) : ∃ t, r = .next t := by
  cases r with
  | next t => exact ⟨t, rfl⟩
  | fault _ => cases h
  | refused _ => cases h

/-- Whether a lane sees all that it asks for. -/
def seesB (s : State) (c : Inst) (l : Nat) (r : LaneReq) : Bool :=
  let x := s.checkLane c l r
  x.conds.isEmpty && x.pages.isEmpty && x.lines.isEmpty && x.fifo.isNone && !x.absentMate && x.busy.isEmpty &&
    (x.pre ++ x.keys ++ x.look).all (fun k => !s.isPeerKey k.1 && !s.dirBlocks (k.1 / 128) true) && (r.segs.all fun g => !s.segHeld c.team g) &&
    (s.partOf (c.team, c.group, l)).isNone

theorem sees_of {s : State} {c : Inst} {l : Nat} {r : LaneReq} (h : seesB s c l r = true) : s.Sees c l r := by
  simp only [seesB, Bool.and_eq_true, List.isEmpty_iff, Option.isNone_iff_eq_none, Bool.not_eq_true', List.all_eq_true] at h
  obtain ⟨⟨⟨⟨⟨⟨⟨⟨h1, h2⟩, h3⟩, h4⟩, h5⟩, hb⟩, h6⟩, h7⟩, h8⟩ := h
  exact ⟨h1, h2, h3, h4, h5, hb, fun k hk => by simpa using h6 k (by simpa using hk), h7, h8⟩

theorem lane_zero {P : Nat → Prop} {act : LaneMask} (h : act = 1) (h0 : P 0) : ∀ l, act.getLsbD l = true → P l := by
  intro l hl
  subst h
  cases l with
  | zero => exact h0
  | succ n => simp [BitVec.getLsbD_one] at hl

theorem no_lane {P : Nat → Prop} {act : LaneMask} (h : act = 0) : ∀ l, act.getLsbD l = true → P l := by
  intro l hl
  subst h
  simp at hl

/-- The words of a packet whose first word is `w`, stored where the next step fetches, at reset. -/
def loaded (nbits w : Nat) : State := State.reset.withFetchWord nbits w

/-- A step's parts: the state at issue, the group and instance chosen, the bytes fetched and the state after the fetch; and
whether the bytes meet `ok`. -/
def stepParts (s : State) (ok : Inst → List Byte → State → Bool) : Bool :=
  let s0 : State := if s.sched.turn then { s with sched := { s.sched with turn := false } }.lookTime.2
    else { s with sched := { s.sched with turn := true } }
  match s0.nextGroup with
  | some (t, g) =>
    (!s.sched.turn || s0.nextEvent.isNone) && !s0.asyncDue t g && (match s0.selectInst t g with
      | some (c, s1) => (match s1.fetch c with
        | .packet bs s2 => ok c bs s2
        | .stop _ => false)
      | none => false)
  | none => false

theorem perf_zero {P : Nat → Prop} {G : Group} {act : LaneMask} (h : performing G act = [0]) (h0 : P 0) : ∀ l ∈ performing G act, P l := by
  intro l hl
  rw [h] at hl
  simp at hl
  exact hl ▸ h0

theorem mem_zero {P : Nat → Prop} {ls : List Nat} (h : ls = [0]) (h0 : P 0) : ∀ l ∈ ls, P l := by
  intro l hl
  rw [h] at hl
  simp at hl
  exact hl ▸ h0

/-- One contribution fits where none is held. -/
theorem one_fits {s : State} {ctx k : Nat} (hq : 0 < s.scatQuota ctx) (he : s.eng.scatter = []) : s.scatOver ctx [k] k = false := by
  have h1 : s.scatHeld ctx (scatSlice k) = 0 := by simp [State.scatHeld, he]
  have h2 := List.length_filter_le (fun x => scatSlice x == scatSlice k) [k]
  simp only [List.length_singleton] at h2
  simp only [State.scatOver, h1, decide_eq_false_iff_not]
  omega

/-- `one` runs with its next word inside the code, the last but one word of it. -/
theorem issues_world : world.Issues one {} ∧ world.Placed one ∧
    { world with sched := { world.sched with cur := some { one with pc := 376 } } }.Issues { one with pc := 376 } {} :=
  ⟨⟨rfl, by decide +kernel⟩, ⟨by decide +kernel, by decide +kernel⟩, rfl, by decide +kernel⟩

/-- The team's scratchpad with bytes at an offset. -/
def scr (off : Nat) (bs : List Byte) (s : State) : State := s.wr (scratchKey 0 off) bs

/-- A shape record of a 4 by 4 tensor of binary32 elements at address 0x100: rank 2, one sequence, no table. -/
def record : List Byte :=
  leBytes 4 0x202 ++ leBytes 4 0x220002 ++ leBytes 4 0 ++ leBytes 4 0 ++ leBytes 4 4 ++ leBytes 4 4 ++ leBytes 4 1 ++ leBytes 4 1 ++
    leBytes 8 0x100 ++ List.replicate 24 0

/-- The record stored at address 0x80. -/
def recorded (s : State) : State := s.wr (localKey 0x80) record

/-- Context 0 described at 0x10000 (spec 20 R411), with the first GiB of its addresses mapped onto this device's memory, and core 0. -/
def mapped (s : State) : State :=
  let s := { s with regs := { s.regs with ctxBase := 0x10000 } }
  let s := s.wr (localKey 0x10000) (leBytes 4 0x43580100 ++ leBytes 4 1 ++ leBytes 8 0x11000 ++ leBytes 8 0x14000 ++ leBytes 8 512 ++
    leBytes 8 0x15000 ++ leBytes 8 16 ++ leBytes 8 0x10800)
  let s := s.wr (localKey 0x10800) [1]
  let s := s.wr (localKey 0x11000) (leBytes 8 (0xFFF * 2 ^ 45 + 0x12001))
  let s := s.wr (localKey 0x12000) (leBytes 8 (0xFFF * 2 ^ 45 + 0x13001))
  s.wr (localKey 0x13000) (leBytes 8 (0xFFF * 2 ^ 45 + 0x1F))

/-- Whether an engine's access finds its bytes. -/
def found (x : EngAcc) : Bool := match x with
  | .ok _ _ => true
  | _ => false

theorem found_ok {x : EngAcc} (h : found x = true) : ∃ u ps, x = .ok u ps := by
  cases x with
  | ok u ps => exact ⟨u, ps, rfl⟩
  | pages _ => cases h
  | wait _ => cases h
  | bad _ => cases h

theorem found_here {x : EngAcc} (h : found x = true) (u : State) : x ≠ .wait u := by
  intro e
  rw [e] at h
  cases h

/-! ## Witnesses: decoding and steps -/

/-- An instruction with its extension word, every field at its largest value. -/
def wide : Instr := .iaddS32 ⟨47, 15, 62, 7⟩ { chain := true, lit := some 0xFFFFFFFF, ext := some ⟨false, true, 0, 0, 0, 0⟩ }

theorem witness_DecodeOfEncode :
    ∃ w m, wide.word = some w ∧ wide.mods = some m ∧ m.lit.isSome = hasLit w ∧ (m.ext.isSome = true → m.chain = true) ∧
      (m.ext = none → m.chain = true → extAt [] 0 = false) ∧
      (packetUnits (encode wide ++ []) 3 0 false 0 []).toOption.isSome = true ∧
      m.chain = (m.lit.isSome || m.ext.isSome) ∧ ∀ e, m.ext = some e → e.chain = false := by
  refine ⟨_, _, rfl, rfl, by decide +kernel, by decide +kernel, by decide +kernel, by decide +kernel, by decide +kernel, ?_⟩
  intro e he
  cases he
  rfl

theorem witness_StepKeepsStanding : (loaded 32 0).Inv ∧ (loaded 32 0).MemInv ∧ ∃ t, step (loaded 32 0) = .next t := by
  refine ⟨⟨by decide +kernel, ?_⟩, by unfold State.MemInv; decide +kernel, goes_next (by decide +kernel)⟩
  intro t T G ht _ hG _ _ hi
  have hT : T ∈ (loaded 32 0).teams := List.mem_of_getElem? ht
  have : ∀ T ∈ (loaded 32 0).teams, ∀ G ∈ T.groups, G.idle = false := by decide +kernel
  rw [this T hT G hG] at hi
  cases hi

/-- The state at the events' turn. -/
def eventsTurn (s : State) : State := { s with sched := { s.sched with turn := true } }

/-- IADD.s32 k2, q1, k0 in a packet of NOPs: the parts of its step at either turn, its bytes decoding to a well-formed instruction. -/
theorem witness_StepRunsDecoded :
    let good (c : Inst) (bs : List Byte) (s2 : State) : Bool := match decodeBytes bs (slotOf c.pc) with
      | .instr i _ => i.wellFormed && (match i.sig with
          | some x => (x.overAllotment (s2.instKernel c).regs).isNone
          | none => true) && (s2.sickRead c i).isNone
      | _ => false
    let s := loaded 32 0x02902800
    s.sched.inbox = [] ∧ s.sched.agenda = [] ∧ s.sched.turn = false ∧ stepParts s good = true ∧ stepParts (eventsTurn s) good = true := by
  refine ⟨by decide +kernel, by decide +kernel, by decide +kernel, by decide +kernel, by decide +kernel⟩

theorem witness_FetchReadsPacket :
    ∃ ks, world.packetKeys one = some ks ∧ ks.length = 12 ∧
      (∀ k ∈ ks, world.isPeerKey k.1 = false ∧ world.dirBlocks (k.1 / 128) true = false) ∧
      ∀ l, one.mask.getLsbD l = true → ((world.instGrp one).lane l).bad = [] := by
  refine ⟨(world.packetKeys one).getD [], by decide +kernel, by decide +kernel, by decide +kernel, lane_zero rfl (by decide +kernel)⟩

/-- A word of major 63 in slot 0, a word of the unassigned major 13, an IADD.s32 with a reserved destination, and one that names k31
under an allotment of 8 registers. -/
theorem witness_BadWordsTrap : ∀ at_ ∈ [id, eventsTurn],
    stepParts (at_ (loaded 32 0x7F000000)) (fun c bs _ => match decodeBytes bs (slotOf c.pc) with
      | .illegal _ _ => true
      | _ => false) = true ∧
    stepParts (at_ (loaded 32 0x1A000000)) (fun c bs _ => match decodeBytes bs (slotOf c.pc) with
      | .undefinedWord _ _ => true
      | _ => false) = true ∧
    stepParts (at_ (loaded 32 0x03802800)) (fun c bs _ => match decodeBytes bs (slotOf c.pc) with
      | .instr i _ => i.decodeReason.isSome
      | _ => false) = true ∧
    stepParts (at_ (onKernel (fun K => { K with regs := 8 }) (loaded 32 0x03782800))) (fun c bs s2 => match decodeBytes bs (slotOf c.pc) with
      | .instr i _ => i.decodeReason.isNone && (match i.sig with
          | some x => (x.overAllotment (s2.instKernel c).regs).isSome
          | none => false)
      | _ => false) = true := by
  intro at_ h
  simp only [List.mem_cons, List.not_mem_nil, or_false] at h
  obtain rfl | rfl := h <;> exact ⟨by decide +kernel, by decide +kernel, by decide +kernel, by decide +kernel⟩

/-! ## Witnesses: traps, arithmetic, control -/

theorem witness_TrapEntry :
    let s := onKernel (fun K => { K with trapOff := 0 }) world
    (0 < s.teams.length ∧ 0 < (s.team 0).groups.length ∧ (s.grp 0 0).inh = false ∧ (s.kernelOf 0).trapOff ≠ 0xFFFFFFFF) ∧
      (trapOf 7 0 1 0 0 0 1).fatal = false ∧ ((s.grp 0 0).lane 31).stopsRunning = true ∧
      ((onLane (fun L => { L with status := .exited }) s).grp 0 0 |>.lane 0).stopsRunning = false := by
  decide +kernel

/-- A kernel without a handler; a fatal trap; a group in handler mode. -/
theorem witness_TrapHalts :
    (∀ s ∈ [world, onGroup (fun G => { G with trapCause := 0x80000000 }) world],
      0 < s.teams.length ∧ 0 < (s.team 0).groups.length ∧ (s.team 0).grid < s.grids.length ∧
        (s.grid (s.team 0).grid).par.card = none ∧ (s.grid (s.team 0).grid).par.issuer = none ∧ (s.team 0).live = true) ∧
      (world.kernelOf 0).trapOff = 0xFFFFFFFF ∧ ((onGroup (fun G => { G with trapCause := 0x80000000 }) world).grp 0 0).inh = true ∧
      (coreStateTrap 0).fatal = true := by
  decide +kernel

/-- Handler mode with lane 0 alone in HMASK, then with lane 1 still to come; outside handler mode. -/
theorem witness_HandlerReturn :
    let h (m : W32) (s : State) : State := onGroup (fun G => { G with trapCause := 0x80000000, hmask := m }) s
    let last := h 1 (onLane (fun L => { L with epc := 380 }) world)
    let early := h 3 world
    let waits (s : State) (l : Nat) : Bool := one.mask.getLsbD l || ((s.instGrp one).lane l).status == .eret
    last.sched.cur = some one ∧ (last.instGrp one).inh = true ∧ (last.instGrp one).lanes.length = 32 ∧
      (∀ l, l < 32 → (last.instGrp one).hmask.getLsbD l = true → waits last l = true ∧
        ((last.instGrp one).lane l).epc.toNat % 4 = 0 ∧ ((last.instGrp one).lane l).epc.toNat < (last.instKernel one).codeSize) ∧
      (early.instGrp one).inh = true ∧ (early.instGrp one).hmask.getLsbD 1 = true ∧ waits early 1 = false ∧
        ((early.instGrp one).lane 1).isExited = false ∧
      (world.instGrp one).inh = false ∧ electLane (world.instGrp one) one.mask ≠ none := by
  decide +kernel

/-- No lane raises an enabled flag: an addition without overflow, with every enable set. -/
def enabled : State → State := onGroup fun G => { G with flags := 0x1F00 }

theorem witness_IntegerResults :
    let s := enabled (withSlots [3, 4] world)
    let f : V3 := ⟨16, 0, 1, 0⟩
    Integer (.iaddS32 f {}) (int32 f {} (iadd true (satOf {}))) ∧ s.Issues one {} ∧
      (s.instGrp one).flagsPass (activeOf s one 0 false) ((int32 f {} (iadd true (satOf {}))).out s one (activeOf s one 0 false) (s.instGrp one)) := by
  refine ⟨.iaddS32 _ _, ⟨rfl, by decide +kernel⟩, ?_⟩
  unfold Group.flagsPass
  decide +kernel

theorem witness_MoveResults :
    let s := enabled world
    let f : V3 := ⟨0, 0, 1, 0⟩
    Move (.movB32 f {}) (int32 f {} fun a _ => (a, 0)) ∧ s.Issues one {} ∧
      (s.instGrp one).flagsPass (activeOf s one 0 false) ((int32 f {} fun a _ => (a, 0)).out s one (activeOf s one 0 false) (s.instGrp one)) := by
  refine ⟨.movB32 _ _, ⟨rfl, by decide +kernel⟩, ?_⟩
  unfold Group.flagsPass
  decide +kernel

/-- 1.0 + 1.0 in binary32 is exact. -/
theorem witness_FloatResults :
    let s := enabled (withSlots [0x3F800000, 0x3F800000] world)
    let f : V3 := ⟨16, 0, 1, 0⟩
    Float (.faddF32 f {}) (float32 f {} (fpAdd fmt32)) ∧ s.Issues one {} ∧
      (s.instGrp one).flagsPass (activeOf s one 0 false) ((float32 f {} (fpAdd fmt32)).out s one (activeOf s one 0 false) (s.instGrp one)) := by
  refine ⟨.faddF32 _ _, ⟨rfl, by decide +kernel⟩, ?_⟩
  unfold Group.flagsPass
  decide +kernel

theorem witness_ConvertResults :
    let s := enabled world
    let f : V3 := ⟨16, 0, 1, 0⟩
    Convert (.expandE4m3E2m3 f {}) (six fmtE2m3 fmtE4m3 f {}) ∧ s.Issues one {} ∧
      (s.instGrp one).flagsPass (activeOf s one 0 false) ((six fmtE2m3 fmtE4m3 f {}).out s one (activeOf s one 0 false) (s.instGrp one)) := by
  refine ⟨.expandE4m3E2m3 _ _, ⟨rfl, by decide +kernel⟩, ?_⟩
  unfold Group.flagsPass
  decide +kernel

theorem witness_ExchangeResults :
    let s := enabled world
    let f : V3 := ⟨16, 0, 1, 0⟩
    Exchange (.shflXorB32 f {}) (exch .b32 fromXor f {}) ∧ s.Issues one {} ∧
      (s.instGrp one).flagsPass (activeOf s one 0 false) ((exch .b32 fromXor f {}).out s one (activeOf s one 0 false) (s.instGrp one)) := by
  refine ⟨.shflXorB32 _ _, ⟨rfl, by decide +kernel⟩, ?_⟩
  unfold Group.flagsPass
  decide +kernel

/-- The sum of the largest binary32 number with itself raises an enabled flag in lane 0. -/
theorem witness_FlagTraps :
    let s := enabled (withSlots [0x7F7FFFFF, 0x7F7FFFFF] world)
    let f : V3 := ⟨16, 0, 1, 0⟩
    let act := activeOf s one 0 false
    Float (.faddF32 f {}) (float32 f {} (fpAdd fmt32)) ∧ s.sched.cur = some one ∧ act.getLsbD 0 = true ∧
      ((s.instGrp one).lane 0).helper = false ∧
      ((float32 f {} (fpAdd fmt32)).out s one act (s.instGrp one) 0).flags &&& (s.instGrp one).enables ≠ 0 :=
  ⟨.faddF32 _ _, by decide +kernel, by decide +kernel, by decide +kernel, by decide +kernel⟩

/-- The instance at the last word of the code. -/
def last : Inst := { one with pc := 380 }

/-- A state with that instance at issue. -/
def atLast (s : State) : State := { s with sched := { s.sched with cur := some last } }

/-- Inside the code; at its last word, with a lane that is no helper lane, and with helper lanes alone. -/
theorem witness_RetireOnly :
    let s := atLast (enabled (withSlots [3, 4] world))
    let v := int32 ⟨16, 0, 1, 0⟩ {} (iadd true (satOf {}))
    world.Issues one {} ∧ s.sched.cur = some last ∧ (s.instKernel last).codeSize ≤ (afterUnit last.pc {}).toNat ∧
      maskLanes last.mask = [0] ∧ ((s.instGrp last).lane 0).helper = false ∧
      (∀ l ∈ maskLanes last.mask, (((helped s).instGrp last).lane l).helper = true) ∧
      Integer (.iaddS32 ⟨16, 0, 1, 0⟩ {}) v ∧ (s.instGrp last).flagsPass (activeOf s last 0 false) (v.out s last (activeOf s last 0 false) (s.instGrp last)) ∧
      Scalar (.sadd ⟨31, 0, 63, 0⟩ {}) ⟨31, 0, 63, 0⟩ {} (· + ·) := by
  refine ⟨issues_world.1, rfl, by decide +kernel, by decide +kernel, by decide +kernel, by decide +kernel, .iaddS32 _ _, ?_, .sadd _ _⟩
  unfold Group.flagsPass
  decide +kernel

/-- Each kind of target at a boundary: the first packet and the last one are taken, the packet after the code and an offset that is no
packet's are not. -/
theorem witness_Branches :
    let G := world.instGrp one
    let at_ (k : W32) : State := onLane (fun L => { L with k := modNth L.k 31 fun _ => k }) world
    let op (k : W64) : State := withSlots [k] world
    AllMay G one.mask (fun _ => 0) (inCode world one) ∧ AllMay G one.mask (fun _ => 12 * 31) (inCode world one) ∧
      AllMay G 0 (fun _ => 12 * 32) (inCode world one) ∧ AllMay G one.mask (fun l => ((at_ 372).instGrp one |>.lane l).reg 31) (isPacket (at_ 372) one) ∧
      AllMay ((op 372).instGrp one) one.mask (fun l => src32 ((op 372).instGrp one) {} l 0) (isPacket (op 372) one) ∧
      inCode world one (12 * 32) = false ∧ (((at_ 376).instGrp one).lane 0 |>.reg 31).toNat % 12 ≠ 0 ∧
      (src32 ((op 376).instGrp one) {} 0 0).toNat % 12 ≠ 0 ∧
      (activeOf world one 0 false).getLsbD 0 = true ∧ (G.lane 0).helper = false ∧ G.sreg 0 = 0 ∧
      ((onGroup (fun G => { G with s := modNth G.s 0 fun _ => 1 }) world).instGrp one).sreg 0 ≠ 0 ∧
      ((((at_ 384).instGrp one).lane 0 |>.reg 31) = 384 ∧ src32 ((op 384).instGrp one) {} 0 0 = 384) := by
  unfold AllMay
  refine ⟨?_, ?_, ?_, ?_, ?_, ?_, ?_, ?_, ?_, ?_, ?_, ?_, ⟨?_, ?_⟩⟩ <;> decide +kernel

/-- A mask with lane 0 enrolled alone, and one that lane 1 is enrolled in too; masks 0 and 7. -/
theorem witness_RejoinMasks :
    let s (n : Nat) (j : W64) : State := onGroup (fun G => { G with j := modNth G.j n fun _ => j }) world
    let arrived (j : W64) : LaneMask := arrOf j ||| (1 &&& enrOf j)
    ((s 0 1).Issues one {} ∧ (s 7 3).Issues one {}) ∧ ((s 7 3).instGrp one).lanes.length = 32 ∧
      7 < ((s 7 3).instGrp one).masks.length ∧ ((s 0 1).instGrp one).masks.getD 0 0 = 1 ∧
      ((s 7 3).instGrp one).masks.getD 7 0 = 3 ∧ activeOf (s 7 3) one 0 false = 1 ∧
      enrOf 1 ≠ 0 ∧ enrOf 1 &&& ~~~arrived 1 = 0 ∧ enrOf 3 &&& ~~~arrived 3 ≠ 0 :=
  ⟨⟨⟨rfl, by decide +kernel⟩, rfl, by decide +kernel⟩, by decide +kernel, by decide +kernel, by decide +kernel, by decide +kernel,
    by decide +kernel, by decide +kernel, by decide +kernel, by decide +kernel⟩

/-- The group of `one` with every lane but lanes 0 and 1 gone, and lane 1 standing as told, to go on at 376. -/
def beside (st : LaneStatus) : State := onGroup (fun G => { G with lanes := mapIdx (fun n L =>
  if n = 0 then L else { L with status := if n = 1 then st else .exited, resume := 376, epc := 380 }) G.lanes }) world

/-- EXIT of lane 0: among lanes that stay, and as the last lane; before a mask that lane 1 has arrived at, of the kernel and of the
handler, and one that it has not; before a team barrier and a cluster barrier that lane 1 has arrived at; before an ERET that lane 1 waits at. -/
theorem witness_ExitEndsLanes :
    let last := beside .exited
    let waits := onGroup (fun G => { G with j := modNth G.j 7 fun _ => maskOf 2 3, jh := modNth G.jh 7 fun _ => maskOf 2 3 }) (beside (.rejoin 7))
    let inH (u : State) : State := onGroup (fun G => { G with trapCause := 0x80000000, hmask := 3 }) u
    let all := [world, last, waits, inH waits, beside (.barrier false 7 0), beside (.barrier true 0 0), inH (beside .eret)]
    (∀ s ∈ all, s.sched.cur = some one ∧ (s.instGrp one).lanes.length = 32 ∧ activeOf s one 0 false = one.mask ∧
      (afterUnit one.pc {}).toNat < (s.instKernel one).codeSize ∧
      ((s.instGrp one).inh = true → ∀ l, l < 32 → (s.instGrp one).hmask.getLsbD l = true → one.mask.getLsbD l = false →
        ((s.instGrp one).lane l).status = .eret → ((s.instGrp one).lane l).epc.toNat % 4 = 0 ∧ inCode s one ((s.instGrp one).lane l).epc = true)) ∧
      (∀ l, l < 32 → one.mask.getLsbD l = true ∨ ((last.instGrp one).lane l).isExited = true) ∧
      ((waits.instGrp one).lane 1).status = .rejoin 7 ∧ (arrOf ((waits.instGrp one).j.getD 7 0)).getLsbD 1 = true ∧
      (enrOf (maskOf 2 3) &&& ~~~one.mask ≠ 0 ∧ enrOf (maskOf 2 3) &&& ~~~one.mask &&& ~~~(arrOf (maskOf 2 3) &&& ~~~one.mask) = 0) ∧
      enrOf (maskOf 0 3) &&& ~~~one.mask &&& ~~~(arrOf (maskOf 0 3) &&& ~~~one.mask) ≠ 0 ∧
      ((beside (.barrier false 7 0)).grp 0 0 |>.lane 1).arrived false 7 = true ∧
      ((beside (.barrier true 0 0)).grp 0 0 |>.lane 1).arrived true 0 = true ∧ (beside (.barrier true 0 0)).setMates 0 = some [0] ∧
      ((inH (beside .eret)).instGrp one).inh = true ∧ (((inH (beside .eret)).instGrp one).lane 1).status = .eret := by
  refine ⟨?_, ?_⟩
  · decide +kernel
  · decide +kernel

theorem witness_ScalarResults : Scalar (.sadd ⟨31, 0, 63, 0⟩ {}) ⟨31, 0, 63, 0⟩ {} (· + ·) ∧ world.Issues one {} :=
  ⟨.sadd _ _, issues_world.1⟩

/-- Indices 31 and 0 lie inside an allotment of 32 registers, 32 and -1 outside it. -/
theorem witness_ElectedMoves :
    let s (n : W64) : State := withSlots [n] world
    let rd (n : W64) : Int := (0 : Int) + (src32 ((s n).instGrp one) {} 0 0).toInt
    (world.instKernel one).regs = 32 ∧ activeOf world one 0 false = 1 ∧ ((world.instGrp one).lane 0).helper = false ∧
      (rd 31 = 31 ∧ rd 0 = 0 ∧ rd 32 = 32 ∧ rd 0xFFFFFFFF = -1) ∧ electLane (world.instGrp one) 1 = some 0 ∧
      electLane ((helped world).instGrp one) 1 = none := by
  decide +kernel

theorem witness_SystemInstructions :
    (world.Issues one {} ∧ (helped world).Issues one {}) ∧ electLane (world.instGrp one) one.mask = some 0 ∧
      electLane ((helped world).instGrp one) one.mask = none ∧ (world.instGrp one).trapCtl.getLsbD 1 = false ∧
      ((onGroup (fun G => { G with trapCtl := 2 }) world).instGrp one).trapCtl.getLsbD 1 = true :=
  ⟨⟨issues_world.1, rfl, by decide +kernel⟩, by decide +kernel, by decide +kernel, by decide +kernel, by decide +kernel⟩

/-! ## Witnesses: memory -/

/-- The last word of the page, of the scratchpad bank, and of rank 0 of the cluster's scratchpads. -/
theorem witness_LoadResults :
    let f : V3 := ⟨16, 0, 63, 0⟩
    let s (a : W64) : State := withSlots [a] world
    Load (.ldB32 f {}) f {} .global 4 1 (loadZero f.d) ∧ (s 0xFFC).Issues one {} ∧ (s 0xFFC).Placed one ∧
      (∀ l, (activeOf (s 0xFFC) one 0 false).getLsbD l = true → (s 0xFFC).Sees one l (elemOf ((s 0xFFC).instGrp one) f {} .global .read 4 l)) ∧
      (∀ l, (activeOf (s 0x7FFC) one 0 false).getLsbD l = true → (s 0x7FFC).Sees one l (elemOf ((s 0x7FFC).instGrp one) f {} .scratch .read 4 l)) ∧
      ∀ l, (activeOf (s 0x7FFC) one 0 false).getLsbD l = true → (s 0x7FFC).Sees one l (elemOf ((s 0x7FFC).instGrp one) f {} .cluster .read 4 l) :=
  ⟨.ldB32 _ _, ⟨rfl, by decide +kernel⟩, ⟨by decide +kernel, by decide +kernel⟩, lane_zero (by decide +kernel) (sees_of (by decide +kernel)),
    lane_zero (by decide +kernel) (sees_of (by decide +kernel)), lane_zero (by decide +kernel) (sees_of (by decide +kernel))⟩

/-- The state with the team's first bank in FIFO mode, its counters as told. -/
def queued (head tail : Nat) : State → State := onTeam fun T => { T with banks := modNth T.banks 0 fun B => { B with mode := .fifo, head := head, tail := tail } }

/-- A queue of one entry, at counter 4095. -/
theorem witness_LoadResults_queue :
    let s : State := queued 4095 0 (withSlots [0] world)
    let T := s.team 0
    let ls := maskLanes (activeOf s one 0 false)
    s.Issues one {} ∧ s.Placed one ∧ ls = [0] ∧ elemAddr (s.instGrp one) {} ⟨0, 0, 63, 0⟩ 16 0 = 0 ∧ AtQueue T 0 ∧
      turnAt ls (fun _ => 0) 0 < entriesIn T 0 ∧ s.poisonAt T.core (entryKey 0 0 4095) 16 = none ∧ s.partOf (0, 0, 0) = none := by
  refine ⟨⟨rfl, ?_⟩, ⟨?_, ?_⟩, ?_, ?_, ⟨?_, ?_, ?_, ?_⟩, ?_, ?_, ?_⟩ <;> decide +kernel

/-- A release at system scope, with no write on its way. -/
def sysRel : Mods := { chain := true, ext := some ⟨false, false, 5, 0, 0, 8⟩ }

theorem witness_StoreResults :
    let f : V3 := ⟨1, 0, 63, 0⟩
    let s : State := withSlots [0xFFC, 7] world
    Store (.stB32 f sysRel) f sysRel .global 4 (dataOf f sysRel .b32) ∧ s.Issues one sysRel ∧ s.Placed one ∧
      (∀ l ∈ performing (s.instGrp one) (activeOf s one 0 false), s.Sees one l (elemOf (s.instGrp one) f sysRel .global .write 4 l)) ∧
      sysRelease sysRel = true ∧ s.teamPending 0 = false :=
  ⟨.stB32 _ _, ⟨rfl, by decide +kernel⟩, ⟨by decide +kernel, by decide +kernel⟩, perf_zero (by decide +kernel) (sees_of (by decide +kernel)),
    by decide +kernel, by decide +kernel⟩

/-- A queue with one free slot, its counters wrapped. -/
theorem witness_StoreResults_queue :
    let s : State := queued 2049 0 (withSlots [0, 7, 8] world)
    let T := s.team 0
    s.Issues one {} ∧ s.Placed one ∧ performing (s.instGrp one) (activeOf s one 0 false) = [0] ∧
      elemAddr (s.instGrp one) {} ⟨1, 0, 63, 0⟩ 16 0 = 0 ∧ AtQueue T 0 ∧ entriesIn T 0 = 2047 ∧ turnAt [0] (fun _ => 0) 0 = 0 ∧
      s.heldBack 0 256 0 16 = false ∧ s.partOf (0, 0, 0) = none ∧ s.teamPending 0 = false := by
  refine ⟨⟨rfl, ?_⟩, ⟨?_, ?_⟩, ?_, ?_, ⟨?_, ?_, ?_, ?_⟩, ?_, ?_, ?_, ?_, ?_⟩ <;> decide +kernel

/-- A compare that meets the value zero, and one that does not. -/
theorem witness_AtomicResults :
    let f : V3 := ⟨2, 0, 1, 0⟩
    let s (x : W64) : State := withSlots [0xFF8, 7, x] world
    let req (x : W64) (l : Nat) : LaneReq := atomReq .global .cas true f {} ((s x).instGrp one) l
    Atom (.atomCasB64 f {}) f {} .global true .cas ∧ ((s 0).Issues one {} ∧ (s 1).Issues one {}) ∧ (s 0).Placed one ∧
      (∀ l ∈ performing ((s 0).instGrp one) (activeOf (s 0) one 0 false), (s 0).Sees one l (req 0 l)) ∧
      (∀ l ∈ performing ((s 1).instGrp one) (activeOf (s 1) one 0 false), (s 1).Sees one l (req 1 l)) ∧
      (atomOf .cas true f {} ((s 0).instGrp one) 0).cmp = 0 ∧ (atomOf .cas true f {} ((s 1).instGrp one) 0).cmp = 1 ∧
      sysRelease {} = false :=
  ⟨.atomCasB64 _ _, ⟨⟨rfl, by decide +kernel⟩, rfl, by decide +kernel⟩, ⟨by decide +kernel, by decide +kernel⟩,
    perf_zero (by decide +kernel) (sees_of (by decide +kernel)), perf_zero (by decide +kernel) (sees_of (by decide +kernel)),
    by decide +kernel, by decide +kernel, by decide +kernel⟩

/-- The last row of a 4 by 4 tile of binary32 elements, with a version word that is even. -/
theorem witness_TileLoadResults :
    let f : V3 := ⟨16, 0, 1, 0⟩
    let s : State := withSlots [0x40, 0x301220002] world
    let req := tileOf .global .read true f {} (s.instGrp one)
    TileLoad (.tldVer f {}) f {} .global true ∧ s.Issues one {} ∧ s.Placed one ∧
      (∀ l, (activeOf s one 0 false).getLsbD l = true → s.Sees one l (req l)) ∧ (s.keysOf one 0 (req 0)).length = 16 ∧
      s.fab.answers = [] ∧ ∀ l, (activeOf s one 0 false).getLsbD l = true →
        leNat ((s.checkLane one l (req l)).look.map fun k => memRead s.mem k.1) % 2 = 0 :=
  ⟨.tldVer _ _, ⟨rfl, by decide +kernel⟩, ⟨by decide +kernel, by decide +kernel⟩, lane_zero (by decide +kernel) (sees_of (by decide +kernel)),
    by decide +kernel, rfl, lane_zero (by decide +kernel) (by decide +kernel)⟩

theorem witness_TileStoreResults :
    let f : V3 := ⟨2, 0, 1, 0⟩
    let s : State := withSlots [0x40, 0x300220002, 5, 6] world
    let req := tileOf .scratch .write false f {} (s.instGrp one)
    TileStore (.tstWholeScr f {}) f {} .scratch true ∧ s.Issues one {} ∧ s.Placed one ∧ s.MemInv ∧
      (∀ l ∈ performing (s.instGrp one) (activeOf s one 0 false), s.Sees one l (req l)) ∧ (s.keysOf one 0 (req 0)).length = 16 ∧
      sysRelease {} = false :=
  ⟨.tstWholeScr _ _, ⟨rfl, by decide +kernel⟩, ⟨by decide +kernel, by decide +kernel⟩, by unfold State.MemInv; decide +kernel,
    perf_zero (by decide +kernel) (sees_of (by decide +kernel)), by decide +kernel, by decide +kernel⟩

theorem witness_RaggedResults :
    let f : V3 := ⟨2, 0, 1, 0⟩
    let s : State := withSlots [0x80, 3, 5, 6] (recorded world)
    let act := activeOf s one 0 false
    Ragged (.rst f {}) f {} .global true ∧ s.Issues one {} ∧ s.Placed one ∧
      (∀ l ∈ performing (s.instGrp one) act, (freshShapes s one act f {} true).Sees one l (raggedOf s one act f {} .global true l)) ∧
      (∀ l ∈ performing (s.instGrp one) act, (recordOf s one act f {} true l).got.isSome = true) ∧
      ((freshShapes s one act f {} true).keysOf one 0 (raggedOf s one act f {} .global true 0)).length = 16 :=
  ⟨.rst _ _, ⟨rfl, by decide +kernel⟩, ⟨by decide +kernel, by decide +kernel⟩, perf_zero (by decide +kernel) (sees_of (by decide +kernel)),
    perf_zero (by decide +kernel) (by decide +kernel), by decide +kernel⟩

/-- The last word of the page for an instance whose lane is not a helper lane; and an instance of helper lanes alone. -/
theorem witness_ScalarMemoryResults :
    let s : State := onGroup (fun G => { G with s := modNth G.s 3 fun _ => 0xFFC }) world
    let f : FS := ⟨4, 3, 63, 0⟩
    let G := s.instGrp one
    let p := scalarAtomOf G f .add false
    (ScalarLoad (.sldB32 f {}) f {} 4 ∧ ScalarStore (.sstB32 f {}) f {} 4 ∧ ScalarAtom (.atomsAddB32 f {}) f {} false .add) ∧
      s.Issues one {} ∧ s.Placed one ∧ maskLanes one.mask = [0] ∧ s.Sees one 0 (scalarOf G f {} 4 .read) ∧
      s.Sees one 0 (scalarOf G f {} 4 .write) ∧ s.Sees one 0 (scalarOf G f {} 4 (.atomic p)) ∧
      (∃ l ∈ maskLanes one.mask, (G.lane l).helper = false) ∧
      ∀ l ∈ maskLanes one.mask, (((helped s).instGrp one).lane l).helper = true :=
  ⟨⟨.sldB32 _ _, .sstB32 _ _, .atomsAddB32 _ _⟩, ⟨rfl, by decide +kernel⟩, ⟨by decide +kernel, by decide +kernel⟩, by decide +kernel,
    sees_of (by decide +kernel), sees_of (by decide +kernel), sees_of (by decide +kernel), by decide +kernel, by decide +kernel⟩

/-- The first and the last line of the page. -/
theorem witness_DiscardAndLastUse :
    let f : V3 := ⟨63, 0, 63, 0⟩
    let s (a : W64) : State := withSlots [a] world
    (s 0).Issues one {} ∧ (s 0).Placed one ∧ (s 0).MemInv ∧ (∀ r ∈ (s 0).fab.requests, r.kind ≠ .discard) ∧
      (∀ l ∈ performing ((s 0).instGrp one) (activeOf (s 0) one 0 false), (s 0).Sees one l (elemOf ((s 0).instGrp one) f {} .global .discard 1 l)) ∧
      ∀ l, (activeOf (s 0xFF0) one 0 false).getLsbD l = true → (s 0xFF0).Sees one l (elemOf ((s 0xFF0).instGrp one) f {} .global .lastuse 16 l) :=
  ⟨⟨rfl, by decide +kernel⟩, ⟨by decide +kernel, by decide +kernel⟩, by unfold State.MemInv; decide +kernel, by decide +kernel,
    perf_zero (by decide +kernel) (sees_of (by decide +kernel)), lane_zero (by decide +kernel) (sees_of (by decide +kernel))⟩

/-- A word within its slice's quota of one contribution; ranges of no byte, of one line and ending at the end of the address space; helper lanes alone. -/
theorem witness_ScatterPrefetchShinv :
    let w : State := { world with eng := { world.eng with scatOv := [{ ctx := 0, size := 2 }] } }
    let s (a n : W64) : State := withSlots [a, n, 0x7FF8] w
    let off : W64 := 0x7FF8
    (s 0xFFC 0).Issues one {} ∧ (s 0xFFC 0).Placed one ∧
      (∀ l ∈ performing ((s 0xFFC 0).instGrp one) (activeOf (s 0xFFC 0) one 0 false),
        (s 0xFFC 0).Sees one l (elemReq .global .scatter 4 4 4 (baseAddr ((s 0xFFC 0).instGrp one) {} 0 l))) ∧
      (s 0xFFC 0).scatOver 0 [localKey 0xFFC] (localKey 0xFFC) = false ∧
      electLane ((s 0 0).instGrp one) 1 = some 0 ∧ ((s 0 0).instGrp one).freeTokens ≠ [] ∧
      (lineCount 0 0 = 0 ∧ lineCount 0 1 = 1 ∧ (0x1FFFFFFFFFFFF80 : Nat) + 128 ≤ 2 ^ 57 ∧ lineCount 0x1FFFFFFFFFFFF80 128 = 1) ∧
      electLane ((helped world).instGrp one) 1 = none ∧
      (s 0 1).Sees one 0 { segs := [⟨.scratch, off, 8, .write, false⟩], rep := off, kind := 1, own := misaligned off 8 1 } :=
  ⟨⟨rfl, by decide +kernel⟩, ⟨by decide +kernel, by decide +kernel⟩, perf_zero (by decide +kernel) (sees_of (by decide +kernel)),
    one_fits (by decide +kernel) rfl, by decide +kernel, by decide +kernel, by decide +kernel, by decide +kernel, sees_of (by decide +kernel)⟩

/-- Whether nothing but the checks of lanes decides, each of which fares as `ok` says. -/
def decidedB (s : State) (c : Inst) (ls : List Nat) (q : Nat → LaneReq) (ok : LaneAcc → Bool) : Bool :=
  ls.all fun l =>
    let x := s.checkLane c l (q l)
    (s.partOf (c.team, c.group, l)).isNone && x.busy.isEmpty && ((x.pre ++ x.look).all fun k => !s.isPeerKey k.1 && !s.dirBlocks (k.1 / 128) true) && ok x

theorem decided_of {s : State} {c : Inst} {ls : List Nat} {q : Nat → LaneReq} {ok : LaneAcc → Bool} (h : decidedB s c ls q ok = true) :
    Decided s c ls (fun l => s.checkLane c l (q l)) ∧ ∀ l ∈ ls, ok (s.checkLane c l (q l)) = true := by
  simp only [decidedB, List.all_eq_true, Bool.and_eq_true, List.isEmpty_iff, Option.isNone_iff_eq_none, Bool.not_eq_true'] at h
  exact ⟨fun l hl => ⟨(h l hl).1.1.1, (h l hl).1.1.2, (h l hl).1.2⟩, fun l hl => (h l hl).2⟩

/-- A lane meets a condition, not that of an odd version, and takes no entry of a queue. -/
def meetsB (x : LaneAcc) : Bool := (x.first.any fun k => k.ord != ordVersion) && x.fifo.isNone

/-- A load, a store, an atomic, a tile load and a tile store at addresses that are no multiple of their elements; a ragged load whose
record's address is none of 64. -/
theorem witness_MemoryTrapsAndParks_traps :
    let f : V3 := ⟨16, 0, 63, 0⟩
    let d : V3 := ⟨2, 0, 1, 0⟩
    let s : State := withSlots [0x41, 0x301220002] world
    let G := s.instGrp one
    let act := activeOf s one 0 false
    let ragged := raggedOf s one act f {} .global false
    (Accesses (.ldB32 f {}) f {} 1 true false (fun s _ => s) (fun s c => elemOf (s.instGrp c) f {} .global .read 4) ∧
      Accesses (.stB32 d {}) d {} 0 false false (fun s _ => s) (fun s c => elemOf (s.instGrp c) d {} .global .write 4) ∧
      Accesses (.atomCasB64 d {}) d {} 1 false false (fun s _ => s) (fun s c => atomReq .global .cas true d {} (s.instGrp c)) ∧
      Accesses (.tldVer d {}) d {} 2 true true (fun s _ => s) (fun s c => tileOf .global .read true d {} (s.instGrp c)) ∧
      Accesses (.tstWholeScr d {}) d {} 0 false true (fun s _ => s) (fun s c => tileOf .scratch .write false d {} (s.instGrp c)) ∧
      Accesses (.rld f {}) f {} 2 true false (fun s c => freshShapes s c (activeOf s c f.g.toNat (guardNeg {})) f {} false)
        (fun s c => raggedOf s c (activeOf s c f.g.toNat (guardNeg {})) f {} .global false)) ∧
    (s.Issues one {} ∧ s.Placed one ∧ performing G act = [0] ∧ maskLanes act = [0]) ∧
      (∀ q ∈ [elemOf G f {} .global .read 4, elemOf G d {} .global .write 4, atomReq .global .cas true d {} G, tileOf .global .read true d {} G,
        tileOf .scratch .write false d {} G], decidedB s one [0] q meetsB = true) ∧
      decidedB (freshShapes s one act f {} false) one [0] ragged meetsB = true := by
  refine ⟨⟨.load (.ldB32 _ _), .store (.stB32 _ _), .atom (.atomCasB64 _ _), .tileLoad (.tldVer _ _), .tileStore (.tstWholeScr _ _),
    .ragged (.rld _ _)⟩, ⟨⟨rfl, ?_⟩, ⟨?_, ?_⟩, ?_, ?_⟩, ?_, ?_⟩ <;> decide +kernel

/-- The instance of lanes 0 and 1. -/
def both : Inst := ⟨0, 0, 3, 0⟩

/-- Lane 0 misses a page and lane 1 finds its bytes; a lane at an absent scratchpad line; one at an empty queue and one at a full
queue; a TST.whole on a missing page. -/
theorem witness_MemoryTrapsAndParks_parks :
    let f : V3 := ⟨16, 0, 63, 0⟩
    let w : State := { withSlots [0x200000] world with sched := { world.sched with cur := some both } }
    let G := w.instGrp both
    let q := elemOf G f {} .global .read 4
    let gone : State := onTeam (fun T => { T with absent := [0] }) (withSlots [0] world)
    let wide : LaneReq := elemOf (world.instGrp one) f {} .scratch .read 16 0
    let tile : State := withSlots [0x200000, 0x301220002] world
    let tq := tileOf .global .write false ⟨2, 0, 1, 0⟩ {} (tile.instGrp one)
    (w.Issues both {} ∧ w.Placed both ∧ maskLanes (activeOf w both 0 false) = [0, 1] ∧ (G.lane 0).helper = false) ∧
      decidedB w both [0, 1] q (fun x => x.conds.isEmpty) = true ∧ Misses (w.team 0) true (w.checkLane both 0 (q 0)) ∧ w.Sees both 1 (q 1) ∧
      Misses (gone.team 0) true (gone.checkLane one 0 (elemOf (gone.instGrp one) f {} .scratch .read 4 0)) ∧
      Misses ((queued 5 5 world).team 0) true ((queued 5 5 world).checkLane one 0 wide) ∧
      Misses ((queued 4 2052 world).team 0) false ((queued 4 2052 world).checkLane one 0 (elemOf (world.instGrp one) f {} .scratch .write 16 0)) ∧
      decidedB tile one [0] tq (fun x => x.conds.isEmpty) = true ∧ Misses (tile.team 0) false (tile.checkLane one 0 (tq 0)) :=
  ⟨⟨⟨rfl, by decide +kernel⟩, ⟨by decide +kernel, by decide +kernel⟩, by decide +kernel, by decide +kernel⟩, by decide +kernel,
    .inl (by decide +kernel), sees_of (by decide +kernel), .inr (.inl (by decide +kernel)), .inr (.inr ⟨0, by decide +kernel, by decide +kernel⟩),
    .inr (.inr ⟨0, by decide +kernel, by decide +kernel⟩), by decide +kernel, .inl (by decide +kernel)⟩

/-- A cluster store within the last word of rank 0's bank; scalar accesses there, at an address that is no multiple of 4, and on a
missing page. -/
theorem witness_MemoryTrapsAndParks_cluster :
    let d : V3 := ⟨1, 0, 63, 0⟩
    let s : State := withSlots [0x7FFC] world
    let sc (a : W64) : State := onGroup (fun G => { G with s := modNth G.s 3 fun _ => a }) world
    let f (sx : BitVec 5) : FS := ⟨4, 3, 63, sx⟩
    let x (a : W64) : LaneAcc := (sc a).checkLane one 0 (scalarOf ((sc a).instGrp one) (f 0) {} 4 .read)
    (Store (.stB32Cscr d {}) d {} .cluster 4 (dataOf d {} .b32) ∧ ScalarAccess ((sc 0).instGrp one) (.sldB32 (f 0) {}) (f 0) {} 4 .read) ∧
      (s.Issues one {} ∧ s.Placed one ∧ performing (s.instGrp one) (activeOf s one 0 false) = [0] ∧ s.partOf (0, 0, 0) = none) ∧
      InSet s one (s.kernelOf 0) (elemAddr (s.instGrp one) {} d 4 0) 4 ∧
      (scalarSpace (f 16).sx = .cluster ∧ InSet (sc 0x7FFC) one ((sc 0x7FFC).kernelOf 0) (scalarAddr ((sc 0x7FFC).instGrp one) (f 16) {}) 4) ∧
      (maskLanes one.mask = [0] ∧ ((s.instGrp one).lane 0).helper = false) ∧
      ((x 0x41).busy = [] ∧ (x 0x41).first.isSome = true) ∧ (x 0x200000).busy = [] ∧ (x 0x200000).conds = [] ∧ (x 0x200000).pages ≠ [] := by
  refine ⟨⟨.stB32Cscr _ _, .load (.sldB32 _ _)⟩, ⟨⟨rfl, ?_⟩, ⟨?_, ?_⟩, ?_, ?_⟩, ⟨?_, ?_, ?_, ?_, ?_⟩, ⟨?_, ⟨?_, ?_, ?_, ?_, ?_⟩⟩, ⟨?_, ?_⟩, ⟨?_, ?_⟩, ?_, ?_, ?_⟩ <;>
    decide +kernel

/-! ## Witnesses: synchronisation and the matrix engines -/

/-- Every lane but lane 0 has exited: then all of the team's lanes are at the barrier; else not. -/
theorem witness_FencesAndBarriers :
    let gone : State := onGroup (fun G => { G with lanes := (indexed G.lanes).map fun x => if x.1 == 0 then x.2 else { x.2 with status := .exited } }) world
    let f : V4 := ⟨63, 63, 16, 0⟩
    (gone.Issues one {} ∧ gone.Placed one ∧ world.Issues one {} ∧ world.Placed one) ∧
      (f.c.toNat / 8 = 2 ∧ scopeOf ⟨63, 63, 40, 0⟩ = 5 ∧ activeOf world one 0 false = 1 ∧ world.teamPending 0 = false) ∧
      (∀ l, one.mask.getLsbD l = true → l < (world.instGrp one).lanes.length ∧ ((world.instGrp one).lane l).status = .run) ∧
      world.setMates 0 = some [0] ∧
      (∀ l, l < 32 → ((gone.grp 0 0).lane l).isExited = true ∨ l = 0) ∧
      ((world.grp 0 0).lane 31).isExited = false ∧ ((world.grp 0 0).lane 31).arrived false 2 = false :=
  ⟨⟨⟨rfl, by decide +kernel⟩, ⟨by decide +kernel, by decide +kernel⟩, issues_world.1, issues_world.2.1⟩, by decide +kernel,
    lane_zero (P := fun l => l < (world.instGrp one).lanes.length ∧ ((world.instGrp one).lane l).status = .run) rfl (by decide +kernel),
    by decide +kernel, by decide +kernel, by decide +kernel, by decide +kernel⟩

/-- A count of one, which BOWAIT waits for, and one of zero, which it does not. -/
theorem witness_BarrierObjects :
    let f : V4 := ⟨0, 1, 0, 0⟩
    let s : State := withSlots [0x10, 5] world
    let up : State := scr 0x10 (leBytes 8 1) s
    let add (l : Nat) : PeerAtomic := ⟨.add, true, src (s.instGrp one) {} l f.b .s64, 0⟩
    let ran (u : State) : State := u.lookTime.2.modGroup 0 0 fun G => G.mapLanes fun l L =>
      if one.mask.getLsbD l then { L with status := .run } else L
    (s.Issues one {} ∧ up.Issues one {}) ∧ (s.Placed one ∧ up.Placed one) ∧ electLane (s.instGrp one) 1 = some 0 ∧
      electLane ((helped s).instGrp one) 1 = none ∧ s.Sees one 0 (objectOf s one {} f (fun _ => .write) 0) ∧
      (∀ l ∈ performing (s.instGrp one) (activeOf s one 0 false), s.Sees one l (objectOf s one {} f (fun l => .atomic (add l)) l)) ∧
      (∀ l, (activeOf s one 0 false).getLsbD l = true → (ran s).Sees one l (objectOf s one {} f (fun _ => .read) l)) ∧
      (∀ l, (activeOf up one 0 false).getLsbD l = true → (ran up).Sees one l (objectOf up one {} f (fun _ => .read) l)) ∧
      (BitVec.ofNat 64 (valueAt (ran s) one 0 (objectOf s one {} f (fun _ => .read) 0))).toInt = 0 ∧
      (BitVec.ofNat 64 (valueAt (ran up) one 0 (objectOf up one {} f (fun _ => .read) 0))).toInt = 1 :=
  ⟨⟨⟨rfl, by decide +kernel⟩, rfl, by decide +kernel⟩, ⟨⟨by decide +kernel, by decide +kernel⟩, by decide +kernel, by decide +kernel⟩,
    by decide +kernel, by decide +kernel, sees_of (by decide +kernel), perf_zero (by decide +kernel) (sees_of (by decide +kernel)),
    lane_zero (by decide +kernel) (sees_of (by decide +kernel)), lane_zero (by decide +kernel) (sees_of (by decide +kernel)),
    by decide +kernel, by decide +kernel⟩

/-- A card that fills 16 bytes at 0x200, with a barrier object at 0x7FF8 and its completion record at 0x40; and bytes that are no card. -/
def fill : List Byte :=
  leBytes 4 0x04010000 ++ leBytes 4 0x7FF8 ++ leBytes 8 0x40 ++ leBytes 8 0 ++ leBytes 8 0x200 ++ leBytes 8 0 ++ leBytes 8 16 ++ List.replicate 16 0

theorem witness_TokensCardsAndLaunches_kick :
    let f : V4 := ⟨0, 63, 0, 0⟩
    let s (bs : List Byte) : State := scr 0 bs (withSlots [0] world)
    let full : State := { s fill with eng := { (s fill).eng with cards := List.replicate 64 (cardAt (s fill) one fill) } }
    let C (u : State) : Card := cardAt u one (blockAt u one (src32 (u.instGrp one) {} 0 f.a) 64)
    let x := (s fill).checkLane one 0 (structReq (s fill) 0 0 64 .read)
    electLane ((s fill).instGrp one) 1 = some 0 ∧ x.conds = [] ∧ x.lines = [] ∧
      (s []).cardBad 0 (C (s [])) = true ∧ (s fill).cardBad 0 (C (s fill)) = false ∧ (s fill).coreCards 0 = 0 ∧
      full.cardBad 0 (C full) = false ∧ full.coreCards 0 = 64 := by
  decide +kernel

/-- A token that is busy and one that is not; a contribution of the team under scope 2; queues disabled, of another context, full,
open, and with a slot on a host that is down. -/
theorem witness_TokensCardsAndLaunches :
    let busy : State := onGroup (fun G => { G with tokens := modNth G.tokens 3 fun T => { T with busy := true, gen := 0 } }) (withSlots [3] world)
    let slot (u : State) : Token := (u.instGrp one).tokens.getD ((src32 (u.instGrp one) {} 0 0).toNat % 32) {}
    let held : State := { world with eng := { world.eng with scatter := [⟨0, localKey 0x200, 0x200, 0, 0, 0, 7, 0, 0, 0, 0⟩] } }
    let covered := held.eng.scatter.filter fun x => held.scopeCovers one 2 x
    let gl : State := withSlots [0x100, 63] world
    let rq : LaneReq := { segs := [⟨.global, 0x100, 128, .read, false⟩], rep := 0x100 }
    let q (ctl size w : W32) : State := gl.modQueue 63 fun Q => { Q with qctl := ctl, qsize := size, qbase := 0x8000000000000000, qwrite := w }
    let down : State := { q 0x80000000 4 2 with hub := { world.hub with hostDown := true } }
    (world.Issues one {} ∧ world.Placed one) ∧
      ((slot busy).busy = true ∧ (slot busy).gen = (src32 (busy.instGrp one) {} 0 0).extractLsb' 5 27) ∧ (slot (withSlots [3] world)).busy = false ∧
      (covered = held.eng.scatter ∧ (∀ k ∈ covered.map (·.pa), held.dirBlocks (k / 128) true = false) ∧ held.teamPending 0 = false ∧ held.regs.elSize = 0) ∧
      (parseSource 0x100).bad = false ∧ (parseSource 0x100).space ≤ 1 ∧ (parseSource 0x100).rank = 0 ∧ gl.Sees one 0 rq ∧
      ((q 0 4 0).queue 63).en = false ∧ (((q 0x80010000 4 0).queue 63).en = true ∧ ((q 0x80010000 4 0).queue 63).ctx ≠ (q 0x80010000 4 0).ctxOf 0) ∧
      (((q 0x80000000 4 3).queue 63).ctx = 0 ∧ ((q 0x80000000 4 3).queue 63).count = 3 ∧ ((q 0x80000000 4 2).queue 63).count = 2 ∧
        ((q 0x80000000 4 2).queue 63).en = true) ∧
      (∃ v ps, (q 0x80000000 4 2).hubRange ((q 0x80000000 4 2).slotUnit 0) ((q 0x80000000 4 2).queue 63) (((q 0x80000000 4 2).queue 63).slotAt 2) 128 .write =
        .ok v ps) ∧
      (∃ x, down.hubRange (down.slotUnit 0) (down.queue 63) ((down.queue 63).slotAt 2) 128 .write = .bad x) :=
  ⟨⟨issues_world.1, issues_world.2.1⟩, by decide +kernel, by decide +kernel, by decide +kernel, by decide +kernel, by decide +kernel, by decide +kernel,
    sees_of (by decide +kernel), by decide +kernel, by decide +kernel, by decide +kernel, ⟨_, _, rfl⟩, ⟨_, rfl⟩⟩

/-- A bank that a card uses; modes 0 to 4 of a bank that none uses; a core with four CACHE banks and one with more. -/
theorem witness_BankModes :
    let s (md : W64) : State := withSlots [0, md] world
    let used : State := scr 0 (leBytes 4 0x04010000 ++ leBytes 4 0x7FF8 ++ leBytes 8 0x40 ++ leBytes 8 0 ++ leBytes 8 0x4000000000000200 ++ fill.drop 32) (s 0)
    let u : State := { used with eng := { used.eng with cards := [cardAt used one (blockAt used one 0 64)] } }
    let few : State := onTeam (fun T => { T with banks := ⟨0, .cache, false, 0, 0⟩ :: List.replicate 44 ⟨1, .scratch, false, 0, 0⟩ }) (s 1)
    ((s 0).Issues one {} ∧ (s 0).Placed one ∧ (s 0).MemInv) ∧ (electLane ((s 0).instGrp one) 1 = some 0 ∧ ((s 0).team 0).banks[0]?.isSome = true) ∧
      (u.bankBusy 0 0 = true ∧ (s 0).bankBusy 0 0 = false) ∧
      (src32 ((s 4).instGrp one) {} 0 1 = 4 ∧ src32 ((s 3).instGrp one) {} 0 1 = 3) ∧
      (((s 0).team 0).banks.map (·.mode) = [.scratch] ∧ (s 0).cacheBanks 0 = 47) ∧
      (few.cacheBanks 0 = 4 ∧ (few.team 0).banks[0]?.map (·.mode) = some .cache) :=
  ⟨⟨⟨rfl, by decide +kernel⟩, ⟨by decide +kernel, by decide +kernel⟩, by unfold State.MemInv; decide +kernel⟩, by decide +kernel,
    by decide +kernel, by decide +kernel, by decide +kernel, by decide +kernel⟩

/-! ## Witnesses: matrix instructions -/

/-- The kernel has one accumulator tile, the team its tile. -/
def tiled (s : State) : State := onTeam (fun T => { T with tiles := [{}] }) (onKernel (fun K => { K with acc := 1 }) s)

/-- A parameter block: PCTL, DIMS, K, both layouts and the word at 0x38. -/
def mmaBlockOf (pctl dims K lay rec : Nat) : List Byte :=
  leBytes 4 0x4D420100 ++ leBytes 4 pctl ++ leBytes 4 dims ++ leBytes 4 K ++ leBytes 8 0x200 ++ leBytes 8 0x300 ++ leBytes 4 lay ++
    leBytes 4 lay ++ List.replicate 16 0 ++ leBytes 8 rec ++ List.replicate 64 0

/-- A dense block; a sparse one of format 5, whose metadata keep columns 0 to 3; one with a shape record; no block. -/
theorem witness_MmaAccepted :
    let f : V4 := ⟨63, 62, 62, 0⟩
    let dense : Mods := { lit := some 0x0202 }
    let sp : Mods := { lit := some 0x0505 }
    let s (bs : List Byte) : State := tiled (scr 0 bs (recorded world))
    let d := s (mmaBlockOf 0 0x204 4 0x220002 0)
    let r := s (mmaBlockOf 4 0x204 4 0x220002 0x80)
    let z := s (mmaBlockOf 2 0x202 8 0x330005 0)
    let lane (n : BitVec 16) : Mods := { chain := true, ext := some ⟨false, false, 0, 0, n, 1⟩ }
    (d.Issues one dense ∧ d.Placed one) ∧
      (mmaLane (d.instGrp one) dense 1 = some 0 ∧ mmaLane ((helped d).instGrp one) dense 1 = none ∧
        mmaLane (d.instGrp one) (lane 5) 1 = none ∧ mmaLane (d.instGrp one) (lane 0) 1 = some 0) ∧
      (formatPair 0x0202 = some false ∧ formatPair 0x0505 = some false) ∧
      (∀ l ∈ performing (d.instGrp one) 1, src32 (d.instGrp one) dense l f.b = src32 (d.instGrp one) dense 0 f.b) ∧
      (0 + 128 ≤ d.scratchBytes 0) ∧ HasBlock d one 0 0 128 ∧
      (s []).checkMma 0 (blockAt (s []) one 0 128) 0x0202 false = some 2 ∧
      d.checkMma 0 (blockAt d one 0 128) 0x0202 false = none ∧ TileTakes d one 0 ∧
      (z.checkMma 0 (blockAt z one 0 128) 0x0505 false = none ∧ badMeta (z.instGrp one) sp 63 1 2 ≠ none ∧
        badMeta (z.instGrp one) { lit := some 0x688688 } 62 1 2 = none) ∧
      (r.checkMma 0 (blockAt r one 0 128) 0x0202 false = none ∧ bitsOf (fieldAt (blockAt r one 0 128) 4 4) 2 2 = 1 ∧
        ((r.dropStale one [(0, 0x80)]).recordFor one 0 0x80 0).got.isSome = true) := by
  refine ⟨⟨⟨rfl, ?_⟩, ?_, ?_⟩, ?_, ?_, ?_, ?_, ⟨?_, ?_⟩, ?_, ?_, ⟨?_, ?_, ?_⟩, ?_, ?_⟩ <;> decide +kernel

/-- Blocks for the four forms of tile 0; a tile that is not allotted; a tile with an undelivered failure. -/
theorem witness_TileFormsAccepted :
    let drain : List Byte := leBytes 4 0x44420100 ++ leBytes 4 2 ++ leBytes 4 0x204 ++ leBytes 4 0 ++ leBytes 8 0x200 ++ leBytes 4 0x220002 ++ List.replicate 36 0
    let upd : List Byte := leBytes 4 0x55420100 ++ leBytes 4 0 ++ leBytes 4 0x1004 ++ leBytes 4 32 ++ List.replicate 112 0
    let s (bs : List Byte) : State := tiled (scr 0 bs (withSlots [0, 1] world))
    let ld : W64 := 0x4000000000000000
    let sick : State := onTeam (fun T => { T with tiles := [{ fails := [{ cause := 14, reason := 11, aux1 := 0, off := 0 }] }] }) (s [])
    ((s []).Issues one {} ∧ (s []).Placed one) ∧ (electLane ((s []).instGrp one) 1 = some 0 ∧ electLane ((helped (s [])).instGrp one) 1 = none) ∧
      ((s []).instKernel one).acc = 1 ∧ TileTakes (s []) one 0 ∧ (src32 ((s []).instGrp one) {} 0 1).toNat < 2 ∧
      ((s []).sourceBad 0 0x200 = false ∧ (parseSource 0x200).space = 0 ∧ (s []).sourceBad 0 ld.toNat = false ∧ (parseSource ld).space = 1 ∧
        (parseSource ld).addr + 32768 ≤ (s []).scratchBytes 0) ∧
      (HasBlock (s drain) one 0 0 64 ∧ (s drain).checkDrain 0 0 (blockAt (s drain) one 0 64) = none) ∧
      (HasBlock (s upd) one 0 0 128 ∧ (s upd).checkUpd 0 0 (blockAt (s upd) one 0 128) = none) ∧
      (sick.tile 0 0).fails ≠ [] := by
  refine ⟨⟨⟨rfl, ?_⟩, ?_, ?_⟩, ?_, ?_, ⟨?_, ?_, ?_⟩, ?_, ?_, ⟨⟨?_, ?_⟩, ?_⟩, ⟨⟨?_, ?_⟩, ?_⟩, ?_⟩ <;> decide +kernel

/-- A tile without operations, one with an operation that has not ended, one with a failure before helper lanes alone, and none of
Active(). -/
theorem witness_MatrixWaitsAndMaxima :
    let s : State := tiled world
    let late : State := onTeam (fun T => { T with tiles := [{ taken := 1 }] }) s
    let failed : State := helped (onTeam (fun T => { T with tiles := [{ fails := [{ cause := 14, reason := 11, aux1 := 0, off := 0 }] }] }) s)
    (s.Issues one {} ∧ s.Placed one) ∧ electLane (s.instGrp one) 1 = some 0 ∧ (s.instKernel one).acc = 1 ∧
      s.targetsMet 0 [(0, 0, (s.tile 0 0).taken)] = true ∧ (s.tile 0 0).fails = [] ∧
      (late.team 0).tiles.length = 1 ∧ (late.team 0).status = .running ∧ (late.tile 0 0).ended < (late.tile 0 0).taken ∧
      ((late.instGrp one).lane 0).waitFor = none ∧ s.targetsMet 0 (s.amaxDrains 0 15) = true ∧
      (electLane (failed.instGrp one) 1 = none ∧ failed.targetsMet 0 [(0, 0, (failed.tile 0 0).taken)] = true ∧ (failed.tile 0 0).fails ≠ []) ∧
      (activeOf s one 0 false = 1 ∧ activeOf s one 0 true = 0) := by
  refine ⟨⟨⟨rfl, ?_⟩, ?_, ?_⟩, ?_, ?_, ?_, ?_, ?_, ?_, ?_, ?_, ?_, ?_, ?_⟩ <;> decide +kernel

/-- A 4 by 8 source of format 5 at 0x200 and its destination at 0x300; no elected lane. -/
theorem witness_CompressedPruning :
    let f : V4 := ⟨0, 1, 2, 0⟩
    let s : State := withSlots [0x300, 0x320005, 0x200] world
    let go (y d : Layout) : Prop := ∀ l, (activeOf s one 0 false).getLsbD l = true → s.Sees one l (pruneOf (s.instGrp one) y d 0 0x200 0x300 l)
    (s.Issues one {} ∧ s.Placed one) ∧ electLane (s.instGrp one) 1 = some 0 ∧ electLane ((helped s).instGrp one) 1 = none ∧
      src (s.instGrp one) {} 0 f.b .b64 = 0x320005 ∧
      ∃ y d, s.checkCompress one 0 0x300 0x320005 0x200 = .inr (y, d) ∧ go y d := by
  refine ⟨⟨⟨rfl, ?_⟩, ?_, ?_⟩, ?_, ?_, ?_, _, _, rfl, lane_zero ?_ (sees_of ?_)⟩ <;> decide +kernel

/-! ## Witnesses: textures and tapes -/

/-- A texture of one texel at 0x100 with its gradients at 0x200; the adjoint sends one contribution, within the quota. -/
theorem witness_TextureResults :
    let d : List Byte := leBytes 4 0x54580100 ++ leBytes 4 0x10002 ++ leBytes 4 1 ++ leBytes 4 1 ++ leBytes 8 0x100 ++ leBytes 8 0x200 ++ List.replicate 32 0
    let w : State := { world with eng := { world.eng with scatOv := [{ ctx := 0, size := 2 }] } }
    let s : State := withSlots [0x40, 0, 0, 0x3F800000, 0] (w.wr (localKey 0x40) d)
    let f : V4 := ⟨0, 1, 3, 0⟩
    let key : Group → Nat → W32 := fun G l => (srcWords G l f.b 4).getD 3 0
    let x : Nat → TtLane := texLane .adjoint f {} s one
    let req : Nat → LaneReq := fun l => sampleReq (s.instGrp one) f {} l (x l)
    let all : List Nat := (performing (s.instGrp one) 1).flatMap fun l => wordsOf s one l (req l)
    Sampled (.texadj f {}) f {} 2 key (texLane .adjoint f {}) ∧ (s.Issues one {} ∧ s.Placed one) ∧
      (∀ l, (activeOf s one 0 false).getLsbD l = true → s.Sees one l (req l)) ∧
      all = [localKey 0x200] ∧ s.scatOver 0 [localKey 0x200] (localKey 0x200) = false ∧
      (∀ l, (activeOf s one 0 false).getLsbD l = true → s.Sees one l (sampleReq (s.instGrp one) f {} l (texLane .sample f {} s one l))) ∧
      (∀ l, (activeOf s one 0 false).getLsbD l = true → s.Sees one l (sampleReq (s.instGrp one) ⟨0, 1, 3, 0⟩ {} l (edgeqLane ⟨0, 1, 3, 0⟩ {} s one l))) :=
  ⟨.texadj _ _, ⟨⟨rfl, by decide +kernel⟩, by decide +kernel, by decide +kernel⟩, lane_zero (by decide +kernel) (sees_of (by decide +kernel)),
    by decide +kernel, one_fits (by decide +kernel) rfl, lane_zero (by decide +kernel) (sees_of (by decide +kernel)),
    lane_zero (by decide +kernel) (sees_of (by decide +kernel))⟩

/-- No tape, a misaligned descriptor, one that holds no tape; and a new tape of 32 streams at 0x100, whose stream 0 is sealed. -/
theorem witness_TapeResults :
    let d : List Byte := leBytes 4 0x54440100 ++ leBytes 4 32 ++ leBytes 8 0 ++ leBytes 8 0x100 ++ leBytes 8 0x800 ++ leBytes 8 0 ++ List.replicate 24 0
    let s (a : W64) : State := onTeam (fun T => { T with tapeDesc := a }) (mapped (world.wr (localKey 0x40) d))
    let x (a : W64) : LaneAcc := (s a).checkSeg 0 { bad := [] } a ⟨.global, a, 64, .read, false⟩
    let bs (a : W64) : List Byte := (x a).keys.map fun y => memRead (s a).mem y.1
    let f : V4 := ⟨63, 63, 63, 0⟩
    let D : TapeDesc := ⟨32, 0, 0x100, 0x800, 0, 0⟩
    let s2 := (s 0x40).freshTape 0 0x40
    let xs : List TapeLane := tapeLanesOf s2 one .tseal 0x40 D (fun _ _ => 0) [0]
    let at_ (y : TapeLane) : Option (List (Nat × Nat × Bool)) :=
      match s2.regionAcc (s2.tapeUnit one y.lane) (((s 0x40).instGrp one).lane y.lane) (s2.tapeRanges one .tseal 0x40 D y) .write with
      | .ok _ ps => some ps
      | _ => none
    Taped (.tseal f {}) f {} .tseal (fun _ _ => 0) ∧ ((s 0x40).Issues one {} ∧ (s 0x40).Placed one) ∧
      performing ((s 0x40).instGrp one) (activeOf (s 0x40) one 0 false) = [0] ∧
      performing ((helped (s 0x40)).instGrp one) (activeOf (s 0x40) one 0 false) = [] ∧ (((s 0x40).instGrp one).lane 0).segFail = none ∧
      (((s 0).team 0).tapeDesc = 0 ∧ ((s 8).team 0).tapeDesc = 8) ∧
      ((x 0x40).conds = [] ∧ (x 0x40).pages = [] ∧ (x 0x80).conds = [] ∧ (x 0x80).pages = []) ∧
      (parseTape (bs 0x80) = none ∧ parseTape (bs 0x40) = some D) ∧ KeysHere (s 0x40) (x 0x40).keys ∧
      s2.tapeRows one .tseal 0x40 D [(0, 0, 0)] = [] ∧ (s 0x40).lid 0 0 0 = 0 ∧ ((s 0x40).team 0).tapeFail = [] ∧
      (xs.length = 1 ∧ (∀ y ∈ xs, s2.tapeSpan one .tseal 0x40 y = none ∧ (at_ y).isSome = true) ∧
        (s 0x40).unitPending (0, 251, 0) = false ∧ (s 0x40).fab.answers = []) ∧
      ∀ u, s2.engGlobal (s2.tapeUnit one 0) (0x40 + 0x20) 8 .write ≠ .wait u :=
  ⟨.tseal _ _, ⟨⟨rfl, by decide +kernel⟩, by decide +kernel, by decide +kernel⟩, by decide +kernel, by decide +kernel, by decide +kernel,
    by decide +kernel, by decide +kernel, by decide +kernel, by unfold KeysHere; decide +kernel, by decide +kernel, by decide +kernel, by decide +kernel,
    by decide +kernel, found_here (by decide +kernel)⟩

/-! ## Witnesses: launches -/

/-- A kernel descriptor at 0x20000, a launch packet of one team for it with its record at 0x3000, and the registers of queue 0 over
the ring of four slots at 0x2000 that holds the packet. -/
def kernelBytes : List Byte :=
  leBytes 4 0x474B0100 ++ leBytes 4 12 ++ leBytes 4 0 ++ leBytes 4 0xFFFFFFFF ++ List.replicate 16 0 ++ leBytes 8 384 ++ List.replicate 24 0

def packetBytes (gx compl : Nat) : List Byte :=
  leBytes 4 0x4C500100 ++ leBytes 4 0 ++ leBytes 8 0x20000 ++ leBytes 4 gx ++ leBytes 4 1 ++ leBytes 4 1 ++ List.replicate 76 0 ++ leBytes 8 compl ++
    List.replicate 16 0

def ringed (bs : List Byte) (s : State) : State :=
  ((mapped s).wr (localKey 0x20000) kernelBytes).wr (localKey 0x2000) bs |>.modQueue 0 fun Q =>
    { Q with qbase := 0x2000, qsize := 4, qctl := 0x80000000, qwrite := 1 }

def gotB : CpRead → Bool
  | .got _ _ => true
  | _ => false

/-- How a packet in slot 0 of queue 0 fares: 0 its slot is read, its record begun and it is accepted; 1 it is rejected, and its rejection
can be written; 2 it is accepted, but its record cannot be written. -/
def fares (s : State) : Option Nat := match s.readSlot 0 with
  | .got s1 bs => (match s1.headRecord (cpFor 0 0) { bytes := bs } with
    | (s2, some y) => (match s2.checkPacket (cpFor 0 0) 0 bs false with
      | .accept _ par => if par.allowed = [0] ∧ y.lost = false then some 0 else if y.lost then some 2 else none
      | .reject s3 a b d e => (match s3.writeRecord (cpFor 0 0) (cpFor 0 0).who (fieldAt bs 0x68 8 % 2 ^ 57) (bareRecord a b d e) with
        | .done _ => some 1
        | _ => none)
      | .wait _ => none)
    | (_, none) => none)
  | _ => none

theorem witness_QueueRegisters :
    let s := ringed (packetBytes 1 0x3000) State.reset
    let unread := s.modQueue 0 fun Q => { Q with qbase := 0x40000000 }
    let bytes (u : State) : List Byte := match u.readSlot 0 with
      | .got _ bs => bs
      | _ => []
    ((s.queue 0).qsize.toNat = 4 ∧ (s.queue 0).en = true ∧ (s.queue 0).qwrite ≠ (s.queue 0).qread ∧ s.noLaunch = false ∧ s.ctxOut 0 = false ∧
      (s.queue 0).qwrite.toNat < 4 ∧ (s.queue 0).qread.toNat < 4 ∧ 0 < s.cp.queues.length ∧ (s.queue 0).closing = 0 ∧ (s.queue 0).slot = none) ∧
      (gotB (s.readSlot 0) = true ∧ gotB (unread.readSlot 0) = false) ∧
      fieldAt (bytes s) 0x68 8 % 2 ^ 57 % 64 = 0 ∧ fieldAt (packetBytes 1 0x3001) 0x68 8 % 2 ^ 57 % 64 = 1 ∧
      packetBad [] false = true ∧ packetBad (packetBytes 0 0x3000) false = false ∧ fares s = some 0 ∧
      fares (ringed (packetBytes 0 0x3000) State.reset) = some 1 ∧ fares (ringed (packetBytes 1 0x3001) State.reset) = some 2 := by
  refine ⟨?_, ?_, ?_, ?_, ?_, ?_, ?_, ?_, ?_⟩ <;> decide +kernel

/-- Two launches that wait, in the order of their queues. -/
def twoWaiting (p : LaunchPar) : State :=
  let G (q : Nat) : Grid :=
    { par := { p with kernels := [probeKernel, probeKernel], queue := q, allowed := [0] }, released := true, place := { allowed := [0] } }
  { State.reset with grids := [G 0, G 1], cp := { State.reset.cp with estimates := [⟨0, 0, probeKernel.addr, 5⟩] } }

/-- Both launches with their rungs picked. -/
def chosen (s : State) : State := { s with grids := s.grids.map fun G => { G with picked := true } }

/-- A dispatching grid of two teams, the first of which stands on core 0 with a status. -/
def secondTeam (st : TeamStatus) : State := onTeam (fun T => { T with status := st }) (onGrid (fun G => { G with par := { G.par with gx := 2 } }) (mapped world))

theorem witness_LaunchOrder :
    let s := twoWaiting {}
    let d (n : Nat) := twoWaiting { deadline := some n, release := some 1 }
    let late : State := { d 5 with grids := (d 5).grids.map fun G => { G with released := false } }
    let up : State := { world with
      grids := world.grids ++ [{ par := { kernels := [probeKernel], queue := 1, prio := 7, deadline := some 4 }, status := .dispatching, place := { allowed := [0] } }]
      cp := { world.cp with estimates := [⟨0, 0, probeKernel.addr, 5⟩], queues := [{}, { qctl := 0xF0000000 }] } }
    (s.eligible 0 = true ∧ s.grids.length = 2 ∧ s.launchBefore 0 1 = true ∧ s.launchBefore 1 0 = false ∧ (s.grid 0).picked = false ∧
      (chosen s).mayBegin 0 = true ∧ (chosen s).mayBegin 1 = true ∧ ((chosen s).grid 0).picked = true ∧ (∀ h, h < 2 → h ≠ 0 → (chosen s).eligible h = true → ((chosen s).grid h).picked = true)) ∧
      ((d 5).estimate 0 ((d 5).grid 0).kernel = some 5 ∧ ((d 5).grid 0).par.deadline = some 5 ∧ ((d 4).grid 0).par.deadline = some 4) ∧
      ((secondTeam .switchedOut).firstSwitchedOut 0 = some 0 ∧ (secondTeam .switchedOut).canHold 0 ((secondTeam .switchedOut).grid 0).kernel = true) ∧
      ((secondTeam .vacated).firstSwitchedOut 0 = none ∧ (secondTeam .vacated).firstVacated 0 = some 0 ∧
        (secondTeam .vacated).vacatedCore 0 0 = some 0 ∧ (secondTeam .vacated).canHold 0 ((secondTeam .vacated).grid 0).kernel = true) ∧
      (((secondTeam .running).grid 0).status = .dispatching ∧ ((secondTeam .running).grid 0).halted = false ∧ (secondTeam .running).ctxOut 0 = false ∧
        (secondTeam .running).firstSwitchedOut 0 = none ∧ (secondTeam .running).firstVacated 0 = none ∧
        ((secondTeam .running).grid 0).place.next < ((secondTeam .running).grid 0).teamCount ∧ ((secondTeam .running).grid 0).pixelsKnown = true ∧
        (secondTeam .running).outranked 0 = false ∧ (secondTeam .running).ctxBusy 0 = [] ∧ ((secondTeam .running).applyRekey 0).nextCore 0 = some 0) ∧
      ((late.grid 0).par.release = some 1 ∧ (late.grid 0).released = false ∧ (late.grid 0).status = .accepted ∧ (late.grid 0).due = false) ∧
      (up.predicted 1 = some 5 ∧ (up.grid 1).par.deadline = some 4 ∧ (up.grid 1).preempted = false ∧ up.lowerCores 1 ≠ []) := by
  refine ⟨?_, ?_, ?_, ?_, ?_, ?_, ?_⟩ <;> decide +kernel

/-- A replay of segment 7 of queue 0, whose one packet stands in the segment buffer at 0x4000: another launch, and none. -/
def replaying (bs : List Byte) (todo : List (Nat × Nat)) (lost : Bool) : State :=
  let s := ((ringed [] State.reset).wr (localKey 0x4000) bs).modQueue 0 fun Q => { Q with segbase := 0x4000, segsize := 4 }
  { s with
    grids := [{ status := .complete }]
    cp := { s.cp with
      segments := [{ queue := 0, seg := 7, items := [(0, 0, false)], lost := lost }]
      replays := [{ name := 7, started := true, todo := todo, current := some 0 }] } }

/-- How the copy of a packet in slot 0 of the segment buffer fares: 0 accepted, 1 rejected. -/
def copyFares (s : State) : Option Nat := match s.cpRead (cpFor 0 0) ((s.queue 0).entryAt 0) 128 with
  | .got s1 bs => (match s1.checkPacket (cpFor 0 0) 0 bs true with
    | .accept s2 par => (match s2.rekeysOf (cpFor 0 0) (s.queue 0) { queue := 0, seg := 7, items := [(0, 0, false)] } 0 with
      | .got [] => if fieldAt bs 0x74 1 % 4 < par.kernels.length then some 0 else none
      | _ => none)
    | .reject _ _ _ _ _ => some 1
    | .wait _ => none)
  | _ => none

theorem witness_LaunchEnds :
    let ended_ := onGroup (fun G => { G with ended := true }) world
    let quiet := onTeam (fun T => { T with status := .ended }) ended_
    let rec_ : State := onGrid (fun G => { G with par := { G.par with compl := some 0x3000 } }) (mapped quiet)
    let put : Bool := match rec_.lookTime.2.writeRecord (cpFor 0 0) (recordOf 0) 0x3000 (gridRecord (rec_.grid 0) false rec_.lookTime.1) with
      | .done _ => true
      | _ => false
    let go := replaying (packetBytes 1 0) [(0, 0)] false
    (0 < ended_.teams.length ∧ (ended_.team 0).status = .running ∧ (∀ G ∈ (ended_.team 0).groups, G.ended = true) ∧
      (∀ x ∈ (ended_.team 0).tiles, x.ops = []) ∧ ended_.cardsHoldTeam 0 = false ∧ ended_.gradientsDone 0 = true) ∧
      ((quiet.grid 0).status = .dispatching ∧ quiet.gridQuiet 0 = true ∧ (quiet.grid 0).par.compl = none ∧ (quiet.grid 0).rung < 8 ∧
        (quiet.grid 0).report.status < 256 ∧ (quiet.grid 0).report.trap = none) ∧
      ((rec_.grid 0).par.compl = some 0x3000 ∧ rec_.gridQuiet 0 = true ∧ put = true) ∧
      ((go.grid 0).status = .complete ∧ go.replayFailed 0 = false ∧ copyFares go = some 0 ∧ go.entriesOwed 0 = false) ∧
      (copyFares (replaying [] [(0, 0)] false) = some 1 ∧ (replaying [] [] true).cp.segments.all (·.lost) = true) := by
  refine ⟨?_, ?_, ?_, ?_, ?_⟩ <;> decide +kernel

/-! ## Witnesses: what no instruction starts -/

/-- A legal packet, and one that begins with the last word of the numbering; a group without a slot; both asynchronous causes, with a notice asked for and not; a lane at
a barrier since 3 and one at an object; a YIELD. -/
theorem witness_GroupEvents :
    let here (u : State) (ks : List (Nat × Bool)) : Bool := ks.all fun k => !u.isPeerKey k.1 && !u.dirBlocks (k.1 / 128) true
    let ok (u : State) : Bool := match u.packetKeys one with
      | some ks => here u ks && (packetUnits (packetWords (ks.map fun k => memRead u.mem k.1)) 3 0 false 0 []).toOption.isSome
      | none => false
    let bad (u : State) : Bool := match u.packetKeys one with
      | some ks => here u ks && !(packetUnits (packetWords (ks.map fun k => memRead u.mem k.1)) 3 0 false 0 []).toOption.isSome
      | none => false
    let out := onGroup (fun G => { G with resident := false }) world
    let due := onGroup (fun G => { G with pend20 := some {}, pend22 := some {} }) world
    let at_ (st : LaneStatus) : State := let s := onLane (fun L => { L with status := st }) world; { s with regs := { s.regs with syncTo := 1 } }
    (ok world = true ∧ bad (world.wr (localKey 0) [0xFF, 0xFF, 0xFF, 0xFF]) = true) ∧
      ((out.team 0).status = .running ∧ (out.grp 0 0).resident = false ∧ (out.grp 0 0).ended = false ∧ out.groupReady 0 (out.grp 0 0) = true ∧
        out.slotsUsed 0 = 0) ∧
      (due.asyncDue 0 0 = true ∧ ((due.grp 0 0).lane 0).stopsRunning = true ∧ (due.grp 0 0).pend20.isSome = true ∧
        (due.grp 0 0).trapCtl.getLsbD 0 = false ∧ (onGroup (fun G => { G with pend20 := none }) due).asyncDue 0 0 = true ∧
        (onGroup (fun G => { G with trapCtl := 1 }) due).asyncDue 0 0 = true ∧ (onGroup (fun G => { G with pend22 := none }) due).asyncDue 0 0 = true) ∧
      (((at_ (.barrier false 2 3)).grp 0 0 |>.lane 0).waitsSince = some 3 ∧ (at_ (.barrier false 2 3)).regs.syncTo ≠ 0 ∧
        ((at_ (.boWait 0x10 3)).grp 0 0 |>.lane 0).waitsSince = some 3 ∧ (at_ (.boWait 0x10 3)).boEnds 0 0x10 = true ∧
        (scr 0x10 [1] (at_ (.boWait 0x10 3))).boEnds 0 0x10 = false ∧ ((world.grp 0 0).lanes.length = 32 ∧ ((world.grp 0 0).lane 1).waitsSince = none)) ∧
      ((at_ (.yielding 4)).grp 0 0 |>.lane 0).status = .yielding 4 := by
  refine ⟨?_, ?_, ?_, ?_, ?_⟩ <;> decide +kernel

/-- Rings that are ready, full and without a place; a page held; a handle; a busy INVCMD; a page that the device asks for. -/
theorem witness_FaultsAndMigration :
    let r : FaultRecord := ⟨0, 0x1000, 1, 7, 0, 0, false, false⟩
    let asks : FaultRecord := ⟨0, 0x1000, 4, 7, 0, 0, false, false⟩
    let s (x : FaultRecord) (base : W64) (size w : W32) : State :=
      { State.reset with mm := { State.reset.mm with faults := [x] }, regs := { State.reset.regs with fqBase := base, fqSize := size, fqWrite := w } }
    let held (u : State) : State := { u with mm := { u.mm with held := [⟨0, 0x1000, 9⟩] } }
    let far : W64 := 0x1FFFFFFFFFE0
    ((s r 0 16 14).faultRingFull = false ∧ (s r 0 16 15).faultRingFull = true ∧ (s r 0 0 0).faultRingFull = true) ∧
      (ringKey 0 32 (32 * 14) 32).isSome = true ∧ ringKey far 32 0 32 = none ∧ Memory.wf (s r 0 16 14).mem = true ∧
      ((held (s asks 0 16 0)).pageHeld 0 0x1000 = true ∧ (s asks 0 16 0).pageHeld 0 0x1000 = false ∧ (held (s asks 0 16 0)).holdBusy 0 0x1000 = [] ∧
        State.reset.hub.hostDown = false ∧ isHostKey (hostKey 0) = true ∧ (s r 0 16 14).dirBlocks 0 true = false) ∧
      ((s r 0 16 0).mm.faults.find? (fun x => x.handle == 7) = some r ∧ ∀ x ∈ (s r 0 16 0).mm.faults, x.handle ≠ 8) ∧
      ((s r 0 16 0).regs.invCmd.getLsbD 31 = false ∧ ((0x80000000 : W32).getLsbD 31 = true) ∧ ∀ x ∈ (s r 0 16 0).fab.requests, x.grid = none) ∧
      ((0x8000000000001000 : W64).getLsbD 63 = true ∧ (0x8000000000001000 : W64).toNat % 2 ^ 57 / 4096 * 4096 = 0x1000 ∧
        (s asks 0 16 0).mm.faults.filter (fun x => x.kind == 4 && x.page == 0x1000 && !x.delivered) ≠ []) ∧
      (held (s r 0 16 0)).mm.held.find? (fun h => h.ctx == 0 && h.page == 0x1000) = some ⟨0, 0x1000, 9⟩ := by
  refine ⟨?_, ?_, ?_, ?_, ?_, ?_, ?_, ?_, ?_⟩ <;> decide +kernel

/-! ## Witnesses: the fabric -/

/-- Peer 0 whose port 0 leads to its neighbour 2209, with requests and a line of that neighbour held in a state. -/
def linked (rs : List Request) (line : Option ProxyState) : State :=
  { State.reset with
    regs := { State.reset.regs with fabId := 0x80000000 }
    fab := { State.reset.fab with
      ports := modNth State.reset.fab.ports 0 fun P => { P with stat := 0x80000000 + 2209 * 4096, lanes := 15, txKeys := 1, rxKeys := 1 }
      requests := rs
      proxies := line.toList.map fun x => { line := 2209 * 2 ^ 38, st := x } } }

/-- A request to 2209 for its line 0. -/
def ask (k : ReqKind) (sent : Bool) : Request := { tag := 5, peer := 2209, addr := 2209 * 2 ^ 45, kind := k, sent := sent, who := some (0, 0, 0) }

theorem witness_FabricRequests :
    let op : PeerAtomic := ⟨.add, true, 1, 0⟩
    let line := 2209 * 2 ^ 38
    ((linked [ask .readShared false] none).canSend (ask .readShared false) = true ∧ State.reset.canSend (ask .readShared false) = false ∧
      (ask .readShared false).onLine line = true ∧ (linked [ask .readShared false] none).fab.requests.find? (fun x => !x.sent && (x.kind == .readShared && x.onLine line)) ≠ none) ∧
      ((linked [] (some .m)).proxy line = some .m ∧ (linked [] (some .e)).proxy line = some .e ∧ (linked [ask .upgrade true] (some .s)).proxy line = some .s) ∧
      ((linked [ask (.atomic op) true] none).fab.requests.find? (fun x => x.tag == 5 && x.sent) = some (ask (.atomic op) true) ∧
        (ask (.atomic op) true).kind ≠ .discard ∧ (ask (.atomic op) true).who = some (0, 0, 0) ∧ (ask (.writeback []) true).isWriteback = true) ∧
      ((List.replicate 128 (0 : Byte)).length = 128 ∧ Memory.wf (linked [] none).mem = true) ∧
      (((linked [] none).port 0).up = true ∧ ((linked [] none).port 0).native = true ∧ (0 : W16) = ((linked [] none).port 0).rxSeq ∧
        (linked [] none).sched.waiting = []) ∧
      (State.reset.requestRoute (ask .readShared false) = none ∧ ∀ x ∈ (linked [ask .readShared false] none).fab.requests, x.tag = 5 → x.sent = false) := by
  refine ⟨?_, ?_, ?_, ?_, ?_, ?_⟩ <;> decide +kernel

/-- A line of this device that 2209 shares, one that it owns, and one that nothing stands in the way of; a line of 2209; requests in and
beyond this device's memory; an answer kept. -/
theorem witness_FabricHome :
    let mine := localKey 0 / 128
    let s (owned : Bool) (wait : List Nat) : State :=
      let u := linked [] none
      { u with fab := { u.fab with dir := [⟨mine, [2209], owned, wait, 0, 0⟩], answered := [⟨2210, 9, .readShared 0, .done, false⟩] } }
    let locked : State := { world with fab := { world.fab with locks := [(2209 * 2 ^ 38, (0, 0, 0))] } }
    (keyPeer (mine * 128) = ownPeer ∧ (s false []).dirEntry mine = some ⟨mine, [2209], false, [], 0, 0⟩ ∧ (s true [2209]).dirEntry mine = some ⟨mine, [2209], true, [2209], 0, 0⟩) ∧
      ((s false []).isPeerKey (2209 * 2 ^ 38 * 128) = true ∧ ((s false []).port 0).up = true ∧ ((s false []).port 0).rxSeq = 0 ∧ ((s false []).port 0).rxKeys.getLsbD 0 = true ∧ (s false []).sched.waiting = [] ∧
        (s false []).lockedBut (2209 * 2 ^ 38) (fun _ => false) = false ∧ (locked.lockedBut (2209 * 2 ^ 38) fun _ => false) = true ∧
        (linked [] (some .m)).proxy (2209 * 2 ^ 38) = some .m ∧ (s false []).poison = []) ∧
      ((s false []).regs.fabId.getLsbD 31 = true ∧ 2210 < peerCount ∧ 2210 ≠ (s false []).peerNo) ∧
      (inRange (.readShared mine) = true ∧ inRange (.readShared (localKey (2 ^ 40) / 128)) = false ∧ inRange (.readShared (localKey (2 ^ 40 - 128) / 128)) = true) ∧
      ((s false []).fab.answered.find? fun x => x.src == 2210 && x.tag == 9).map (·.answer) = some .done ∧
      ((s true []).homeBlocked 2210 (.readShared mine) = true ∧ (s false []).homeBlocked 2210 (.readShared mine) = false ∧
        (s false []).homeBlocked 2210 (.discard (mine + 1)) = false ∧ (s false []).homeBlocked 2210 (.uncachedWrite [⟨localKey 256, 1, 255⟩]) = false) := by
  refine ⟨?_, ?_, ?_, ?_, ?_, ?_⟩ <;> decide +kernel

/-- Port 0 up, with two messages in its buffer, at its third bad group, with a key being rotated, with a group open, with its clear flit
sent and about to be, on two lanes; a device before
bring-up whose port 0 has trained with 2209. -/
theorem witness_FabricLinks :
    let f (P : Port → Port) : State := let u := linked [] none; { u with fab := { u.fab with ports := modNth u.fab.ports 0 P } }
    let s := f fun P => { P with replayBuf := [⟨.data, 1, 0, 0, [⟨2209, .request 5⟩]⟩, ⟨.data, 2, 0, 0, [⟨2209, .recall 1⟩]⟩], badRun := 2, badGroup := 7 }
    let rot := f fun P => { P with txRot := true, txKeys := 3, rxRot := true, rxKeys := 3 }
    let grouped := f fun P => { P with txFlits := 3 }
    let sent := f fun P => { P with txRot := true, txClear := true, stat := 0x80000000 + 2209 * 4096 + 2 ^ 26, replayBuf := [⟨.clear, 3, 1, 0, []⟩] }
    let turn := f fun P => { P with txRot := true, txKeys := 3, stat := 0x80000000 + 2209 * 4096 + 2 ^ 26,
                                    replayBuf := [⟨.data, 1, 0, 0, [⟨2209, .request 5⟩]⟩, ⟨.data, 2, 1, 0, [⟨2209, .recall 1⟩]⟩] }
    let two := f fun P => { P with lanes := 3, retrain := true }
    let new : State := { s with regs := { s.regs with fabId := 0 }, fab := { s.fab with ports := modNth State.reset.fab.ports 0 fun P => { P with stat := 0x20000000 + 2209 * 4096 } } }
    ((s.port 0).up = true ∧ (s.port 0).native = true ∧ (s.port 0).badRun < 3 ∧ (s.port 0).replayBuf.findIdx? (fun f => f.seq == 2) = some 1 ∧
      (s.port 0).lanes.getLsbD 3 = true ∧ lanesAfter 15 3 = 3 ∧ lanesAfter 2 1 = 0 ∧ (two.port 0).retrain = true ∧ (s.port 0).nak = none ∧ (32768 : Nat) ≤ ((0 : W16) - 1).toNat ∧ ((7 : W16) - (s.port 0).rxSeq).toNat < 32768) ∧
      ((s.port 0).txRot = false ∧ (s.port 0).rxRot = false ∧ (rot.port 0).txRot = true ∧ (rot.port 0).rxRot = true ∧
        (∃ f ∈ (s.port 0).replayBuf, f.key = (s.port 0).keyIdx) ∧ (∀ f ∈ (rot.port 0).replayBuf, f.key ≠ (rot.port 0).keyIdx) ∧
        (s.port 0).txFlits % 8 = 0 ∧ (grouped.port 0).txFlits % 8 ≠ 0 ∧ (s.port 0).rxKeys.getLsbD 1 = false ∧
        (sent.port 0).txRot = true ∧ (sent.port 0).txClear = true ∧ (sent.port 0).replayBuf.findIdx? (fun f => f.seq == 3) = some 0 ∧
        (turn.port 0).txClear = false ∧ (turn.port 0).replayBuf.findIdx? (fun f => f.seq == 1) = some 0 ∧
          ∀ f ∈ (turn.port 0).replayBuf.drop 1, f.key = (turn.port 0).keyIdx) ∧
      (new.fab.ports.length = 48 ∧ new.regs.fwStat.getLsbD 31 = false ∧ (new.port 0).up = false ∧ new.regs.fabId.getLsbD 31 = false) ∧
      (bitsOf (new.port 0).stat.toNat 28 2 = 2 ∧ (neighboursOf 0)[0]? = some (new.port 0).nbr ∧ (neighboursOf 1)[0]? ≠ some (new.port 0).nbr ∧
        (new.port 0).native = true ∧ (0 : Nat) < peerCount) := by
  refine ⟨?_, ?_, ?_, ?_⟩ <;> decide +kernel

/-! ## Witnesses: engines -/

/-- The tile's operations, on a mapped device. -/
def working (x : Tile) (os : List TileOp) : State := mapped (onTeam (fun T => { T with tiles := [{ x with ops := os }] }) (tiled world))

/-- How the work of an operation goes: 0 done, 1 stopped, 2 failed. -/
def works (s : State) (o : TileOp) : Nat := match s.opWork 0 0 o with
  | .done _ => 0
  | .pages _ => 1
  | .fail _ => 2
  | .wait _ => 3

def tileOpOf (k : OpKind) (bs : List Byte) : TileOp := { kind := k, group := 0, off := 0, block := bs, fmtWord := 0x0202, started := true }

theorem witness_MatrixWork :
    let mma := tileOpOf .mma (mmaBlockOf 0 0x204 4 0x220002 0)
    let long := tileOpOf .mma (mmaBlockOf 0 0x204 64 0x220002 0)
    let ld := tileOpOf .mload (leBytes 8 0x4000000000000000)
    let drain := tileOpOf .mdrain (leBytes 4 0x44420100 ++ leBytes 4 2 ++ leBytes 4 0x204 ++ leBytes 4 0 ++ leBytes 8 0x200 ++ leBytes 4 0x220002 ++ List.replicate 36 0)
    let upd := tileOpOf .mupd (leBytes 4 0x55420100 ++ leBytes 4 0 ++ leBytes 4 0x1004 ++ leBytes 4 32 ++ leBytes 8 0x200 ++ leBytes 8 0x300 ++ List.replicate 96 0)
    let s := working {} [mma]
    ((s.tile 0 0).ops = mma :: [] ∧ (s.team 0).status = .running ∧ mma.pages = [] ∧ s.unitPending (s.tileUnit 0 0).who = false ∧
      s.unitFailed (s.tileUnit 0 0).who = false) ∧
      (mma.next + 1 = mma.groups ∧ long.next + 1 ≠ long.groups ∧ bitsOf (mma.f 4 4) 2 2 = 0) ∧
      (works s mma = 0 ∧ works s long = 0 ∧ works s ld = 0 ∧ works s drain = 0 ∧ works s { drain with bad := true } = 2) ∧
      (works (tiled world) mma = 1 ∧ ((working { sick := true, lastFail := some (14, 3) } [drain]).tile 0 0).lastFail = some (14, 3)) ∧
      (s.place 0 (parseSource (BitVec.ofNat 64 (ld.f 0 8))) = some (256, 0) ∧ found (s.engRange (s.tileUnit 0 0) 256 (512 * 63) 512 .read false) = true) ∧
      works s upd = 0 := by
  refine ⟨?_, ?_, ?_, ?_, ?_, ?_⟩ <;> decide +kernel

/-- A card of one item in the state's list. -/
def carded (f : Card → Card) (s : State) : State :=
  { s with eng := { s.eng with cards := [f { bytes := fill, core := 0, team := 0, grid := 0, ctx := 0, nitem := 1, relDue := true }] } }

/-- A card that copies 16 bytes from 0x100 to 0x300. -/
def copyCard : List Byte :=
  leBytes 4 0x01010000 ++ leBytes 4 0x7FF8 ++ leBytes 8 0x40 ++ leBytes 8 0 ++ leBytes 8 0x100 ++ leBytes 8 0x300 ++ leBytes 8 16 ++ List.replicate 16 0

/-- How many poisoned lines a read of a card's ranges finds, where it finds them all. -/
def gotLines (x : SourceRead) : Option Nat := match x with
  | .got _ y => some y.sick.length
  | _ => none

/-- The fill card before its item, in it and after it; a line to write, one on its way, one that failed; release time 0; a prefetch
of two lines and of one. -/
theorem witness_CardWork :
    let s (f : Card → Card) : State := carded f (mapped world)
    let mid := s fun C => { C with cur := some 0, nextItem := 1 }
    let fly := s fun C => { C with cur := some 0, nextItem := 1, sent := true }
    let lost : State := { fly with fab := { fly.fab with reqFails := [⟨(0, 255, 0), 0, false, false⟩] } }
    let copy_ := s fun C => { C with bytes := copyCard, cur := some 0, nextItem := 1 }
    let coll : State := let u := s fun C => { C with bytes := leBytes 4 (9 * 2 ^ 24 + 0x10000) ++ (copyCard.take 48).drop 4 ++ leBytes 4 4 ++ leBytes 4 (2 * 2 ^ 24 + 0x100) ++ List.replicate 8 0, cur := some 0, nextItem := 1 }
      { u with fab := { u.fab with reqFails := [⟨(0, 255, 3), 0, false, false⟩] } }
    let rel := s fun C => { C with relDue := false, bytes := leBytes 4 0x04014000 ++ fill.drop 4 }
    let P (n : Nat) : Prefetch := ⟨0, 0, 0, 0, 0, n, some 3, none, 0⟩
    ((s id).itemReady 0 = true ∧ ((s id).itemNeeds 0).isNone = true ∧ 0 < (s id).eng.cards.length) ∧
      (((mid.card 0).isBytes = true ∧ (mid.card 0).isColl = false ∧ (mid.card 0).fail = none ∧ mid.cardRuns 0 = true ∧ (mid.card 0).pos < (mid.card 0).written 0 ∧
        (mid.card 0).ended = false ∧ (mid.card 0).isRaster = false ∧ (mid.card 0).lastDue = none) ∧
      mid.itemDest 0 0 = some (0, 0x200, 16) ∧ found (mid.engRange (mid.cardUnit 0) 0 0x200 16 .write true) = true) ∧
      (lost.unitFailed (0, 255, 0) = true ∧ fly.unitFailed (0, 255, 0) = false ∧ fly.unitPending (0, 255, 0) = false) ∧
      ((s fun C => { C with cur := some 0, fail := some 3 }).itemOutcome 0 0 = some 3 ∧ (s fun C => { C with cur := some 0, pos := 16 }).itemOutcome 0 0 = some 1 ∧ (mid.card 0).bundleNo 0x200 = none ∧
        (match mid.unitAt 0 0 { rd := true } 0 with
          | .busy _ => false
          | _ => true) = true) ∧
      (copy_.itemDest 0 0 = some (0, 0x300, 16) ∧ gotLines (copy_.readLines 0 (fun _ => false) [(0, 0x100, 16)]) = some 0 ∧
        gotLines (({ copy_ with poison := [localKey 0x100 / 128] } : State).readLines 0 (fun _ => false) [(0, 0x100, 16)]) = some 1 ∧
        (match copy_.itemSource 0 0 0 16 with
          | .range _ d b => d == 0 && b == 0x100
          | _ => false) = true) ∧
      ((coll.card 0).isColl = true ∧ (coll.card 0).isBytes = true ∧ (coll.card 0).pos < (coll.card 0).written 0 ∧ coll.cardRuns 0 = true ∧
        coll.unitFailed (0, 255, 3) = true) ∧
      ((rel.card 0).rel = true ∧ (rel.card 0).relDue = false ∧ (rel.card 0).reltime = 0) ∧
      ((P 2).left - 1 ≠ 0 ∧ (P 1).left - 1 = 0 ∧ 3 < (world.grp 0 0).tokens.length) := by
  refine ⟨?_, ?_, ?_, ?_, ?_, ?_, ?_, ?_⟩ <;> decide +kernel

/-- A card of a raster kind over one primitive at 0x1000, for a target of 16 by 16; for an edge card its one edge at 0x1100. -/
def rasterCard (kind : Nat) : List Byte :=
  leBytes 4 (kind * 2 ^ 24 + 0x10000) ++ List.replicate 20 0 ++ leBytes 8 (if kind = 7 then 0x1100 else 0x1000) ++ leBytes 8 0x1000 ++ List.replicate 8 0 ++
    leBytes 4 1 ++ List.replicate 4 0 ++ leBytes 2 16 ++ leBytes 2 16 ++ leBytes 2 0 ++ leBytes 2 1

/-- A triangle with corners (0, 0), (8, 0) and (0, 8). -/
def triangle : List Byte :=
  List.replicate 12 0 ++ leBytes 4 0x41000000 ++ List.replicate 12 0 ++ leBytes 4 0x41000000 ++ List.replicate 16 0

def outKind (bs : List Byte) : Nat := match primOf (primWords bs) with
  | .skipped => 0
  | .empty => 1
  | .prim q => 2 + (q.blocks 0 16 16 (primWords bs)).length

theorem witness_RasterWork :
    let s (kind : Nat) (f : Card → Card) : State :=
      carded (fun C => f { C with bytes := rasterCard kind, cur := some 0, pixGrid := some 0, nextItem := 1 }) (mapped (world.wr (localKey 0x1000) triangle))
    let walk := s 5 id
    let none_ := onTeam (fun T => { T with status := .ended }) (s 5 fun C => { C with cur := none, grid := 1 })
    let halted := onGrid (fun G => { G with halted := true }) walk
    let failed := s 5 fun C => { C with fail := some 10 }
    let adj (u : State) : State := onGroup (fun G => { G with pixel := some ⟨0, 0, 0, 1, [], primWords triangle⟩, ended := true })
      (onGrid (fun G => { G with par := { G.par with card := some 0 } }) u)
    let a := adj (s 6 id)
    let word (u : State) : Nat := match u.gradWord (u.card 0) 0x1000 with
      | .key _ => 0
      | .page _ => 1
      | .status _ => 2
      | .busy _ => 3
      | .refused => 4
    let edge := s 7 id
    ((walk.card 0).isRaster = true ∧ (walk.card 0).fail = none ∧ walk.cardRuns 0 = true ∧ (walk.grid 0).halted = false ∧
      gotLines (walk.readLines 0 (fun _ => false) [(0, (walk.card 0).prims + 48 * 0, 48)]) = some 0) ∧
      (outKind triangle = 4 ∧ outKind [] = 1 ∧ outKind [0, 0, 0xC0, 0x7F] = 0) ∧
      ((none_.card 0).ended = false ∧ (none_.card 0).lastDue = none ∧ (none_.card 0).cancel = none ∧ none_.primDone 0 = some 0 ∧
        (none_.card 0).cur = none ∧ none_.pixelsHold 0 = false ∧ walk.pixelsHold 0 = true ∧ ((halted.grid 0).halted = true ∧ (halted.card 0).cancel = none) ∧
        (failed.itemOutcome 0 0 = some 10 ∧ (failed.card 0).done.length + 1 = (failed.card 0).nitem ∧ failed.pixelsHold 0 = true)) ∧
      ((a.grp 0 0).pixel.isSome = true ∧ (a.card 0).kind = kRastAdj ∧ (a.grp 0 0).ended = true ∧ (a.grp 0 0).vgradDone = false ∧ (a.team 0).live = true ∧
        (a.groupGrads 0 0 (a.card 0) ⟨0, 0, 0, 1, [], primWords triangle⟩).1.length = 9 ∧ word a = 0 ∧ word (adj (carded id world)) = 1) ∧
      ((edge.card 0).kind = kEdge ∧ (edge.card 0).pos = 0 ∧ gotLines (edge.readLines 0 (fun _ => true) [(0, (edge.card 0).f 0x18 8, 32)]) = some 0 ∧ (edge.card 0).nprim = 1 ∧
        (f32At [] 0).isFin = true ∧ (f32At [0, 0, 0xC0, 0x7F] 0).isFin = false ∧
        gotLines (edge.readLines 0 (fun _ => true) [(0, 0x1000, 48)]) = some 0) := by
  refine ⟨?_, ?_, ?_, ?_, ?_⟩ <;> decide +kernel

/-! ## Witnesses: the device -/

/-- A vacate that takes the team of a grid; contexts usable and not; a cache mode that changes with a contribution on a line that 2209
shares, with a line of 2209 held here, and with neither. -/
theorem witness_Preemption :
    let s := mapped world
    let q : VacReq := ⟨0, [0], true, none⟩
    let mode (u : State) : State := { u with regs := { u.regs with llcctl := 1 } }
    let k := localKey 0x200
    let held : State := { mode s with
      eng := { s.eng with scatter := [⟨0, k, 0x200, 0, 0, 0, 7, 0, 0, 0, 0⟩] }
      fab := { s.fab with dir := [⟨k / 128, [2209], false, [], 0, 0⟩] } }
    let owns : State := { mode s with fab := { s.fab with proxies := [{ line := 2209 * 2 ^ 38, st := .s }] } }
    let v : W32 := 1
    (v.getLsbD 0 = true ∧ s.regs.vacCmd.getLsbD 31 = false ∧ (0x80000000 : W32).getLsbD 31 = true) ∧
      (s.victims q = [0] ∧ s.vacates q 0 = true ∧ s.vacates ⟨1, [0], true, none⟩ 0 = false ∧ s.victims ⟨0, [1], true, none⟩ = []) ∧
      (s.regs.ctxCmd.getLsbD 31 = false ∧ s.ctxUsable 0 = true ∧ s.ctxUsable 1 = false) ∧
      (s.regs.llcctl.extractLsb' 0 2 = s.regs.llcctl.extractLsb' 2 2 ∧ (mode s).regs.llcctl.extractLsb' 0 2 ≠ (mode s).regs.llcctl.extractLsb' 2 2 ∧
        s.cp.switchStep = 0 ∧ ((held.switchCtxOut 0).switchTo 1).cp.switchStep = 1 ∧ ((held.switchCtxOut 0).switchTo 1).flushBlocked = [k] ∧
        (((mode s).switchCtxOut 0).switchTo 1).flushBlocked = [] ∧ (((mode s).switchCtxOut 0).switchTo 1).fab.proxies = [] ∧
        (((mode s).switchCtxOut 0).switchTo 1).evicting = false ∧ ((owns.switchCtxOut 0).switchTo 1).flushBlocked = [] ∧
        ((owns.switchCtxOut 0).switchTo 1).fab.proxies ≠ [] ∧ s.ctxBusy 0 = [] ∧ s.ctxBusy 1 = []) ∧
      ((v.extractLsb' 8 8).toNat = (v.extractLsb' 16 8).toNat ∧ ((0x101 : W32).extractLsb' 8 8).toNat ≠ ((0x101 : W32).extractLsb' 16 8).toNat ∧
        s.ctxOf 0 = 0 ∧ (s.team 0).status = .running) := by
  refine ⟨?_, ?_, ?_, ?_, ?_⟩ <;> decide +kernel

/-- A live team with an allotted tile; a grid that a device error touches, one that has not begun, and a card's item under way; device errors and FWCMD.BUSY. Whether an image in flash passes its
checks is a free value. -/
theorem witness_ErrorsAndResets :
    let s := tiled world
    let err (u : State) : State := { u with cp := { u.cp with devErr := true } }
    let note := onGroup (fun G => { G with trapCtl := 1 }) world
    let late := err (onGrid (fun G => { G with status := .accepted }) world)
    let busy := carded (fun C => { C with cur := some 0, nextItem := 1 }) world
    ((s.team 0).live = true ∧ 0 < s.teams.length ∧ 0 < (s.team 0).groups.length ∧ (s.grp 0 0).ended = false ∧ 31 < (s.grp 0 0).lanes.length ∧
      0 < (s.team 0).tiles.length) ∧
      ((note.grp 0 0).trapCtl.getLsbD 0 = true ∧ (note.grp 0 0).pend20 = none) ∧
      ((s.grid 0).status ≠ .complete ∧ (s.grid 0).par.card = none ∧ s.unfinished = [0]) ∧
      ((err State.reset).cp.devErr = true ∧ (err State.reset).unfinished = [] ∧ (err State.reset).resetWaits = false) ∧
      (late.unfinished = [0] ∧ late.resetWaits = false ∧ (err s).resetWaits = true ∧ ((busy.card 0).cur ≠ none ∧ (busy.card 0).cancel = none ∧
        (busy.card 0).ended = false)) ∧
      (State.reset.regs.fwStat.getLsbD 30 = false ∧ (0x40000000 : W32).getLsbD 30 = true ∧ 127 < State.reset.hub.hot.length) := by
  refine ⟨?_, ?_, ?_, ?_, ?_, ?_⟩ <;> decide +kernel

/-- Each time source; an answer awaited; pulses as a reference; readings above the limit, at it, and at 95 % of it. -/
theorem witness_ClockAndPower :
    let s (ctl : W32) (c : Clock) : State := { State.reset with regs := { State.reset.regs with timeCtl := ctl }, hub := { State.reset.hub with clock := c } }
    ((s 1 {}).timeSrc = 1 ∧ (s 2 {}).timeSrc = 2 ∧ (s 4 {}).ppsRef = true ∧ (s 5 {}).ppsRef = true ∧ (s 5 {}).timeSrc = 1 ∧ (s 4 {}).timeSrc = 0 ∧ (s 1 {}).timeSrc ≠ 0) ∧
      ((s 1 {}).hub.clock.holdSrc = false ∧ (s 4 {}).hub.clock.holdPps = false ∧ (s 2 { ptmWait := true }).hub.clock.ptmWait = true) ∧
      ((3 : W32).extractLsb' 0 2 = 3 ∧ (7 : W32).extractLsb' 0 2 = 3 ∧ (6 : W32).extractLsb' 0 2 ≠ 3) ∧
      (State.reset.regs.pwrLimit.toNat = 4200 ∧ State.reset.hub.cap = 0 ∧ (∀ w ∈ [3990, 0], w * 100 ≤ 95 * 4200) ∧ ¬ (3991 * 100 ≤ 95 * 4200) ∧ 100 ≤ (List.replicate 100 3990).length ∧
        (∀ w ∈ List.replicate 100 3990, w * 100 ≤ 95 * 4200)) := by
  refine ⟨?_, ?_, ?_, ?_⟩ <;> decide +kernel

/-- The last bytes of HBM4 and one beyond; a line that 2209 shares, and a host write that waits for it; offsets that name no register; a queue enabled and not; ring sizes at
their limits. -/
theorem witness_HostAccess :
    let s : State := let u := linked [] none; { u with fab := { u.fab with dir := [⟨localKey 0 / 128, [2209], false, [], 0, 0⟩] } }
    let write : Instr := .bar2Access 0 4 (some ⟨[1, 2, 3, 4], false⟩)
    let other : Instr := .bar2Access 128 4 none
    let waits : State := { s with sched := { s.sched with waiting := [write] } }
    let on : State := s.modQueue 63 fun Q => { Q with qctl := 0x80000000 }
    (hbmEnd - 4 + 4 ≤ hbmEnd ∧ hbmEnd < hbmEnd - 3 + 4) ∧
      ((hostLines 0 4).filter (fun l => s.dirBlocks l true) ≠ [] ∧ (hostLines 0 4).filter (fun l => s.dirBlocks l false) = [] ∧
        (hostLines 128 4).filter (fun l => s.dirBlocks l true) = [] ∧ s.firstHostWrite = none ∧ waits.firstHostWrite = some write ∧ some write ≠ some other ∧ Memory.wf s.mem = true) ∧
      (namesReg 0x2004 = false ∧ namesReg 0x2000 = true ∧ namesReg (0x10000 + 64 * 63 + 0x2C) = true ∧ namesReg (0x10000 + 64 * 64) = false ∧ writeOnly 0x2130 = true ∧ writeOnly (0x10000 + 64 * 63 + 0x2C) = true) ∧
      ((on.queue 63).en = true ∧ (s.queue 63).en = false) ∧
      (ringSizeOk 2 2 = true ∧ ringSizeOk 2 1 = false ∧ ringSizeOk 2 65536 = true ∧ ringSizeOk 2 131072 = false ∧ ringSizeOk 64 64 = true ∧ ringSizeOk 64 32 = false) := by
  refine ⟨?_, ?_, ?_, ?_, ?_⟩ <;> decide +kernel

/-- The instance that the group of `world` issues next holds all its lanes. -/
theorem witness_PredicateZero :
    (world.selectInst 0 0).map (fun x => (x.1.mask, x.1.pc)) = some (0xFFFFFFFF, 0) ∧ ((world.grp 0 0).lane 0).status = .run ∧ ((world.grp 0 0).lane 0).stall = none ∧
      (world.grp 0 0).inh = false ∧ ((world.grp 0 0).lane 31).pc = 0 := by
  decide +kernel

theorem witness_TruthTables :
    world.Issues one { ext := some ⟨true, false, 0, 0, 0xCA, 0⟩, chain := true } ∧ world.Issues one { lit := some 1 } :=
  ⟨⟨rfl, by decide +kernel⟩, rfl, by decide +kernel⟩

/-! ## Words, written at the places of Table 5-1 with the codes of Tables 5-5 to 5-18 -/

theorem test_words_0 :
    decodeTableWord 32 0x04902811 = some (.isubN32 ⟨18, 1, 16, 1⟩ {}) ∧
      decodeTableWord 32 0x06902817 = some (.imaxS64 ⟨18, 1, 16, 1⟩ {}) ∧
      decodeTableWord 32 0x0890281A = some (.shlN64 ⟨18, 1, 16, 1⟩ {}) ∧
      decodeTableWord 32 0x0A903F97 = some (.iabsS16X2 ⟨18, 1, 63, 1⟩ {}) ∧
      decodeTableWord 32 0x0CC02819 = some (.icmp32 9 ⟨24, 1, 16, 1⟩ {}) ∧
      decodeTableWord 32 0x0FC02812 = some (.icmp64 2 ⟨56, 1, 16, 1⟩ {}) ∧
      decodeTableWord 32 0x10902818 = some (.leaSh3 ⟨18, 1, 16, 1⟩ {}) := by
  decide +kernel

theorem test_words_1 :
    decodeTableWord 32 0x120841C8 = some (.bfiB32 ⟨1, 2, 3, 4⟩ {}) ∧
      decodeTableWord 32 0x1480BF91 = some (.voteAny ⟨16, 5, 63, 1⟩ {}) ∧
      decodeTableWord 32 0x22902A12 = some (.fmulF64 ⟨18, 1, 20, 1⟩ {}) ∧
      decodeTableWord 32 0x24902813 = some (.fminF16X2 ⟨18, 1, 16, 1⟩ {}) ∧
      decodeTableWord 32 0x26903F95 = some (.frndBf16X2 ⟨18, 1, 63, 1⟩ {}) ∧
      decodeTableWord 32 0x2A402A1F = some (.fcmpF64 7 ⟨8, 1, 20, 1⟩ {}) ∧
      decodeTableWord 32 0x2C903F97 = some (.fcosF32 ⟨18, 1, 63, 1⟩ {}) := by
  decide +kernel

theorem test_words_2 :
    decodeTableWord 32 0x2E902912 = some (.cvt 2 ⟨18, 1, 18, 1⟩ {}) ∧
      decodeTableWord 32 0x30902A19 = some (.cvtsr 9 ⟨18, 1, 20, 1⟩ {}) ∧
      decodeTableWord 32 0x32903F9B = some (.blkscaleMxe5m2 ⟨18, 1, 63, 1⟩ {}) ∧
      decodeTableWord 32 0x34903F95 = some (.qswapVB32 ⟨18, 1, 63, 1⟩ {}) ∧
      decodeTableWord 32 0x36902812 = some (.shflDownB64 ⟨18, 1, 16, 1⟩ {}) ∧
      decodeTableWord 32 0x3890281D = some (.gredSegMaxS32 ⟨18, 1, 16, 1⟩ {}) ∧
      decodeTableWord 32 0x42902813 = some (.ldS16Scr ⟨18, 1, 16, 1⟩ {}) := by
  decide +kernel

theorem test_words_3 :
    decodeTableWord 32 0x4490281B = some (.stB64Cscr ⟨18, 1, 16, 1⟩ {}) ∧
      decodeTableWord 32 0x46182813 = some (.tstWhole ⟨3, 1, 16, 1⟩ {}) ∧
      decodeTableWord 32 0x49F82814 = some (.rldScr ⟨63, 1, 16, 1⟩ {}) ∧
      decodeTableWord 32 0x4A902817 = some (.atomXorB32 ⟨18, 1, 16, 1⟩ {}) ∧
      decodeTableWord 32 0x4C182819 = some (.atomCasB64 ⟨3, 1, 16, 1⟩ {}) ∧
      decodeTableWord 32 0x4E902813 = some (.atomMinNB32Scr ⟨18, 1, 16, 1⟩ {}) ∧
      decodeTableWord 32 0x5090281A = some (.atomFaddF64Scr ⟨18, 1, 16, 1⟩ {}) := by
  decide +kernel

theorem test_words_4 :
    decodeTableWord 32 0x54182810 = some (.scataddF32 ⟨3, 1, 16, 1⟩ {}) ∧
      decodeTableWord 32 0x640841C3 = some (.trace ⟨1, 2, 3, 4⟩ {}) ∧
      decodeTableWord 32 0x53E88888 = some (.atomsMaxN64 ⟨30, 17, 4, 8⟩ {}) ∧
      decodeTableWord 32 0x17F84A68 = some (.scmp ⟨31, 16, 37, 6⟩ {}) ∧
      decodeTableWord 32 0x197FFFE2 = some (.call ⟨1, 3, 0x1FFFE⟩ {}) ∧
      decodeTableWord 32 0x195FFFF1 = some (.brsZ ⟨21, 0x7FFF⟩ {}) ∧
      decodeTableWord 32 0x01FFFA51 = some (.trap ⟨63, 63, 0x1A5⟩ {}) := by
  decide +kernel


/-! ## Packets: the worked encodings of spec 05 and its variants -/

/-- The reason and slot for which a packet is illegal. -/
def illegal (ws : List W32) : Option (Nat × Nat) := match packetUnits ws 3 0 false 0 [] with
  | .error r => some r
  | .ok _ => none

theorem test_worked_packets :
    decodeTableWord 96 0x20A829020000006482A01F20 = some (.iaddS32 ⟨20, 0, 62, 2⟩ { chain := true, lit := some 100 }) ∧
      decodeTableWord 96 0x000000007F800150A0B00130 =
        some (.faddF32 ⟨22, 0, 2, 3⟩ { chain := true, ext := some ⟨false, true, 4, 0, 0x15, 0⟩ }) ∧
      illegal [0x82A01F20, 100, 0x20A82902] = none ∧ illegal [0x02A01F20, 100, 0x20A82902] = some (4, 0) := by
  decide +kernel

/-- FADD and BR in one chain; two extensions; two V words in one chain; a chained last word; a control word tied to the next. -/
theorem test_packet_variants :
    illegal [0xA0B00130, 0xFF800150, 0x18200020] = none ∧ illegal [0xA0B00130, 0xFF800150, 0x7F800150] = some (3, 2) ∧
      illegal [0xA0B00130, 0xFF800150, 0x20A82902] = none ∧ (illegal [0, 0, 0x80000000]).map (·.1) = some 1 ∧
      (illegal [0x98000006, 0, 0]).map (·.1) = some 5 ∧ (illegal [0xA0B00130, 0xA0B00130, 0x20A82902]).map (·.1) = some 2 ∧
      (illegal [0, 0, 0x82A01F20]).map (·.1) = some 4 := by
  decide +kernel

/-! ## Ill-formed terms, one for each check of Table 5-10 that an instruction's own fields decide -/

/-- Reason 3: a result to q0; reason 4: a destination where nothing is produced, a B field that IABS does not use, a literal wider than
16 bits, fence scope bits left over; reason 5: an SB code; reason 6: MOD3 5, a scope on a relaxed load, fence kind 4; reason 7: CVT to its
own type; reason 8: a 64-bit result in an odd register; reason 9: an extension after SREAD, a Y-format word. -/
theorem test_ill_formed :
    (Instr.iaddS32 ⟨0, 1, 16, 0⟩ {}).decodeReason = some 3 ∧ (Instr.iabsS32 ⟨63, 1, 0, 0⟩ {}).decodeReason = some 4 ∧
      (Instr.sadd ⟨0, 0, 48, 0⟩ {}).decodeReason = some 5 ∧
      (Instr.faddF32 ⟨22, 0, 2, 3⟩ { chain := true, ext := some ⟨false, true, 5, 0, 0, 0⟩ }).decodeReason = some 6 ∧
      (Instr.ldB32 ⟨17, 0, 63, 0⟩ { chain := true, ext := some ⟨false, false, 2, 0, 0, 0⟩ }).decodeReason = some 6 ∧
      (Instr.fence ⟨63, 63, 4, 0⟩ {}).decodeReason = some 6 ∧ (Instr.cvt 9 ⟨16, 0, 18, 0⟩ {}).decodeReason = some 7 ∧
      (Instr.iaddS64 ⟨17, 0, 2, 0⟩ {}).decodeReason = some 8 ∧
      (Instr.sread ⟨63, 63, 0⟩ { chain := true, ext := some ⟨false, false, 0, 0, 0, 0⟩ }).decodeReason = some 9 := by
  decide +kernel

/-- The same terms are not well-formed, and neighbours that keep every rule are. -/
theorem test_well_formed :
    (Instr.iaddS32 ⟨0, 1, 16, 0⟩ {}).wellFormed = false ∧ (Instr.iaddS32 ⟨16, 1, 16, 0⟩ {}).wellFormed = true ∧
      (Instr.iabsS32 ⟨63, 1, 63, 0⟩ {}).wellFormed = true ∧ (Instr.sadd ⟨0, 0, 47, 0⟩ {}).wellFormed = true ∧
      (Instr.ldB32 ⟨17, 0, 63, 0⟩ { chain := true, ext := some ⟨false, false, 2, 0, 0, 4⟩ }).wellFormed = true ∧
      (Instr.fence ⟨63, 63, 3, 0⟩ {}).wellFormed = true ∧ (Instr.iaddS64 ⟨18, 0, 2, 0⟩ {}).wellFormed = true := by
  decide +kernel

/-! ## Single steps and operations against the manual's worked examples -/

/-- The group of `world` with the lanes of a mask at issue. -/
def worldOf (mask : LaneMask) : State := { world with sched := { world.sched with cur := some ⟨0, 0, mask, 0⟩ } }

/-- Registers of lane `l` set from `n` on. -/
def withK (l n : Nat) (vs : List W32) : State → State :=
  onGroup fun G => { G with lanes := modNth G.lanes l fun L => { L with k := L.k.take n ++ vs ++ L.k.drop (n + vs.length) } }

/-- Predicate p1 in the lanes of a mask. -/
def withP1 (m : LaneMask) : State → State :=
  onGroup fun G => { G with lanes := (indexed G.lanes).map fun x => { x.2 with p := if m.getLsbD x.1 then 3 else 1 } }

/-- What a next state shows. -/
def shown {α : Type} (r : Res) (f : State → α) : Option α := match r with
  | .next t => some (f t)
  | _ => none

def kOf (l n : Nat) (t : State) : W32 := ((t.grp 0 0).lane l).reg n
def qOf (l n : Nat) (t : State) : W64 := ((t.grp 0 0).lane l).q.getD n 0
def flagsOf (t : State) : W32 := (t.grp 0 0).flags &&& 31

/-- spec 08, the example after R150. -/
theorem test_division :
    let run (i : V3 → Mods → Instr) (a b : W32) : Option (W64 × W32) :=
      shown (exec (i ⟨63, 16, 17, 0⟩ {}) (withK 0 0 [a, b] world)) fun t => (qOf 0 0 t, flagsOf t)
    run .idivS32 (-7) 2 = some (0xFFFFFFFD, 0) ∧ run .iremS32 (-7) 2 = some (0xFFFFFFFF, 0) ∧
      run .idivN32 9 0 = some (0xFFFFFFFF, 8) ∧ run .idivS32 0x80000000 (-1) = some (0x80000000, 4) ∧
      run .iremS32 0x80000000 (-1) = some (0, 0) := by
  decide +kernel

theorem test_saturating_pairs :
    shown (exec (.iaddS16X2 ⟨63, 16, 17, 0⟩ { chain := true, ext := some ⟨false, false, 0, 1, 0, 0⟩ }) (withK 0 0 [0x7FFF0001, 0x00010001] world))
      (fun t => (qOf 0 0 t, flagsOf t)) = some (0x7FFF0002, 4) := by
  decide +kernel

/-- spec 07, the example of R133: an overflow in lane 7 commits in no lane. -/
theorem test_flag_trap :
    let s := onGroup (fun G => { G with flags := 0x0400 }) (withK 7 0 [0x7F000000, 0x7F000000] (worldOf 0xFFFFFFFF))
    let s := onKernel (fun K => { K with trapOff := 12 }) s
    shown (exec (.faddF32 ⟨16, 16, 17, 0⟩ {}) s) (fun t => ((t.grp 0 0).trapCause.extractLsb' 0 8, kOf 7 0 t, kOf 3 0 t, flagsOf t)) =
      some (5, 0x7F000000, 0, 0) := by
  decide +kernel

/-- spec 08, the example of MVRD: indices 15 - l with p1 in lanes 0 to 15, and in every lane. -/
theorem test_indexed_read :
    let regs : State := onKernel (fun K => { K with regs := 16, trapOff := 12 }) (onGroup (fun G => { G with
      lanes := (indexed G.lanes).map fun x => { x.2 with q := BitVec.ofInt 64 (11 - x.1) :: x.2.q.drop 1, k := (List.range 32).map fun n => BitVec.ofNat 32 (100 + n) } })
      (worldOf 0xFFFFFFFF))
    shown (exec (.mvrd ⟨18, 0, 4, 1⟩ {}) (withP1 0xFFFF regs)) (fun t => (kOf 0 2 t, qOf 15 0 t, kOf 16 2 t, qOf 16 0 t)) =
        some (115, 100, 102, 0) ∧
      shown (exec (.mvrd ⟨18, 0, 4, 1⟩ {}) (withP1 0xFFFFFFFF regs)) (fun t => ((t.grp 0 0).trapCause.extractLsb' 0 8, (t.grp 0 0).trapPc)) = some (3, 0) := by
  decide +kernel

/-- spec 09, the examples of EXPAND and CVT. -/
theorem test_conversions :
    shown (exec (.expandE4m3I4 ⟨63, 16, 63, 0⟩ {}) (withK 0 0 [0x8F71] world)) (qOf 0 0) = some 0x00000000D0B84E38 ∧
      shown (exec (.cvt 9 ⟨19, 18, 20, 0⟩ { chain := true, ext := some ⟨false, false, 1, 0, 0, 0⟩ }) (withK 0 2 [0x477FF000] world))
        (fun t => (kOf 0 3 t, flagsOf t)) = some (0x7BFF, 5) ∧
      shown (exec (.cvt 9 ⟨19, 18, 20, 0⟩ {}) (withK 0 2 [0x477FF000] world)) (fun t => (kOf 0 3 t, flagsOf t)) = some (0x7C00, 5) := by
  decide +kernel

/-- spec 09, the example of CVTMX: the elements and the scale of lanes 0 to 3. -/
theorem test_mx_block :
    let s := withK 3 2 [0x3F800000] (withK 2 2 [0x80000000] (withK 1 2 [0x3E99999A] (withK 0 2 [0x42C80000] (withP1 15 (worldOf 0xFFFFFFFF)))))
    shown (exec (.cvtmxMxe4m3F32 ⟨22, 18, 63, 1⟩ {}) s) (fun t => ((List.range 5).map fun l => kOf l 6 t, flagsOf t)) =
      some ([0x7D7C, 0x7D3A, 0x7D80, 0x7D48, 0], 1) := by
  decide +kernel

/-- spec 09, the example of GRED.seg. -/
theorem test_segmented_sum :
    let rows : List (W32 × W32) := [(0x3F800000, 0), (0x4B800000, 0), (0x3F800000, 0), (0x40400000, 0x80000001), (0x40A00000, 2), (0x40E00000, 2),
      (0x3F000000, 2), (0x80000000, 2)]
    let s := (indexed rows).foldl (fun u x => withK x.1 2 [x.2.1, x.2.2] u) (withP1 0xFF (worldOf 0xFFFFFFFF))
    shown (exec (.gredSegSumF32 ⟨20, 18, 19, 1⟩ {}) s) (fun t => ((List.range 9).map fun l => qOf l 0 t, flagsOf t)) =
      some ([0x4B800001, 0x4B800001, 0x4B800001, 0, 0x41480000, 0x41480000, 0x41480000, 0x41480000, 0], 0) := by
  decide +kernel

/-- spec 11, the example of TLD: row 9 of a transposed 8 by 16 tile of FP16 at 0x100, element (i, j) holding 0x1000 + 16i + j. -/
theorem test_transposed_tile :
    let at_ (i e : Nat) (u : State) : State := u.wr (localKey (0x100 + e)) (leBytes 2 (0x1000 + 16 * i + 9))
    let s := at_ 7 0xDA (at_ 6 0xD2 (at_ 5 0xCA (at_ 4 0xC2 (at_ 3 0x9A (at_ 2 0x92 (at_ 1 0x8A (at_ 0 0x82 world)))))))
    let s := withK 0 4 [0x100, 0, 0x80430003, 9] s
    shown (exec (.tld ⟨24, 20, 22, 0⟩ {}) s) (fun t => (kOf 0 8 t, kOf 0 11 t, qOf 0 0 t, qOf 0 1 t)) =
      some (0x10191009, 0x10791069, 0x1039102910191009, 0x1079106910591049) := by
  decide +kernel

/-- spec 11, the example of RLD: a record at 0x80 whose data begin at 0x200; lanes 0 and 2 read rows 1 and 9, lanes 1 and 3 lie beyond. -/
theorem test_ragged_rows :
    let rec_ : List Byte := leBytes 4 0x202 ++ leBytes 4 0x220002 ++ leBytes 4 0 ++ leBytes 4 3 ++ leBytes 4 10 ++ leBytes 4 4 ++ leBytes 4 1 ++ leBytes 4 1 ++
      leBytes 8 0x200 ++ List.replicate 24 0 ++ leBytes 4 0 ++ leBytes 4 4 ++ leBytes 4 4
    let s := (world.wr (localKey 0x80) rec_).wr (localKey 0x210)
      (leBytes 4 0x41200000 ++ leBytes 4 0x41300000)
    let s := s.wr (localKey (0x200 + 144)) (leBytes 4 0x42B40000)
    let s : State := { s with sched := { s.sched with cur := some ⟨0, 0, 15, 0⟩ } }
    let s := (indexed [(1, 0), (0, 1), (5, 2), (6, 2)]).foldl (fun u x => withK x.1 4 [0x80, 0, x.2.1, x.2.2] u) s
    shown (exec (.rld ⟨24, 20, 22, 0⟩ {}) s) (fun t => (kOf 0 8 t, kOf 0 9 t, kOf 1 8 t, kOf 2 8 t, kOf 3 8 t)) =
      some (0x41200000, 0x41300000, 0, 0x42B40000, 0) := by
  decide +kernel

/-- spec 11, the example of ATOM: lanes 0 to 3 add 1, 2, 3 and 4 to one word holding 5. -/
theorem test_atomics_in_lane_order :
    let s := (List.range 4).foldl (fun u l => withK l 4 [0x40, 0, BitVec.ofNat 32 (l + 1)] u) ((worldOf 15).wr (localKey 0x40) [5])
    shown (exec (.atomAddB32 ⟨18, 20, 22, 0⟩ {}) s) (fun t => ((List.range 4).map fun l => kOf l 2 t, memRead t.mem (localKey 0x40))) =
      some ([5, 6, 8, 11], 15) := by
  decide +kernel

/-- spec 14, the example of MCOMPRESS. -/
theorem test_pruning :
    let s := scr 0x100 [2, 0xFA, 0, 6] (withP1 1 world)
    -- columns 4 to 7 of row 0 stand where the layout puts them
    let place (j : Nat) : Nat := ((parseLayout 0x00420010).map fun y => y.index 0 j).getD 0
    let s := (indexed [3, 0xFD, 1, 3]).foldl (fun u x => scr (0x100 + place (4 + x.1)) [x.2] u) s
    let s := withK 0 4 [0x200, 0x40000000, 0x00420010, 0, 0x100, 0x40000000] s
    shown (exec (.mcompress ⟨20, 22, 24, 1⟩ {}) s) (fun t => (qOf 0 0 t, (List.range 4).map fun i => memRead t.mem (scratchKey 0 (0x200 + i)))) =
      some (0x688B19, [0xFA, 6, 3, 0xFD]) := by
  decide +kernel

/-- spec 16, the example of TEXS and TEXADJ: a bilinear 2 by 2 texture at 0x100. -/
theorem test_texture :
    let d : List Byte := leBytes 4 0x54580100 ++ leBytes 4 0x15402 ++ leBytes 4 2 ++ leBytes 4 2 ++ leBytes 8 0x100 ++ leBytes 8 0x180 ++ List.replicate 32 0
    let s := (world.wr (localKey 0x40) d).wr (localKey 0x100) (leBytes 4 0x3F800000 ++ leBytes 4 0x40000000 ++ leBytes 4 0x40400000 ++ leBytes 4 0x40A00000)
    let s := withK 0 4 [0x40, 0, 0, 0, 0x3F200000, 0x3EC00000, 0, 7, 0x3F800000] s
    let x := texLane .adjoint ⟨20, 24, 28, 0⟩ {} s one 0
    shown (exec (.texs ⟨20, 24, 63, 0⟩ {}) s) (fun t => (qOf 0 0 t, flagsOf t)) = some (0x401C0000, 0) ∧
      x.conts = [(0x180, 0x3E400000), (0x184, 0x3F100000), (0x188, 0x3D800000), (0x18C, 0x3E400000)] ∧
      x.out.pushes = [0, 0x40B0000040200000] := by
  decide +kernel

/-- spec 02, the NaN of 0 × ∞ on peer 0x123 and its two narrowings; the sum of a K-group, and its drain. -/
theorem test_nan_and_sums :
    (fpMul fmt32 .rne 0x123 0 0x7F800000).1 = 0x7FE09180 ∧ (fpConvert fmt32 fmtBf .rne 0x123 0x7FE09180).1 = 0x7FE0 ∧
      (fpConvert fmt32 fmt16 .rne 0x123 0x7FE09180).1 = 0x7F04 ∧
      accSum 0 0 ([0x3F800000, 0x37800000, 0x37800000].map fun x => (fmt32.value x, fmt32.value x)) = (0x3F80000001, 0) ∧
      drainFloat fmt32 .rne 0 0x3F80000001 = (0x3F800000, 1) := by
  decide +kernel

/-- spec 15, the fold of five contributions; spec 12, the sums of three ranks. -/
theorem test_flush_and_collective :
    flushWord 0 0x3F800000 [0x3F800000, 0x4B800000, 0xCB800000, 0x3F800000, 0x3F000000] = (0x40600000, 0) ∧
      collReduce 2 0 0x010 [0x7F800000, 0xFF800000, 0x7FC80280] = (0x7FC80280, 16) ∧
      collReduce 2 0 0x010 [0x7F800000, 0xFF800000, 0x3F800000] = (0x7FD80800, 16) := by
  decide +kernel

/-- spec 12, the route from peer 1 to peer 48. -/
theorem test_route :
    firstHop 1 48 = 46 ∧ (neighboursOf 1).take 3 = [46, 93, 140] ∧ (neighboursOf 46).take 3 = [1, 48, 95] ∧ isNeighbour 1 48 = false := by
  decide +kernel

/-- spec 01, element (5, 9) of a stored 8 by 16 tile of FP16. -/
theorem test_tile_address :
    (parseLayout 0x00430003).map (fun y => (y.R, y.C, y.align, y.index 5 9)) = some (8, 16, 128, 101) := by
  decide +kernel

/-- spec 05 R101, 08 R166 to R170: a branch two packets on, a call that keeps the packet after it, a software trap with code 5, and exit. -/
theorem test_control :
    let s := onKernel (fun K => { K with trapOff := 36 }) world
    shown (exec (.br ⟨0, 0, 2⟩ {}) s) (fun t => ((t.grp 0 0).lane 0).pc) = some 24 ∧
      shown (exec (.call ⟨0, 0, 3⟩ {}) s) (fun t => (((t.grp 0 0).lane 0).pc, kOf 0 31 t)) = some (36, 12) ∧
      shown (exec (.trap ⟨63, 63, 5⟩ {}) s) (fun t => (((t.grp 0 0).lane 0).pc, (t.grp 0 0).inh, ((t.grp 0 0).lane 0).epc)) = some (36, true, 4) ∧
      shown (exec (.exit ⟨0, 0, 0⟩ {}) s) (fun t => ((t.grp 0 0).lane 0).isExited) = some true := by
  decide +kernel

end Sys2Proof.Tests
end

section
/-! PROOFS of the integer instructions (spec 08 R145-R153): what a value-producing instruction does is what its form says. -/

namespace Sys2Proof.Forms

open Sys2Proof.Machine

/-- An instruction that performs `valueOp`, one push per lane, completes as the form with the same modifiers and guard says,
when the form gives each lane what the operation does. -/
theorem retires_of_valueOp {i : Instr} {v : ValueForm} {res : Group → Nat → LaneOut}
    (hi : ∀ s, exec i s = valueOp v.m v.g res s) (hv : ∀ s c act G, v.out s c act G = res G) : Retires i v := by
  intro s c hs G act out hf
  obtain ⟨hcur, hin⟩ := hs
  have hout : out = res G := hv s c act G
  rw [hout] at hf ⊢
  rw [hi, valueOp, withInst_some _ hcur]
  exact valueInst_next c v.m v.g 1 res s hin hf

/-- Every instruction that performs `intOp32` completes as its 32-bit form says. -/
theorem int32_retires {i : Instr} {f : V3} {m : Mods} {op : W32 → W32 → W32 × FlagBits}
    (hi : ∀ s, exec i s = intOp32 f m op s) : Retires i (int32 f m op) :=
  retires_of_valueOp hi fun _ _ _ _ => rfl

/-- Every instruction that performs `intOp64` completes as its 64-bit form says. -/
theorem int64_retires {i : Instr} {t : Ty} {f : V3} {m : Mods} {op : W64 → W64 → W64 × FlagBits}
    (hi : ∀ s, exec i s = intOp64 t f m op s) : Retires i (int64 t f m op) :=
  retires_of_valueOp hi fun _ _ _ _ => rfl

end Sys2Proof.Forms

open Sys2Proof.Forms

/-- Settles O11: each row of the table performs `intOp32` or `intOp64` with the row's operation. -/
theorem integerResults : Obligations.IntegerResults := by
  intro i v h
  cases h with
  | iaddS32 | isubS32 | imulS32 | imulhS32 | idivS32 | iremS32 | iminS32 | imaxS32 | iabsS32 | inegS32 | shlS32
  | shrS32 | sarS32 | popcS32 | clzS32 | brevS32 | iaddN32 | isubN32 | imulN32 | imulhN32 | idivN32 | iremN32
  | iminN32 | imaxN32 | inegN32 | shlN32 | shrN32 | popcN32 | clzN32 | brevN32 | iaddS16X2 | isubS16X2 | imulS16X2
  | iminS16X2 | imaxS16X2 | iminN16X2 | imaxN16X2 | iabsS16X2 | inegS16X2 | shlB16X2 | shrB16X2 | sarS16X2 =>
    exact int32_retires fun _ => rfl
  | iaddS64 | isubS64 | imulS64 | imulhS64 | idivS64 | iremS64 | iminS64 | imaxS64 | iabsS64 | inegS64 | shlS64
  | shrS64 | sarS64 | popcS64 | clzS64 | brevS64 | iaddN64 | isubN64 | imulN64 | imulhN64 | idivN64 | iremN64
  | iminN64 | imaxN64 | inegN64 | shlN64 | shrN64 | popcN64 | clzN64 | brevN64 =>
    exact int64_retires fun _ => rfl
end

section
/-! PROOFS of host accesses (spec 00 R5, R6, 22 R425): base address region 2, the registers of base address region 0. -/

namespace Sys2Proof.Machine

/-! ## Lines asked back and events held back -/

/-- Posting messages changes the fabric alone. -/
theorem foldl_post_fab (msg : FabMsg) (ps : List Nat) (s : State) :
    ∃ b, ps.foldl (fun s p => s.post p msg) s = { s with fab := b } := by
  induction ps generalizing s with
  | nil => exact ⟨s.fab, rfl⟩
  | cons p ps ih =>
    obtain ⟨b, hb⟩ := ih (s.post p msg)
    exact ⟨b, hb⟩

/-- Asking for a line back changes the fabric alone. -/
theorem State.recallLine_fab (s : State) (l : Nat) : ∃ b, s.recallLine l = { s with fab := b } := by
  unfold State.recallLine State.recallBut
  split
  · exact ⟨s.fab, rfl⟩
  · dsimp only
    split
    · exact ⟨s.fab, rfl⟩
    · obtain ⟨b, hb⟩ := foldl_post_fab (.recall l) _ _
      exact ⟨b, hb⟩

/-- Asking for lines back changes the fabric alone. -/
theorem foldl_recallLine_fab (ls : List Nat) (s : State) : ∃ b, ls.foldl State.recallLine s = { s with fab := b } := by
  induction ls generalizing s with
  | nil => exact ⟨s.fab, rfl⟩
  | cons l ls ih =>
    obtain ⟨a, ha⟩ := s.recallLine_fab l
    obtain ⟨b, hb⟩ := ih { s with fab := a }
    exact ⟨b, by rw [List.foldl_cons, ha, hb]⟩

/-- Holding an event back changes only which events wait. -/
theorem State.holdBack_waiting (s : State) (i : Instr) :
    ∃ ws, s.holdBack i = { s with sched := { s.sched with waiting := ws } } ∧ i ∈ ws := by
  unfold State.holdBack
  split
  · next h => exact ⟨s.sched.waiting, rfl, by simpa using h⟩
  · exact ⟨_, rfl, by simp⟩

/-- The lines marked once one has been marked. -/
theorem State.mem_addPoison_poison (s : State) (l k : Nat) : k ∈ (s.addPoison l).poison ↔ k = l ∨ k ∈ s.poison := by
  unfold State.addPoison
  dsimp only
  split
  · next h => simp_all
  · exact List.mem_cons

/-- Poison added to lines marks them all, drops no mark, and changes nothing but marks. -/
theorem foldl_addPoison (ls : List Nat) (s : State) :
    ∃ ps bs, ls.foldl State.addPoison s = { s with poison := ps, badBytes := bs } ∧ ∀ l, l ∈ ls ∨ l ∈ s.poison → l ∈ ps := by
  induction ls generalizing s with
  | nil => exact ⟨s.poison, s.badBytes, rfl, by simp⟩
  | cons l ls ih =>
    obtain ⟨ps, bs, hs, hps⟩ := ih (s.addPoison l)
    refine ⟨ps, bs, hs, fun k hk => hps k ?_⟩
    rw [State.mem_addPoison_poison]
    rcases hk with hk | hk
    · exact (List.mem_cons.1 hk).symm.imp_right .inl
    · exact .inr (.inr hk)

/-- Bytes outside those written read as before, whatever form the list of cells has. -/
theorem memRead_memWriteN_outside (m : List Host.Cell) (a b : Nat) (bs : List Byte)
    (h : ¬ (a ≤ b ∧ b < a + bs.length)) :
    memRead (memWriteN m a bs) b = memRead m b := by
  induction bs generalizing m a with
  | nil => rfl
  | cons x bs ih =>
    rw [List.length_cons] at h
    rw [memWriteN, ih _ _ (by omega), memRead_memWrite_other _ _ _ _ (by omega)]

/-! ## Accesses through base address region 2 -/

/-- The lines of an access that other packages hold against it. -/
def State.bar2Held (s : State) (addr len : Nat) (data : Option LinkData) : List Nat :=
  (hostLines addr len).filter fun l => s.dirBlocks l data.isSome

/-- What an access that nothing holds back does. -/
def State.bar2Perform (s : State) (addr len : Nat) (data : Option LinkData) : State :=
  let u : State := { s.letGo (.bar2Access addr len data) with hub := { s.hub with bar2Ur := false } }
  data.elim
    { u with hub := { u.hub with bar2Data := u.rd (localKey addr) len, bar2Bad := u.poisoned (localKey addr) len } }
    fun d =>
      let v := u.wr (localKey addr) d.bytes
      if d.poisoned then (hostLines addr len).foldl State.addPoison v else v

section
variable {addr len : Nat} {data : Option LinkData} (s : State)
  (hlen : len ≠ 0) (hdata : ∀ d, data = some d → d.bytes.length = len)
include hlen hdata

/-- An access that names bytes, and carries as many as it names, is refused beyond HBM4, waits its turn, waits for its
lines, and is then performed. -/
theorem exec_bar2Access :
    exec (.bar2Access addr len data) s =
      if hbmEnd < addr + len then .next { s with hub := { s.hub with bar2Ur := true, bar2Bad := false } }
      else if ¬ (s.firstHostWrite = none ∨ s.firstHostWrite = some (.bar2Access addr len data)) then
        .next (s.holdBack (.bar2Access addr len data))
      else if s.bar2Held addr len data ≠ [] then
        .next (((s.bar2Held addr len data).foldl State.recallLine s).holdBack (.bar2Access addr len data))
      else .next (s.bar2Perform addr len data) := by
  change execBar2Access addr len data s = _
  unfold execBar2Access
  cases data with
  | none => simp [hlen, Option.getD_eq_iff, or_comm, State.bar2Held, State.bar2Perform]
  | some d => simp [hlen, hdata d rfl, Option.getD_eq_iff, or_comm, State.bar2Held, State.bar2Perform]

/-- An access beyond HBM4 is an Unsupported Request (R425). -/
theorem exec_bar2Access_beyond (h : hbmEnd < addr + len) :
    exec (.bar2Access addr len data) s = .next { s with hub := { s.hub with bar2Ur := true, bar2Bad := false } } := by
  rw [exec_bar2Access s hlen hdata, if_pos h]

/-- An access behind a host write that waits, waits. -/
theorem exec_bar2Access_behind (h : addr + len ≤ hbmEnd)
    (hturn : ¬ (s.firstHostWrite = none ∨ s.firstHostWrite = some (.bar2Access addr len data))) :
    exec (.bar2Access addr len data) s = .next (s.holdBack (.bar2Access addr len data)) := by
  rw [exec_bar2Access s hlen hdata, if_neg (Nat.not_lt.2 h), if_pos hturn]

/-- An access to lines that other packages hold asks for them and waits. -/
theorem exec_bar2Access_held (h : addr + len ≤ hbmEnd)
    (hturn : s.firstHostWrite = none ∨ s.firstHostWrite = some (.bar2Access addr len data))
    (hheld : s.bar2Held addr len data ≠ []) :
    exec (.bar2Access addr len data) s =
      .next (((s.bar2Held addr len data).foldl State.recallLine s).holdBack (.bar2Access addr len data)) := by
  rw [exec_bar2Access s hlen hdata, if_neg (Nat.not_lt.2 h), if_neg (not_not_intro hturn), if_pos hheld]

/-- An access that nothing holds back is performed. -/
theorem exec_bar2Access_perform (h : addr + len ≤ hbmEnd)
    (hturn : s.firstHostWrite = none ∨ s.firstHostWrite = some (.bar2Access addr len data))
    (hheld : s.bar2Held addr len data = []) :
    exec (.bar2Access addr len data) s = .next (s.bar2Perform addr len data) := by
  rw [exec_bar2Access s hlen hdata, if_neg (Nat.not_lt.2 h), if_neg (not_not_intro hturn), if_neg (not_not_intro hheld)]

end

/-- A host write stores its bytes, leaves the teams alone, is no Unsupported Request, and marks its lines when it is poisoned. -/
theorem State.bar2Perform_some (s : State) (addr len : Nat) (d : LinkData) :
    let t := s.bar2Perform addr len (some d)
    t.mem = memWriteN s.mem (localKey addr) d.bytes ∧ t.teams = s.teams ∧ t.hub.bar2Ur = false ∧
      (d.poisoned = true → ∀ l ∈ hostLines addr len, l ∈ t.poison) := by
  simp only [State.bar2Perform, Option.elim_some]
  split
  · next hp =>
    obtain ⟨ps, bs, hs, hps⟩ := foldl_addPoison (hostLines addr len) _
    rw [hs]
    exact ⟨rfl, rfl, rfl, fun _ l hl => hps l (.inl hl)⟩
  · next hp => exact ⟨rfl, rfl, rfl, fun h => absurd h hp⟩

/-- An event held back in a state of which only the fabric has changed: memory, teams, grids and hub stand. -/
theorem holdBack_steady (s : State) (b : Fabric) (i : Instr) :
    let t := { s with fab := b }.holdBack i
    (t.mem = s.mem ∧ t.teams = s.teams ∧ t.grids = s.grids) ∧ i ∈ t.sched.waiting ∧ t.hub = s.hub := by
  obtain ⟨ws, hs, hi⟩ := { s with fab := b }.holdBack_waiting i
  simp [hs, hi]

/-! ## Device time -/

theorem toNat_timeWord (n : Nat) : (timeWord n).toNat = min (2 ^ 64 - 1) n := by
  rw [timeWord, BitVec.toNat_ofNat, Nat.mod_eq_of_lt (by omega)]

/-- Looking at device time never lowers it. -/
theorem State.lookTime_le (s : State) : s.hub.clock.now.toNat ≤ s.lookTime.2.hub.clock.now.toNat := by
  have h := s.hub.clock.now.isLt
  simp only [State.lookTime, toNat_timeWord]
  omega

/-! ## Registers of base address region 0 -/

/-- A meaning that answers a next state. -/
def Completes (r : Res) : Prop := ∃ t, r = .next t

@[simp] theorem completes_next (t : State) : Completes (.next t) := ⟨t, rfl⟩
@[simp] theorem completes_notDue (s : State) : Completes (notDue s) := ⟨s, rfl⟩

@[simp] theorem completes_ite {p : Prop} [Decidable p] {a b : Res} :
    Completes (if p then a else b) ↔ (p → Completes a) ∧ (¬ p → Completes b) := by
  split <;> simp_all

@[simp] theorem completes_execQwriteWrite (q : BitVec 6) (v : W32) (s : State) : Completes (execQwriteWrite q v s) := by
  simp [execQwriteWrite]

@[simp] theorem completes_execQueueDisable (q : BitVec 6) (v : W32) (s : State) : Completes (execQueueDisable q v s) := by
  simp [execQueueDisable]

@[simp] theorem completes_execSegrelGo (q : BitVec 6) (v : W32) (s : State) : Completes (execSegrelGo q v s) := by
  simp [execSegrelGo]

@[simp] theorem completes_execMigreqGo (v : W64) (s : State) : Completes (execMigreqGo v s) := by
  simp [execMigreqGo]

@[simp] theorem completes_execFqbaseWrite (v : W64) (s : State) : Completes (execFqbaseWrite v s) := completes_next _

@[simp] theorem completes_execFqreadWrite (v : W32) (s : State) : Completes (execFqreadWrite v s) := completes_next _

@[simp] theorem completes_execVaccmdGo (v : W32) (s : State) : Completes (execVaccmdGo v s) := by
  simp [execVaccmdGo]

@[simp] theorem completes_execCtxcmdGo (v : W32) (s : State) : Completes (execCtxcmdGo v s) := by
  simp [execCtxcmdGo]

@[simp] theorem completes_execTimectlSrcWrite (v : W32) (s : State) : Completes (execTimectlSrcWrite v s) := by
  simp [execTimectlSrcWrite]

@[simp] theorem completes_execRoutedataWrite (v : W64) (s : State) : Completes (execRoutedataWrite v s) := completes_next _

@[simp] theorem completes_execFwcmdGo (s : State) : Completes (execFwcmdGo s) := by
  simp [execFwcmdGo, hubRead]

@[simp] theorem completes_writeFwcmd (s : State) (v : W64) : Completes (s.writeFwcmd v) := by
  simp [State.writeFwcmd, execFwcmdReset]

@[simp] theorem completes_writeInvcmd (s : State) (v : W64) : Completes (s.writeInvcmd v) := by
  unfold State.writeInvcmd
  dsimp only
  split <;> exact completes_next _

@[simp] theorem completes_writeFresolve (s : State) (v : W64) : Completes (s.writeFresolve v) := by
  unfold State.writeFresolve
  split <;> exact completes_next _

/-- Every write of a queue's register completes. -/
theorem completes_writeQueue (s : State) (q : BitVec 6) (r : Nat) (v : W64) : Completes (s.writeQueue q r v) := by
  unfold State.writeQueue
  dsimp only
  split <;> simp

/-- Every write of a register outside the queues completes. -/
theorem completes_writeReg (s : State) (off : Nat) (v : W64) : Completes (s.writeReg off v) := by
  unfold State.writeReg
  dsimp only
  split <;> simp

/-- A write of a register goes to a queue's registers or to the others, as its offset says. -/
theorem exec_registerWrite {off : W32} (v : W64) (s : State) (h : namesReg off.toNat = true) :
    exec (.registerWrite off v) s = (queueReg off.toNat).elim (s.writeReg off.toNat v) fun x => s.writeQueue x.1 x.2 v := by
  change execRegisterWrite off v s = _
  unfold execRegisterWrite
  rw [h]
  cases queueReg off.toNat <;> rfl

theorem exec_registerWrite_completes {off : W32} (v : W64) (s : State) (h : namesReg off.toNat = true) :
    Completes (exec (.registerWrite off v) s) := by
  rw [exec_registerWrite v s h]
  cases queueReg off.toNat with
  | none => exact completes_writeReg s _ v
  | some x => exact completes_writeQueue s x.1 x.2 v

theorem queueReg_eq_none_of_mem (off : Nat) (h : off ∈ regOffsets) : queueReg off = none := by
  revert off
  decide

/-- A write of a register outside the queues. -/
theorem exec_registerWrite_reg (off : W32) (v : W64) (s : State) (h : off.toNat ∈ regOffsets) :
    exec (.registerWrite off v) s = s.writeReg off.toNat v := by
  rw [exec_registerWrite v s (by simp [namesReg, h]), queueReg_eq_none_of_mem _ h, Option.elim_none]

/-- Where the registers of a queue stand (R67). -/
theorem queueReg_at (q : BitVec 6) {r : Nat} (hr : r < 64) : queueReg (0x10000 + 64 * q.toNat + r) = some (q, r) := by
  have hq := q.isLt
  have hn : (0x10000 + 64 * q.toNat + r - 0x10000) / 64 = q.toNat := by omega
  have hm : (0x10000 + 64 * q.toNat + r - 0x10000) % 64 = r := by omega
  unfold queueReg
  rw [hn, hm, if_pos (by simp; omega), BitVec.ofNat_toNat, BitVec.setWidth_eq]

/-- The offsets of a queue's registers within its 64 bytes (Table 3-5). -/
def queueOffsets : List Nat := [0x00, 0x08, 0x0C, 0x10, 0x14, 0x18, 0x20, 0x28, 0x2C]

/-- A write of a queue's register. -/
theorem exec_registerWrite_queue (q : BitVec 6) (r : Nat) (v : W64) (s : State)
    (hr : r ∈ queueOffsets) :
    exec (.registerWrite (BitVec.ofNat 32 (0x10000 + 64 * q.toNat + r)) v) s = s.writeQueue q r v := by
  have hq := q.isLt
  have hlt : r < 64 := by
    revert r
    decide
  have hoff : (BitVec.ofNat 32 (0x10000 + 64 * q.toNat + r)).toNat = 0x10000 + 64 * q.toNat + r := by
    rw [BitVec.toNat_ofNat, Nat.mod_eq_of_lt (by omega)]
  have hreg := queueReg_at q hlt
  have hnames : namesReg (0x10000 + 64 * q.toNat + r) = true := by
    rw [namesReg, hreg]
    simp only [Bool.or_eq_true]
    exact .inr (by simpa [queueOffsets] using hr)
  rw [exec_registerWrite v s (by rwa [hoff]), hoff, hreg, Option.elim_some]

/-! ## Reads -/

/-- A read of PWRCAPNS returns the time under the cap up to now and clears the register (R435). -/
theorem exec_pwrcapnsRead (s : State) :
    ∃ t, exec .pwrcapnsRead s = .next t ∧ (t.mem = s.mem ∧ t.teams = s.teams ∧ t.grids = s.grids) ∧
      t.regs = { s.regs with pwrCapNs := 0 } ∧
      t.hub.clock.capTo = t.hub.clock.now.toNat ∧ s.hub.clock.now.toNat ≤ t.hub.clock.now.toNat ∧
      t.hub.hostRead =
        s.regs.pwrCapNs + BitVec.ofNat 64 (if s.hub.cap = 0 then 0 else t.hub.clock.now.toNat - s.hub.clock.capTo) :=
  ⟨_, rfl, ⟨rfl, rfl, rfl⟩, rfl, rfl, s.lookTime_le, rfl⟩

/-- An offset that names no register, or one that can only be written, reads zero. -/
theorem exec_bar0_read (off : W32) (s : State) (h : namesReg off.toNat = false ∨ writeOnly off.toNat = true) :
    exec (.bar0UnmappedAccess off false) s = .next { s with hub := { s.hub with hostRead := 0 } } := by
  change execBar0UnmappedAccess off false s = _
  rcases h with h | h <;> simp [execBar0UnmappedAccess, h, State.hostReads]

/-- A write of an offset that names no register is ignored. -/
theorem exec_bar0_write (off : W32) (s : State) (h : namesReg off.toNat = false) :
    exec (.bar0UnmappedAccess off true) s = .next s := by
  change execBar0UnmappedAccess off true s = _
  simp [execBar0UnmappedAccess, h]

/-! ## Fields -/

/-- A value clamped is its low half clamped. -/
theorem clamp32_eq (lo hi : Nat) (v : W64) :
    clamp32 lo hi v = BitVec.ofNat 32 (max lo (min hi (v.extractLsb' 0 32).toNat)) := by
  simp [clamp32]

/-- The page field as a mask. -/
theorem page45_eq (v : W64) : page45 v = v &&& 0x00001FFFFFFFF000 := by
  have hmask : ∀ i, i < 64 → (0x00001FFFFFFFF000 : W64).getLsbD i = (decide (12 ≤ i) && decide (i < 45)) := by decide
  apply BitVec.eq_of_getLsbD_eq
  intro i hi
  rw [BitVec.getLsbD_and, hmask i hi, page45, show (4096 : Nat) = 2 ^ 12 from rfl, BitVec.getLsbD_ofNat]
  rw [Nat.testBit_mul_two_pow, Nat.testBit_div_two_pow, Nat.testBit_mod_two_pow]
  by_cases h12 : 12 ≤ i
  · simp [h12, hi, BitVec.getLsbD, Bool.and_comm]
  · simp [h12]

/-! ## Writes by register -/

/-- A register that is taken, or left as it is, as a condition says. -/
theorem ite_next_regs {s : State} {p q : Prop} [Decidable p] [Decidable q] (hpq : p ↔ q) (r r' : Regs) :
    (if p then .next { s with regs := r } else .next { s with regs := r' } : Res) =
      .next { s with regs := if q then r else r' } := by
  simp only [hpq]
  split <;> rfl

/-- INVCMD by its kind (Table 10-6). -/
theorem writeInvcmd_kinds (s : State) (v : W64) :
    (v.extractLsb' 0 2 = 0 → s.writeInvcmd v = exec (.invcmdPage (v.extractLsb' 16 8)) s) ∧
    (v.extractLsb' 0 2 = 1 → s.writeInvcmd v = exec (.invcmdContext (v.extractLsb' 16 8)) s) ∧
    (v.extractLsb' 0 2 = 2 → s.writeInvcmd v = exec (.invcmdAll (v.extractLsb' 16 8)) s) := by
  unfold State.writeInvcmd
  refine ⟨fun h => ?_, fun h => ?_, fun h => ?_⟩ <;> rw [h] <;> rfl

/-- FRESOLVE by its result (Table 10-6). -/
theorem writeFresolve_kinds (s : State) (v : W64) :
    (v.extractLsb' 0 2 = 0 → s.writeFresolve v = exec (.fresolveMapped (v.extractLsb' 32 32)) s) ∧
    (v.extractLsb' 0 2 = 1 → s.writeFresolve v = exec (.fresolveUnresolvable (v.extractLsb' 32 32)) s) := by
  unfold State.writeFresolve
  refine ⟨fun h => ?_, fun h => ?_⟩ <;> rw [h] <;> rfl

/-- A queue's register that is ignored while the queue is enabled. -/
theorem ignored_while_enabled {r x : Res} {s : State} {e : Bool} (h : r = if e then .next s else x) :
    (e = true → r = .next s) ∧ (e = false → r = x) := by
  subst h
  cases e <;> simp

end Sys2Proof.Machine

open Sys2Proof Sys2Proof.Machine

/-- Settles O58: an access of base address region 2 by what holds it back; a register by the arm of `State.writeReg` or
`State.writeQueue` that its offset selects. -/
theorem hostAccess : Obligations.HostAccess := by
  intro s steady
  refine ⟨?bar2, fun off h => ⟨exec_bar0_write off s h, exec_bar0_read off s (.inl h)⟩,
    fun off h => exec_bar0_read off s (.inr h), rfl, rfl, exec_pwrcapnsRead s,
    fun off v h => exec_registerWrite_completes v s h, ?regs, ?queues⟩
  case bar2 =>
    intro addr len data hlen hdata i held
    refine ⟨exec_bar2Access_beyond s hlen hdata, fun h hturn => ?_, fun h hturn hheld => ?_, fun h hturn hheld => ?_⟩
    · exact ⟨_, exec_bar2Access_behind s hlen hdata h hturn, holdBack_steady s s.fab i⟩
    · obtain ⟨b, hb⟩ := foldl_recallLine_fab held s
      refine ⟨_, exec_bar2Access_held s hlen hdata h hturn hheld, ?_⟩
      rw [show (s.bar2Held addr len data).foldl State.recallLine s = { s with fab := b } from hb]
      exact holdBack_steady s b i
    · refine ⟨_, exec_bar2Access_perform s hlen hdata h hturn hheld, ?_⟩
      cases data with
      | none => exact ⟨rfl, rfl, fun _ => ⟨rfl, rfl, rfl⟩, fun d hd => nomatch hd⟩
      | some d =>
        obtain ⟨hmem, hteams, hur, hpoison⟩ := s.bar2Perform_some addr len d
        refine ⟨hteams, hur, fun hd => (nomatch hd), fun e he => ?_⟩
        obtain rfl : d = e := Option.some.inj he
        have hl : d.bytes.length = len := hdata d rfl
        refine ⟨hpoison, fun hwf k hk => ?_, fun a ha => ?_⟩
        · rw [hmem, memRead_memWriteN _ _ _ _ hwf, if_pos (by omega), Nat.add_sub_cancel_left]
        · rw [hmem, memRead_memWriteN_outside _ _ _ _ (by omega)]
  case regs =>
    intro v w sets same within
    have reg (off : W32) (h : off.toNat ∈ regOffsets) := exec_registerWrite_reg off v s h
    have clamped (lo hi : Nat) : within lo hi = clamp32 lo hi v := (clamp32_eq lo hi v).symm
    have page := (page45_eq v).symm
    obtain ⟨invPage, invContext, invAll⟩ := writeInvcmd_kinds s v
    obtain ⟨mapped, unresolvable⟩ := writeFresolve_kinds s v
    simp only [clamped, page]
    exact ⟨reg 0x2000 (by decide), reg 0x2100 (by decide), reg 0x2110 (by decide), reg 0x2120 (by decide),
      reg 0x2200 (by decide), reg 0x2300 (by decide), reg 0x2510 (by decide), reg 0x2514 (by decide),
      reg 0x261C (by decide), reg 0x2700 (by decide), reg 0x2808 (by decide), reg 0x3008 (by decide),
      (reg 0x2508 (by decide)).trans (ite_next_regs (by simp [w, low32]) _ s.regs),
      (reg 0x3010 (by decide)).trans (ite_next_regs decide_eq_true_iff s.regs _),
      (reg 0x2430 (by decide)).trans (ite_next_regs Iff.rfl s.regs _),
      reg 0x2118 (by decide), reg 0x2128 (by decide), reg 0x2608 (by decide), reg 0x3018 (by decide),
      fun h => (reg 0x2138 (by decide)).trans (if_pos h),
      fun h => ⟨(reg 0x2420 (by decide)).trans (if_pos h), (reg 0x2438 (by decide)).trans (if_pos h)⟩,
      fun h => ⟨(reg 0x2108 (by decide)).trans (invPage h), (reg 0x2130 (by decide)).trans (mapped h)⟩,
      fun h => ⟨(reg 0x2108 (by decide)).trans (invContext h), (reg 0x2130 (by decide)).trans (unresolvable h)⟩,
      fun h => (reg 0x2108 (by decide)).trans (invAll h)⟩
  case queues =>
    intro q v w Q at_ sets idle
    have reg (r : Nat) (h : r ∈ queueOffsets) := exec_registerWrite_queue q r v s h
    exact ⟨ignored_while_enabled (reg 0 (by decide)),
      fun h => ignored_while_enabled ((reg 8 (by decide)).trans (if_pos h)),
      fun h => (reg 8 (by decide)).trans (if_neg (ne_true_of_eq_false h)),
      fun h => (reg 0xC (by decide)).trans (if_neg (by rcases h with h | h <;> simp [Q, h])),
      fun hen hv => (reg 0xC (by decide)).trans (if_pos (by simpa using And.intro hen hv)),
      reg 0x10 (by decide), reg 0x18 (by decide),
      ignored_while_enabled (reg 0x20 (by decide)), ignored_while_enabled (reg 0x28 (by decide)),
      fun h => (reg 0x2C (by decide)).trans (if_pos h)⟩
end

section
/-! PROOFS of branches, calls, returns and indirect jumps (spec 08 R170-R173, 01 R19): every one of them ends in `finish` with the
lanes of a mask at their targets. -/

namespace Sys2Proof.Machine

open Sys2Proof.Forms

/-! ## The lowest lane of a mask, and updates of a group -/

/-- The first lane of a mask that holds exactly the lanes of which `bad` holds is the lowest of them. -/
theorem lowest_of_maskLanes_laneMask {f : Nat → Bool} {bad : Nat → Prop} {k l : Nat} {ls : List Nat}
    (hk : maskLanes (laneMask f) = k :: ls) (hiff : ∀ j, j < 32 → (f j = true ↔ bad j)) (hl : l < 32) (hb : bad l)
    (hlow : ∀ j, j < l → ¬ bad j) : k = l ∧ Exactly (laneMask f) bad := by
  have hexact : Exactly (laneMask f) bad := fun j hj => by
    rw [getLsbD_laneMask, decide_eq_true hj, Bool.true_and, hiff j hj]
  have hfind : (List.range 32).find? (fun j => (laneMask f).getLsbD j) = some l := by
    rw [List.find?_range_eq_some]
    refine ⟨(hexact l hl).2 hb, List.mem_range.2 hl, fun j hj => ?_⟩
    rw [Bool.not_eq_true', Bool.eq_false_iff]
    exact fun h => hlow j hj ((hexact j (Nat.lt_trans hj hl)).1 h)
  have hhead : (maskLanes (laneMask f)).head? = some l := by rw [maskLanes, List.head?_filter, hfind]
  rw [hk] at hhead
  exact ⟨Option.some.inj hhead, hexact⟩

theorem State.modGroup_id (s : State) (t g : Nat) : (s.modGroup t g fun G => G) = s := by
  have h : modNth s.teams t (fun T => { T with groups := modNth T.groups g fun G => G }) = s.teams :=
    modNth_id _ _ _ fun T => by rw [modNth_id _ _ _ fun _ => rfl]
  unfold State.modGroup State.modTeam
  rw [h]

/-- An update of a group is what it makes of the group that is there. -/
theorem State.modGroup_congr (s : State) (t g : Nat) {f h : Group → Group} (hfh : f (s.grp t g) = h (s.grp t g)) :
    s.modGroup t g f = s.modGroup t g h := by
  have hteams : modNth s.teams t (fun T => { T with groups := modNth T.groups g f }) =
      modNth s.teams t (fun T => { T with groups := modNth T.groups g h }) := by
    refine modNth_congr _ _ _ _ fun T hT => ?_
    have hgroups : modNth T.groups g f = modNth T.groups g h := by
      refine modNth_congr _ _ _ _ fun G hG => ?_
      have hgrp : s.grp t g = G := by simp [State.grp, State.team, List.getD, hT, hG]
      rwa [hgrp] at hfh
    rw [hgroups]
  unfold State.modGroup State.modTeam
  rw [hteams]

/-! ## The end of an instruction that sends a lane out of the code -/

/-- When a lane would go on outside the code, all such lanes trap, and the lowest of them is reported (spec 01 R19). -/
theorem finish_traps {c : Inst} {m : Mods} {next : Nat → Option W32} {s0 s1 : State} {bad : Nat → Prop} {l : Nat} {n : W32}
    (hbad : ∀ k, k < 32 → (bad k ↔ c.mask.getLsbD k = true ∧ ((s0.instGrp c).lane k).helper = false ∧
      ∃ x, next k = some x ∧ (s0.instKernel c).codeSize ≤ x.toNat))
    (hl : l < 32) (hb : bad l) (hlow : ∀ k, k < l → ¬ bad k) (hn : next l = some n) :
    TrapsIn (finish c m next s0 s1) s0 c m (fun mask => trapOf 7 l 11 0x20 n 0 mask) bad := by
  obtain ⟨hm, hh, x, hx, hout⟩ := (hbad l hl).1 hb
  unfold finish
  dsimp only
  split
  · rename_i k ls hk
    obtain ⟨rfl, hexact⟩ := lowest_of_maskLanes_laneMask hk (fun j hj => by
      rw [hbad j hj]
      cases hj : next j <;> simp [and_assoc]) hl hb hlow
    exact ⟨_, hexact, by rw [hn]; rfl⟩
  · rename_i hnil
    have hnone := (maskLanes_laneMask_nil _).1 hnil l hl
    simp [hm, hh, hx, hout] at hnone

/-! ## Lanes sent to their targets -/

section
variable {s : State} {c : Inst} {m : Mods} {act : LaneMask} {target : Nat → W32} {may : W32 → Bool}

theorem not_inCode (s : State) (c : Inst) (n : W32) : (!inCode s c n) = decide ((s.instKernel c).codeSize ≤ n.toNat) := by
  rw [inCode, ← decide_not, decide_eq_decide]
  exact Nat.not_lt

theorem toTargets_of_lane {G : Group} {l : Nat} (ha : act.getLsbD l = true) (hh : (G.lane l).helper = false) :
    toTargets c m G act target may l = some (target l) := by
  simp [toTargets, ha, hh]

theorem toTargets_of_outside {G : Group} {l : Nat} (ha : act.getLsbD l = false) :
    toTargets c m G act target may l = some (afterUnit c.pc m) := by
  simp [toTargets, ha]

/-- Every target may be taken: the lanes go there, and `k` has been done to the group. -/
theorem finish_toTargets (k : Group → Group) (hs : s.Issues c m) (hmay : AllMay (s.instGrp c) act target may)
    (hin : ∀ n, may n = true → inCode s c n = true) :
    finish c m (toTargets c m (s.instGrp c) act target may) s (s.modGroup c.team c.group k) =
      .next (s.modGroup c.team c.group fun G => (k G).goesOn c (toTargets c m G act target may)) := by
  rw [finish_next, State.modGroup_modGroup]
  · exact congrArg Host.Outcome.next (State.modGroup_congr _ _ _ rfl)
  · intro l hl _ hh n hn
    cases ha : act.getLsbD l with
    | true =>
      rw [toTargets_of_lane ha hh] at hn
      cases hn
      exact of_decide_eq_true (hin _ (hmay l hl ha hh))
    | false =>
      rw [toTargets_of_outside ha] at hn
      cases hn
      exact hs.2

/-- A lane that a control word sends outside the code (spec 01 R19); a helper lane goes on at the next word instead. -/
def SentOut (s : State) (c : Inst) (act : LaneMask) (target : Nat → W32) (l : Nat) : Prop :=
  act.getLsbD l = true ∧ ((s.instGrp c).lane l).helper = false ∧ inCode s c (target l) = false

/-- Some target lies outside the code. -/
theorem finish_toTargets_traps {i : Instr} {s1 : State} (hs : s.Issues c m)
    (hsub : ∀ l, act.getLsbD l = true → c.mask.getLsbD l = true)
    (hi : exec i s = finish c m (toTargets c m (s.instGrp c) act target may) s s1) :
    TrapsWhere i s c m (SentOut s c act target) 7 11 target := by
  intro l hl hb hlow
  rw [hi]
  refine finish_traps (fun k _ => ?_) hl hb hlow (toTargets_of_lane hb.1 hb.2.1)
  unfold SentOut
  cases hh : ((s.instGrp c).lane k).helper
  · cases ha : act.getLsbD k
    · simp [toTargets_of_outside ha, Nat.not_le.2 hs.2]
    · simp [toTargets_of_lane ha hh, hsub k ha, inCode]
  · simp

/-! ## Direct branches -/

theorem transfer_eq_finish (s1 : State) :
    transfer c m act target s s1 = finish c m (toTargets c m (s.instGrp c) act target (inCode s c)) s s1 := by
  unfold transfer toTargets
  simp only [not_inCode]

theorem exec_br (f : FB) (hs : s.sched.cur = some c) :
    exec (.br f m) s = finish c m (toTargets c m (s.instGrp c) (activeB s c f)
      (fun _ => packetTarget c (f.off.signExtend 32)) (inCode s c)) s s :=
  (withInst_some _ hs).trans (transfer_eq_finish s)

/-- BRS sends every lane that issues it or none, by whether its scalar is zero (spec 08 R171). -/
theorem branchScalar_eq_finish (z : Bool) (f : FBrs) (hs : s.sched.cur = some c) :
    branchScalar z f m s = finish c m (toTargets c m (s.instGrp c)
      (if ((s.instGrp c).sreg f.sa.toNat == 0) == z then c.mask else 0)
      (fun _ => packetTarget c (f.off.signExtend 32)) (inCode s c)) s s :=
  (withInst_some _ hs).trans (transfer_eq_finish s)

theorem exec_brsZ (f : FBrs) (hs : s.sched.cur = some c) :
    exec (.brsZ f m) s = finish c m (toTargets c m (s.instGrp c) (if (s.instGrp c).sreg f.sa.toNat = 0 then c.mask else 0)
      (fun _ => packetTarget c (f.off.signExtend 32)) (inCode s c)) s s := by
  refine (branchScalar_eq_finish true f hs).trans ?_
  by_cases h : (s.instGrp c).sreg f.sa.toNat = 0 <;> simp [h]

theorem exec_brsNz (f : FBrs) (hs : s.sched.cur = some c) :
    exec (.brsNz f m) s = finish c m (toTargets c m (s.instGrp c) (if (s.instGrp c).sreg f.sa.toNat = 0 then 0 else c.mask)
      (fun _ => packetTarget c (f.off.signExtend 32)) (inCode s c)) s s := by
  refine (branchScalar_eq_finish false f hs).trans ?_
  by_cases h : (s.instGrp c).sreg f.sa.toNat = 0 <;> simp [h]

/-- The link register of the lanes that a CALL to `t` sends (spec 08 R172). -/
def linkLanes (s : State) (c : Inst) (act : LaneMask) (t : W32) (G : Group) : Group :=
  G.mapLanes fun l L =>
    if act.getLsbD l && !(L.helper && !inCode s c t) then L.setReg (linkReg s c) (packetTarget c 1) else L

theorem exec_call (f : FB) (hs : s.sched.cur = some c) :
    exec (.call f m) s = finish c m (toTargets c m (s.instGrp c) (activeB s c f)
      (fun _ => packetTarget c (f.off.signExtend 32)) (inCode s c)) s
      (s.modGroup c.team c.group (linkLanes s c (activeB s c f) (packetTarget c (f.off.signExtend 32)))) := by
  unfold linkLanes
  simp only [not_inCode]
  exact (withInst_some _ hs).trans (transfer_eq_finish _)

/-! ## Indirect jumps -/

/-- A lane that an indirect jump sends to an offset that is no packet's (spec 08 R172). -/
def SentAskew (s : State) (c : Inst) (act : LaneMask) (target : Nat → W32) (l : Nat) : Prop :=
  act.getLsbD l = true ∧ ((s.instGrp c).lane l).helper = false ∧ (target l).toNat % 12 ≠ 0

/-- A helper lane that stays at its own word because its target is no packet's offset is one whose target may not be taken. -/
theorem toTargets_aligned :
    toTargets c m (s.instGrp c) (act &&& ~~~(laneMask fun l => ((s.instGrp c).lane l).helper && (target l).toNat % 12 != 0))
      target (inCode s c) = toTargets c m (s.instGrp c) act target (isPacket s c) := by
  funext l
  by_cases hl : l < 32
  · have hmask : (act &&& ~~~(laneMask fun l => ((s.instGrp c).lane l).helper && (target l).toNat % 12 != 0)).getLsbD l =
        (act.getLsbD l && !(((s.instGrp c).lane l).helper && (target l).toNat % 12 != 0)) := by
      rw [BitVec.getLsbD_and, BitVec.getLsbD_not, getLsbD_laneMask, decide_eq_true hl, Bool.true_and, Bool.true_and]
    unfold toTargets isPacket
    rw [hmask]
    cases ((s.instGrp c).lane l).helper
    · simp
    · cases ho : (target l).toNat % 12 == 0 <;> simp [bne, ho]
  · have ha : act.getLsbD l = false := BitVec.getLsbD_of_ge _ _ (Nat.le_of_not_lt hl)
    rw [toTargets_of_outside ha, toTargets_of_outside (by simp [ha])]

theorem indirectJump_eq_finish (h : ∀ l, l < 32 → ¬ SentAskew s c act target l) :
    indirectJump c m act target s = finish c m (toTargets c m (s.instGrp c) act target (isPacket s c)) s s := by
  have hnil : maskLanes (laneMask fun l =>
      act.getLsbD l && (target l).toNat % 12 != 0 && !((s.instGrp c).lane l).helper) = [] := by
    rw [maskLanes_laneMask_nil]
    intro l hl
    have := h l hl
    unfold SentAskew at this
    cases ha : act.getLsbD l <;> cases hh : ((s.instGrp c).lane l).helper <;> simp_all
  unfold indirectJump
  dsimp only
  rw [hnil]
  exact (transfer_eq_finish s).trans (by rw [toTargets_aligned])

/-- A target that is no packet's offset traps before any target outside the code does. -/
theorem indirectJump_traps {i : Instr} (hi : exec i s = indirectJump c m act target s) :
    TrapsWhere i s c m (SentAskew s c act target) 8 6 target := by
  intro l hl hb hlow
  have hiff : ∀ k, (act.getLsbD k && (target k).toNat % 12 != 0 && !((s.instGrp c).lane k).helper) = true ↔
      SentAskew s c act target k := by
    intro k
    simp only [SentAskew, Bool.and_eq_true, bne_iff_ne, Bool.not_eq_true']
    exact ⟨fun ⟨⟨ha, ho⟩, hh⟩ => ⟨ha, hh, ho⟩, fun ⟨ha, hh, ho⟩ => ⟨⟨ha, ho⟩, hh⟩⟩
  rw [hi]
  unfold indirectJump
  dsimp only
  split
  · rename_i k ls hk
    obtain ⟨rfl, hexact⟩ := lowest_of_maskLanes_laneMask hk (fun j _ => hiff j) hl hb hlow
    exact ⟨_, hexact, rfl⟩
  · rename_i hnil
    have hnone := (maskLanes_laneMask_nil _).1 hnil l hl
    rw [(hiff l).2 hb] at hnone
    cases hnone

theorem exec_ret (f : FB) (hs : s.sched.cur = some c) :
    exec (.ret f m) s = indirectJump c m (activeB s c f) (fun l => ((s.instGrp c).lane l).reg (linkReg s c)) s :=
  withInst_some _ hs

theorem exec_jmpi (f : FB) (hs : s.sched.cur = some c) :
    exec (.jmpi f m) s = indirectJump c m (activeB s c f) (fun l => src32 (s.instGrp c) m l (f.off.extractLsb' 11 6)) s :=
  withInst_some _ hs

/-- Every target of an indirect jump is a packet inside the code: the lanes go there. -/
theorem indirectJump_next (hs : s.Issues c m) (hmay : AllMay (s.instGrp c) act target (isPacket s c)) :
    indirectJump c m act target s =
      .next (s.modGroup c.team c.group fun G => G.goesOn c (toTargets c m G act target (isPacket s c))) := by
  have hpacket : ∀ n, isPacket s c n = true → n.toNat % 12 = 0 ∧ inCode s c n = true := by
    intro n hn
    simpa [isPacket] using hn
  rw [indirectJump_eq_finish fun l hl ⟨ha, hh, ho⟩ => ho (hpacket _ (hmay l hl ha hh)).1]
  have h := finish_toTargets (fun G => G) hs hmay fun n hn => (hpacket n hn).2
  rwa [State.modGroup_id] at h

/-- Every target of a direct branch lies inside the code: the lanes go there. -/
theorem finish_branch (hs : s.Issues c m) (hmay : AllMay (s.instGrp c) act target (inCode s c)) :
    finish c m (toTargets c m (s.instGrp c) act target (inCode s c)) s s =
      .next (s.modGroup c.team c.group fun G => G.goesOn c (toTargets c m G act target (inCode s c))) := by
  have h := finish_toTargets (fun G => G) hs hmay fun _ hn => hn
  rwa [State.modGroup_id] at h

end

end Sys2Proof.Machine

open Sys2Proof Sys2Proof.Machine Sys2Proof.Forms

/-- Settles O18: the direct branches end in `finish` with their lanes at their targets, RET and JMPI do so when every target is
a packet's offset. -/
theorem branches : Obligations.Branches := by
  intro f b m s c hs G act P dest toS link back there allZ allNz goes leaves odd
  have hcur := hs.1
  have hact : ∀ l, act.getLsbD l = true → c.mask.getLsbD l = true := fun _ h => activeOf_sub h
  have hZ : ∀ l, allZ.getLsbD l = true → c.mask.getLsbD l = true := by
    intro l h
    by_cases hz : G.sreg b.sa.toNat = 0 <;> simp_all [allZ]
  have hNz : ∀ l, allNz.getLsbD l = true → c.mask.getLsbD l = true := by
    intro l h
    by_cases hz : G.sreg b.sa.toNat = 0 <;> simp_all [allNz]
  exact ⟨fun h => (exec_br f hcur).trans (finish_branch hs h),
    fun h => (exec_brsZ b hcur).trans (finish_branch hs h),
    fun h => (exec_brsNz b hcur).trans (finish_branch hs h),
    fun h => (exec_call f hcur).trans (finish_toTargets _ hs h fun _ hn => hn),
    fun h => (exec_ret f hcur).trans (indirectJump_next hs h),
    fun h => (exec_jmpi f hcur).trans (indirectJump_next hs h),
    finish_toTargets_traps hs hact (exec_br f hcur), finish_toTargets_traps hs hact (exec_call f hcur),
    finish_toTargets_traps hs hZ (exec_brsZ b hcur), finish_toTargets_traps hs hNz (exec_brsNz b hcur),
    indirectJump_traps (exec_jmpi f hcur), indirectJump_traps (exec_ret f hcur),
    fun h => finish_toTargets_traps hs hact ((exec_jmpi f hcur).trans (indirectJump_eq_finish h)),
    fun h => finish_toTargets_traps hs hact ((exec_ret f hcur).trans (indirectJump_eq_finish h))⟩
end

section
/-! PROOFS of ragged loads and stores (spec 11 R232, R233, R241): each is one `memInst` over the runs that the shape
records place. -/

namespace Sys2Proof.Machine

/-! ## Stores whose bytes are all here -/

/-- A store no byte of which lies on another package is one write of its cells. -/
theorem State.storeMasked_here (s : State) (who : Nat × Nat × Nat) (grid : Option Nat) (whole : Bool) (mask : Nat → Byte)
    (cells : List (Nat × Bool × Byte)) (h : ∀ x ∈ cells, peerKey x.1 = false) :
    s.storeMasked who grid whole mask cells = s.wrCells (cells.map fun x => (x.1, x.2.2)) := by
  have hnow : cells.filter (fun x => !(s.isPeerKey x.1 && x.2.1) && !(s.isPeerKey x.1 && s.lostLine who (x.1 / 128))) = cells :=
    filter_true _ _ fun x hx => by simp [State.isPeerKey, h x hx]
  have haway : cells.filter (fun x => s.isPeerKey x.1 && x.2.1) = [] :=
    filter_false _ _ fun x hx => by simp [State.isPeerKey, h x hx]
  unfold State.storeMasked
  dsimp only
  rw [hnow, haway, foldl_fixed _ _ cells fun x hx => by simp [State.isPeerKey, h x hx]]
  rfl

/-- The cells of a run, without the marks of uncached pages. -/
theorem State.runCells_cells (s : State) (t : TileRun) (ks : List (Nat × Bool)) (v : Nat) :
    (s.runCells t ks v).map (fun x => (x.1, x.2.2)) =
      (ks.map (·.1)).zip (spreadRun t.bits t.es t.offs ((ks.map (·.1)).map (memRead s.mem)) v) := by
  unfold State.runCells
  rw [List.map_map, List.map_map, List.zip_map_left]
  rfl

theorem State.runCells_here (s : State) (t : TileRun) (ks : List (Nat × Bool)) (v : Nat) (h : ∀ k ∈ ks, peerKey k.1 = false) :
    ∀ x ∈ s.runCells t ks v, peerKey x.1 = false := by
  intro x hx
  obtain ⟨y, hy, rfl⟩ := List.mem_map.1 hx
  exact h _ (List.of_mem_zip hy).1

/-- A run stored where all its bytes are here. -/
theorem State.storeRun_here (s : State) (c : Inst) (l : Nat) (t : TileRun) (ks : List (Nat × Bool)) (v : Nat)
    (h : ∀ k ∈ ks, peerKey k.1 = false) :
    s.storeRun c l t ks v = s.wrCells
      ((ks.map (·.1)).zip (spreadRun t.bits t.es t.offs ((ks.map (·.1)).map (memRead s.mem)) v)) := by
  unfold State.storeRun
  dsimp only
  rw [s.storeMasked_here _ _ _ _ _ (s.runCells_here t ks v h), s.runCells_cells]

theorem State.readRun_keys (s : State) (t : TileRun) (ks : List (Nat × Bool)) :
    s.readRun t ks = gatherRun t.bits t.es t.offs ((ks.map (·.1)).map (memRead s.mem)) := by
  rw [List.map_map]
  rfl

/-! ## Cells written in order -/

section
variable {α : Type} (cells : State → α → List Host.Cell)

/-- Cells written in order, each write's those that `cells` gives for the state it meets. -/
def writeCells (xs : List α) (s : State) : State := xs.foldl (fun u x => u.wrCells (cells u x)) s

/-- Writes change memory and the marks of poison alone. -/
theorem writeCells_parts (xs : List α) (s : State) :
    ∃ mem poison bad, writeCells cells xs s = { s with mem := mem, poison := poison, badBytes := bad } := by
  unfold writeCells
  induction xs generalizing s with
  | nil => exact ⟨_, _, _, rfl⟩
  | cons x xs ih =>
    obtain ⟨mem, poison, bad, h⟩ := ih (s.wrCells (cells s x))
    exact ⟨mem, poison, bad, h⟩

/-- What writes leave in memory depends on memory alone, when what they write does. -/
theorem writeCells_mem {xs : List α} {s t : State} (hcells : ∀ u v x, u.mem = v.mem → cells u x = cells v x)
    (h : s.mem = t.mem) : (writeCells cells xs s).mem = (writeCells cells xs t).mem := by
  unfold writeCells
  induction xs generalizing s t with
  | nil => exact h
  | cons x xs ih =>
    apply ih
    rw [State.wrCells_mem, State.wrCells_mem, hcells s t x h, h]

/-- A byte that no write names is as before. -/
theorem memRead_writeCells_other {xs : List α} {a : Nat} (s : State) (h : ∀ x ∈ xs, ∀ u, ∀ k ∈ cells u x, k.1 ≠ a) :
    memRead (writeCells cells xs s).mem a = memRead s.mem a := by
  unfold writeCells
  induction xs generalizing s with
  | nil => rfl
  | cons x xs ih =>
    rw [List.foldl_cons, ih _ fun y hy => h y (List.mem_cons_of_mem _ hy), State.wrCells_mem]
    exact memRead_memWriteCells_other _ _ _ (h x List.mem_cons_self s)

/-- A run of lanes each of which writes cells and receives nothing. -/
theorem run_writes (op : MemOp) (cells : State → Nat × LaneAcc → List Host.Cell) (xs : List (Nat × LaneAcc)) (s : State)
    (h : ∀ x ∈ xs, ∀ u, op.perform x.1 x.2.keys u = (u.wrCells (cells u x), {})) :
    op.run xs s = (writeCells cells xs s, xs.map fun x => (x.1, {})) := by
  have hacc : ∀ (acc : List (Nat × LaneOut)), xs.foldl (fun acc x =>
        ((op.perform x.1 x.2.keys acc.1).1, acc.2 ++ [(x.1, (op.perform x.1 x.2.keys acc.1).2)])) (s, acc) =
      (writeCells cells xs s, acc ++ xs.map fun x => (x.1, ({} : LaneOut))) := by
    unfold writeCells
    induction xs generalizing s with
    | nil => simp
    | cons x xs ih =>
      intro acc
      rw [List.foldl_cons]
      simp only [h x List.mem_cons_self]
      rw [ih _ fun y hy => h y (List.mem_cons_of_mem _ hy)]
      simp
  exact hacc []
end

/-! ## The shape-record cache -/

/-- Dropping stale records changes the shape-record cache alone. -/
theorem State.dropStale_shapes (s : State) (c : Inst) (named : List (Nat × W64)) :
    ∃ shapes, s.dropStale c named = { s with mm := { s.mm with shapes := shapes } } := by
  unfold State.dropStale
  dsimp only
  split
  · exact ⟨_, rfl⟩
  · exact ⟨_, rfl⟩

/-- Using records changes the shape-record cache alone. -/
theorem State.useRecords_shapes (s : State) (c : Inst) (xs : List (W64 × RecFetch)) :
    ∃ shapes, s.useRecords c xs = { s with mm := { s.mm with shapes := shapes } } := by
  unfold State.useRecords
  induction xs generalizing s with
  | nil => exact ⟨_, rfl⟩
  | cons x xs ih =>
    rw [List.foldl_cons]
    split
    · obtain ⟨shapes, h⟩ := ih (s.useShape (s.team c.team).core (s.ctxOf c.team) x.1.toNat _ _)
      exact ⟨shapes, h⟩
    · exact ih s

/-- What a memory instruction retires to does not depend on the memory unit it started from. -/
theorem MemRetired.of_mm {s t : State} {c : Inst} {m : Mods} {act : LaneMask} {res : Nat → LaneOut} {mm : MemUnit}
    (h : MemRetired { s with mm := mm } t c m act res) : MemRetired s t c m act res :=
  ⟨h.lanes, h.others, h.group, h.groups, h.teams, h.fab, h.rest⟩

end Sys2Proof.Machine

namespace Sys2Proof.Forms

open Sys2Proof.Machine

/-! ## Ragged accesses as memory instructions -/

section
variable (s : State) (c : Inst) (act : LaneMask) (f : V3) (m : Mods) (sp : Space) (store : Bool)

/-- The run of lane `l` of a ragged access. -/
def recordRun (l : Nat) : TileRun := raggedRunOf (raggedArg (s.instGrp c) m f l) (recordOf s c act f m store l)

/-- RLD and RST as `memInst` performs them. -/
def raggedMem : MemOp where
  req := raggedOf s c act f m sp store
  pushes := if store then 0 else 2
  zero := fun _ => if store then {} else load128 f.d 0
  helper := if store then .discarded else .reads
  perform := fun l ks u =>
    if store then (u.storeRun c l (recordRun s c act f m store l) ks (data128 f.d (s.instGrp c) l), {})
    else (u, load128 f.d (u.readRun (recordRun s c act f m store l) ks))
  after := fun xs u => u.useRecords c (xs.map fun y => ((raggedArg (s.instGrp c) m f y.1).ra, recordOf s c act f m store y.1))
  release := store && sysRelease m

theorem exec_ragged {i : Instr} (h : Ragged i f m sp store) (hs : s.sched.cur = some c) :
    exec i s = memInst c m (activeOf s c f.g.toNat (guardNeg m)) (raggedMem s c (activeOf s c f.g.toNat (guardNeg m)) f m sp store)
      (freshShapes s c (activeOf s c f.g.toNat (guardNeg m)) f m store) := by
  cases h with
  | rld | rst | rldScr | rstScr => exact withInst_some _ hs

theorem freshShapes_shapes : ∃ shapes, freshShapes s c act f m store = { s with mm := { s.mm with shapes := shapes } } :=
  s.dropStale_shapes c _

theorem freshShapes_instGrp : (freshShapes s c act f m store).instGrp c = s.instGrp c := by
  obtain ⟨shapes, h0⟩ := freshShapes_shapes s c act f m store
  rw [h0]
  rfl

/-- Every lane of Active() takes part in RLD; helper lanes take no part in RST (spec 11 R241). -/
theorem raggedMem_lanes (G : Group) :
    (raggedMem s c act f m sp store).lanes G act = if store then performing G act else maskLanes act := by
  cases store
  · exact filter_true _ _ fun l _ => by simp [raggedMem]
  · exact congrArg (fun p => (maskLanes act).filter p) (funext fun l => by simp [raggedMem])

theorem raggedMem_ready
    (hsees : ∀ l ∈ if store then performing (s.instGrp c) act else maskLanes act,
      (freshShapes s c act f m store).Sees c l (raggedOf s c act f m sp store l))
    (hrel : store = true → sysRelease m = true → s.teamPending c.team = false) :
    (raggedMem s c act f m sp store).Ready (freshShapes s c act f m store) c act where
  sees := by
    rw [freshShapes_instGrp, raggedMem_lanes]
    exact hsees
  kept := fun h => nomatch h
  late := fun _ => rfl
  odd := fun h => nomatch h
  holds := fun _ _ => rfl
  wait := rfl
  rel := by
    obtain ⟨shapes, h0⟩ := freshShapes_shapes s c act f m store
    rw [h0]
    cases hr : store && sysRelease m
    · exact .inl hr
    · rw [Bool.and_eq_true] at hr
      exact .inr (hrel hr.1 hr.2)

/-- The lanes of a ragged access with the keys of their runs. -/
def raggedFound : List (Nat × LaneAcc) :=
  (if store then performing (s.instGrp c) act else maskLanes act).map fun l =>
    (l, (freshShapes s c act f m store).checkLane c l (raggedOf s c act f m sp store l))

theorem raggedMem_found :
    (raggedMem s c act f m sp store).found (freshShapes s c act f m store) c act = raggedFound s c act f m sp store := by
  unfold MemOp.found raggedFound
  rw [freshShapes_instGrp, raggedMem_lanes]
  rfl

/-- The state in which the lanes are performed: their translations are noted. -/
def raggedStart : State := (freshShapes s c act f m store).noteLeaves c (raggedFound s c act f m sp store)

theorem raggedStart_eq : ∃ tlb shapes, raggedStart s c act f m sp store =
    ({ s with mm := { s.mm with tlb := tlb, shapes := shapes } } : State).modGroup c.team c.group fun G =>
      G.mapLanes (noteLane (raggedFound s c act f m sp store)) := by
  obtain ⟨shapes, h0⟩ := freshShapes_shapes s c act f m store
  obtain ⟨tlb, h1⟩ := noteLeaves_eq (freshShapes s c act f m store) c (raggedFound s c act f m sp store)
  exact ⟨tlb, shapes, by rw [raggedStart, h1, h0]⟩

theorem raggedStart_mem : (raggedStart s c act f m sp store).mem = s.mem := by
  obtain ⟨tlb, shapes, h⟩ := raggedStart_eq s c act f m sp store
  rw [h, State.modGroup_mem]

theorem raggedStart_poison : (raggedStart s c act f m sp store).poison = s.poison := by
  obtain ⟨tlb, shapes, h⟩ := raggedStart_eq s c act f m sp store
  rw [h, State.modGroup_poison]

/-- The lanes of RLD leave the state they read. -/
theorem raggedMem_run_load (xs : List (Nat × LaneAcc)) (u : State) :
    (raggedMem s c act f m sp false).run xs u =
      (u, xs.map fun x => (x.1, load128 f.d (u.readRun (recordRun s c act f m false x.1) x.2.keys))) :=
  run_same _ xs u _ fun _ _ => rfl

/-- The lanes of RST, whose bytes are here, write their runs in order. -/
theorem raggedMem_run_store (u : State)
    (hsees : ∀ l ∈ performing (s.instGrp c) act, (freshShapes s c act f m true).Sees c l (raggedOf s c act f m sp true l)) :
    (raggedMem s c act f m sp true).run (raggedFound s c act f m sp true) u =
      (writeCells (fun u l => runCellsAt u (freshShapes s c act f m true) c l (raggedOf s c act f m sp true l)
          (recordRun s c act f m true l) (data128 f.d (s.instGrp c) l)) (performing (s.instGrp c) act) u,
        (performing (s.instGrp c) act).map fun l => (l, {})) := by
  rw [run_writes _ fun u x => (x.2.keys.map (·.1)).zip (spreadRun (recordRun s c act f m true x.1).bits
    (recordRun s c act f m true x.1).es (recordRun s c act f m true x.1).offs
    ((x.2.keys.map (·.1)).map (memRead u.mem)) (data128 f.d (s.instGrp c) x.1))]
  · unfold writeCells raggedFound
    rw [List.foldl_map, List.map_map]
    rfl
  · intro x hx u
    obtain ⟨l, hl, rfl⟩ := List.mem_map.1 hx
    have hhere : ∀ k ∈ ((freshShapes s c act f m true).checkLane c l (raggedOf s c act f m sp true l)).keys,
        peerKey k.1 = false :=
      fun k hk => ((hsees l hl).here k (List.mem_append_left _ (List.mem_append_right _ hk))).1
    exact Prod.ext (u.storeRun_here c l _ _ _ hhere) rfl

theorem raggedMem_after (xs : List (Nat × List (Nat × Bool))) (u : State) : ∃ shapes,
    (raggedMem s c act f m sp store).after xs u = { u with mm := { u.mm with shapes := shapes } } :=
  u.useRecords_shapes c _

variable {s c act f m sp store}

/-- What performing the lanes of a ragged access leaves as it was. -/
theorem raggedMem_run_parts
    (hsees : ∀ l ∈ if store then performing (s.instGrp c) act else maskLanes act,
      (freshShapes s c act f m store).Sees c l (raggedOf s c act f m sp store l)) (u : State) :
    ∃ mem poison bad, ((raggedMem s c act f m sp store).run (raggedFound s c act f m sp store) u).1 =
      { u with mem := mem, poison := poison, badBytes := bad } := by
  cases store with
  | false => exact ⟨u.mem, u.poison, u.badBytes, by rw [raggedMem_run_load]⟩
  | true =>
    rw [raggedMem_run_store s c act f m sp u hsees]
    exact writeCells_parts _ _ u

/-- A ragged access that finds everything here retires: memory and the marks of poison are those its lanes leave, and beyond them
only translations and the shape-record cache change. -/
theorem raggedMem_retires (hs : s.Issues c m) (hp : s.Placed c) (hact : ∀ l, act.getLsbD l = true → c.mask.getLsbD l = true)
    (hsees : ∀ l ∈ if store then performing (s.instGrp c) act else maskLanes act,
      (freshShapes s c act f m store).Sees c l (raggedOf s c act f m sp store l))
    (hrel : store = true → sysRelease m = true → s.teamPending c.team = false) :
    let op := raggedMem s c act f m sp store
    let run := op.run (raggedFound s c act f m sp store) (raggedStart s c act f m sp store)
    ∃ t, memInst c m act op (freshShapes s c act f m store) = .next t ∧
      MemRetired s t c m act (fun l => if act.getLsbD l then op.given run.2 l else zeroPushes op.pushes) ∧
      t.eng = s.eng ∧ (∃ tlb shapes, t.mm = { s.mm with tlb := tlb, shapes := shapes }) ∧
      t.mem = run.1.mem ∧ t.poison = run.1.poison := by
  intro op run
  obtain ⟨mem, poison, bad, hrun⟩ := raggedMem_run_parts hsees (raggedStart s c act f m sp store)
  have hready := raggedMem_ready s c act f m sp store hsees hrel
  have hfound := raggedMem_found s c act f m sp store
  obtain ⟨shapes, h0⟩ := freshShapes_shapes s c act f m store
  obtain ⟨tlb, _, hstart⟩ := raggedStart_eq s c act f m sp store
  obtain ⟨shapes', hafter⟩ := raggedMem_after s c act f m sp store
    ((raggedFound s c act f m sp store).map fun x => (x.1, x.2.keys)) run.1
  have hrest : SameRest (raggedStart s c act f m sp store)
      (op.after ((raggedFound s c act f m sp store).map fun x => (x.1, x.2.keys)) run.1) := by
    rw [hafter, hrun]
    exact ⟨rfl, rfl, rfl, rfl, rfl, rfl, rfl⟩
  obtain ⟨t, ht, hret, hmem, hpoison, heng, hmm⟩ := memInst_retires c m act op (freshShapes s c act f m store)
    (op.after ((raggedFound s c act f m sp store).map fun x => (x.1, x.2.keys)) run.1) run.2 hready
    (by rw [h0]; exact hp) (by rw [h0]; exact hs.2) hact (by rw [hfound]; rfl) (by rw [hfound]; rfl) (by rw [hfound]; exact hrest)
  rw [hafter] at hmem hpoison heng hmm
  refine ⟨t, ht, ?_, ?_, ⟨tlb, shapes', ?_⟩, hmem, hpoison⟩
  · rw [h0] at hret
    exact hret.of_mm
  · rw [heng, hrun, hstart, State.modGroup_eng]
  · rw [hmm, hrun, hstart, State.modGroup_mm]

end

end Sys2Proof.Forms

open Sys2Proof Sys2Proof.Machine Sys2Proof.Forms

/-- Settles O29: RLD leaves the state its lanes read, RST writes its lanes' runs in order. -/
theorem raggedResults : Obligations.RaggedResults := by
  intro i f m sp store hi s c hs hp G act s0 req run parts hsees _ hrel
  have hact : ∀ l, act.getLsbD l = true → c.mask.getLsbD l = true := fun _ h => activeOf_sub h
  obtain ⟨t, ht, hret, heng, hmm, hmem, hpoison⟩ := raggedMem_retires hs hp hact hsees hrel
  refine ⟨t, (exec_ragged s c f m sp store hi hs.1).trans ht, ?_⟩
  cases store with
  | false =>
    rw [raggedMem_run_load] at hret hmem hpoison
    have hsame : t.mem = s.mem := hmem.trans (raggedStart_mem s c act f m sp false)
    refine ⟨hret.congr (fun l _ => ?_) hact, heng, hmm,
      fun _ => ⟨hsame, hpoison.trans (raggedStart_poison s c act f m sp false)⟩, fun h => (nomatch h), fun a _ => by rw [hsame]⟩
    rw [if_neg Bool.false_ne_true]
    split
    · rename_i ha
      rw [raggedFound, if_neg Bool.false_ne_true, List.map_map]
      refine (given_map _ _ (fun l => load128 f.d ((raggedStart s c act f m sp false).readRun (recordRun s c act f m false l)
        (s0.checkLane c l (req l)).keys)) l).trans ?_
      rw [if_pos ((mem_maskLanes act l).2 ha), State.readRun_keys, raggedStart_mem]
      rfl
    · rfl
  | true =>
    rw [raggedMem_run_store s c act f m sp _ hsees] at hret hmem
    have hwritten : t.mem = (writeCells (fun u l => runCellsAt u s0 c l (req l) (run l) (data128 f.d G l)) (performing G act) s).mem :=
      hmem.trans (writeCells_mem _ (fun u v l huv => by unfold runCellsAt; rw [huv]) (raggedStart_mem s c act f m sp true))
    refine ⟨hret.congr (fun l _ => ?_) hact, heng, hmm, fun h => (nomatch h), fun _ => hwritten, fun a ha => ?_⟩
    · have hzero : zeroPushes (raggedMem s c act f m sp true).pushes = {} := rfl
      rw [if_pos rfl, given_map, hzero, ite_self, ite_self]
    · rw [hwritten]
      refine memRead_writeCells_other _ _ fun l hl u k hk hka => ha rfl l hl ?_
      rw [← hka]
      exact (List.of_mem_zip hk).1
end

section
/-! PROOFS of the conversions and block formats (spec 09 R184-R188), and of the flags that trap (spec 02 R52): every row of the
tables of value-producing instructions is one `valueInst` of its form. -/

namespace Sys2Proof.Machine

open Sys2Proof.Forms

/-! ## The flags that trap -/

/-- A lane of Active(), other than a helper lane, that raises a flag whose enable is set (spec 02 R52, 07 R143). -/
def Raises (G : Group) (act : LaneMask) (res : Nat → LaneOut) (k : Nat) : Prop :=
  act.getLsbD k = true ∧ (G.lane k).helper = false ∧ (res k).flags &&& G.enables ≠ 0

theorem raises_iff {G : Group} {act : LaneMask} {res : Nat → LaneOut} {k : Nat} :
    (act.getLsbD k && !(G.lane k).helper && (res k).flags &&& G.enables != 0) = true ↔ Raises G act res k := by
  simp [Raises, and_assoc]

/-- When a lane raises an enabled flag, `valueInst` traps in exactly the lanes that do, and the lowest of them is reported. -/
theorem valueInst_traps {c : Inst} {m : Mods} {g : BitVec 3} {n : Nat} {res : Group → Nat → LaneOut} {s : State} {l : Nat} :
    let G := s.instGrp c
    let act := activeOf s c g.toNat (guardNeg m)
    let out := res G
    l < 32 → Raises G act out l → (∀ k, k < l → ¬ Raises G act out k) →
    TrapsIn (valueInst c m g n res s) s c m
      (fun mask => trapOf 5 l 0 ((out l).flags.toNat * 256 + (raisedFlags G act out).toNat) 0 0 mask) (Raises G act out) := by
  intro G act out hl hraise hlow
  unfold valueInst
  dsimp only
  split
  · rename_i k ls hk
    obtain ⟨rfl, hexact⟩ := lowest_of_maskLanes_laneMask hk (fun _ _ => raises_iff) hl hraise hlow
    exact ⟨_, hexact, rfl⟩
  · rename_i hnil
    have hquiet := (maskLanes_laneMask_nil _).1 hnil l hl
    rw [raises_iff.2 hraise] at hquiet
    cases hquiet

end Sys2Proof.Machine

namespace Sys2Proof.Forms

open Sys2Proof.Machine

/-! ## The rows of the tables -/

/-- Instruction `i` is `valueInst` of its form: the check of the flags that trap, then the results. -/
def Performs (i : Instr) (v : ValueForm) : Prop :=
  ∀ s c, s.sched.cur = some c →
    exec i s = valueInst c v.m v.g 1 (v.out s c (activeOf s c v.g.toNat (guardNeg v.m))) s

theorem performs_of_withInst {i : Instr} {v : ValueForm}
    (h : ∀ s, exec i s = withInst s fun c =>
      valueInst c v.m v.g 1 (v.out s c (activeOf s c v.g.toNat (guardNeg v.m))) s) : Performs i v :=
  fun s _ hcur => (h s).trans (withInst_some _ hcur)

theorem Integer.performs {i : Instr} {v : ValueForm} (h : Integer i v) : Performs i v := by
  cases h <;> exact performs_of_withInst fun _ => rfl

theorem Move.performs {i : Instr} {v : ValueForm} (h : Move i v) : Performs i v := by
  cases h <;> exact performs_of_withInst fun _ => rfl

theorem Float.performs {i : Instr} {v : ValueForm} (h : Float i v) : Performs i v := by
  cases h <;> exact performs_of_withInst fun _ => rfl

theorem Convert.performs {i : Instr} {v : ValueForm} (h : Convert i v) : Performs i v := by
  cases h <;> exact performs_of_withInst fun _ => rfl

theorem Exchange.performs {i : Instr} {v : ValueForm} (h : Exchange i v) : Performs i v := by
  cases h <;> exact performs_of_withInst fun _ => rfl

/-! ## Retirement -/

theorem Performs.retires {i : Instr} {v : ValueForm} (h : Performs i v) : Retires i v := by
  intro s c hs G act res hpass
  obtain ⟨hcur, hin⟩ := hs
  exact (h s c hcur).trans (valueInst_next c v.m v.g 1 _ s hin hpass)

end Sys2Proof.Forms

open Sys2Proof Sys2Proof.Machine Sys2Proof.Forms

/-- Settles O14: each row of the table performs its form. -/
theorem convertResults : Obligations.ConvertResults :=
  fun _ _ h => h.performs.retires

/-- Settles O16: each row of the tables performs its form, which traps in the lanes that raise an enabled flag. -/
theorem flagTraps : Obligations.FlagTraps := by
  intro i v h s c l hcur G act res raises hl hraise hlow
  have hperforms : Performs i v := by
    rcases h with h | h | h | h | h <;> exact h.performs
  rw [hperforms s c hcur]
  exact valueInst_traps hl hraise hlow
end

section
/-! PROOFS of the system instructions (spec 08 R166, R167, 09 R194, 20 R408-R410). -/

namespace Sys2Proof.Machine

open Sys2Proof.Forms

/-! ## Going on at a next word inside the code -/

section
variable {s : State} {c : Inst} {m : Mods} (hs : s.Issues c m)
include hs

/-- Every lane at issue goes on at the next word, from the state that holds the instruction's effects. -/
theorem finishSeq_goesOn (s1 : State) :
    finishSeq c m 0 s s1 = .next (s1.modGroup c.team c.group fun G => G.goesOn c (toNext c m)) := by
  have hnext : (fun l => if (0 : LaneMask).getLsbD l then none else some (afterUnit c.pc m)) = toNext c m :=
    funext fun l => by simp [toNext]
  rw [finishSeq_next c m 0 s s1 hs.2, hnext]

/-- The instruction's effects are one update of the group. -/
theorem finishSeq_modGroup (s1 : State) (k : Group → Group) :
    finishSeq c m 0 s (s1.modGroup c.team c.group k) =
      .next (s1.modGroup c.team c.group fun G => (k G).goesOn c (toNext c m)) := by
  rw [finishSeq_goesOn hs, State.modGroup_modGroup]

/-- A value-producing instruction none of whose results carries a flag retires. -/
theorem valueOp_next {g : BitVec 3} {res : Group → Nat → LaneOut} (hflags : ∀ l, (res (s.instGrp c) l).flags = 0) :
    valueOp m g res s = .next (s.modGroup c.team c.group fun G =>
      G.retires c m (activeOf s c g.toNat (guardNeg m)) 1 (res (s.instGrp c))) := by
  refine (withInst_some _ hs.1).trans (valueInst_next c m g 1 res s hs.2 fun l _ _ _ => ?_)
  rw [hflags]
  exact BitVec.zero_and

end

/-! ## Results without flags -/

@[simp] theorem wordOut_flags (wide : Bool) (d : BitVec 6) (v : W64) : (wordOut wide d v).flags = 0 := by
  cases wide <;> rfl

theorem raisedFlags_eq_zero {G : Group} {act : LaneMask} {res : Nat → LaneOut} (h : ∀ l, (res l).flags = 0) :
    raisedFlags G act res = 0 :=
  foldl_fixed _ _ _ fun l _ => by simp [h]

@[simp] theorem Group.orFlags_zero (G : Group) : G.orFlags 0 = G := by
  simp [Group.orFlags]

theorem State.commitLanes_quiet {s : State} {c : Inst} {act : LaneMask} {n : Nat} {res : Nat → LaneOut}
    (h : ∀ l, (res l).flags = 0) :
    s.commitLanes c act 0 n res = s.modGroup c.team c.group fun G => G.mapLanes fun l L =>
      if c.mask.getLsbD l then L.take (if act.getLsbD l then res l else zeroPushes n) else L := by
  have hstay : ∀ l, (!(0 : LaneMask).getLsbD l) = true := fun l => by simp
  simp only [State.commitLanes, raisedFlags_eq_zero h, Group.orFlags_zero, hstay, Bool.and_true]

theorem Group.retires_quiet {G : Group} {c : Inst} {m : Mods} {act : LaneMask} {n : Nat} {res : Nat → LaneOut}
    (h : ∀ l, (res l).flags = 0) :
    G.retires c m act n res = G.mapLanes fun l L =>
      if c.mask.getLsbD l then (L.take (if act.getLsbD l then res l else zeroPushes n)).goesTo (afterUnit c.pc m) else L := by
  rw [Group.retires, raisedFlags_eq_zero h, Group.orFlags_zero]

/-- The lanes at issue change and go on at the next word. -/
theorem Group.mapLanes_goesOn (G : Group) (c : Inst) (m : Mods) (k : Nat → Lane → Lane) :
    (G.mapLanes fun l L => if c.mask.getLsbD l then k l L else L).goesOn c (toNext c m) =
      G.mapLanes fun l L => if c.mask.getLsbD l then (k l L).goesTo (afterUnit c.pc m) else L := by
  rw [Group.goesOn, Group.mapLanes_mapLanes]
  congr 1
  funext l L
  cases hm : c.mask.getLsbD l <;> simp [toNext]

theorem Group.goesOn_flags (G : Group) (c : Inst) (next : Nat → Option W32) (w : W32) :
    ({ G with flags := w } : Group).goesOn c next = { G.goesOn c next with flags := w } := rfl

/-- An update that a group gets only as it stands. -/
theorem State.modGroup_ite (s : State) (t g : Nat) (b : Group → Bool) (k : Group → Group) :
    (if b (s.grp t g) then s.modGroup t g k else s) = s.modGroup t g fun G => if b G then k G else G := by
  split
  · rename_i h
    exact s.modGroup_congr t g (if_pos h).symm
  · rename_i h
    exact (s.modGroup_id t g).symm.trans (s.modGroup_congr t g (if_neg h).symm)

section
variable {s : State} {c : Inst} {m : Mods} (f : FY) (hs : s.Issues c m)
include hs

/-! ## FLAGCLR -/

theorem exec_flagclr (v : V3) :
    exec (.flagclr v m) s = .next (s.modGroup c.team c.group fun G =>
      { G.retires c m (activeOf s c v.g.toNat (guardNeg m)) 1 (fun _ => out32 v.d G.flags) with
        flags := G.flags &&& ~~~(((maskLanes (activeOf s c v.g.toNat (guardNeg m))).foldl
          (fun x l => x ||| (src32 (s.instGrp c) m l v.a).extractLsb' 0 5) (0 : FlagBits)).zeroExtend 32) }) := by
  refine (withInst_some _ hs.1).trans ?_
  dsimp only
  rw [State.commitLanes_quiet fun _ => rfl, State.modGroup_modGroup, finishSeq_modGroup hs]
  refine congrArg Host.Outcome.next (State.modGroup_congr _ _ _ ?_)
  rw [Group.goesOn_flags, Group.mapLanes_goesOn, Group.retires_quiet fun _ => rfl]
  rfl

/-! ## SYSRD and SREAD -/

theorem exec_sysrd :
    exec (.sysrd f m) s = .next (s.modGroup c.team c.group fun G => G.retires c m (activeOf s c 0 (guardNeg m)) 1
      fun l => wordOut (sysWide f.n.toNat) f.d (s.sysReg c (s.instGrp c) l f.n.toNat)) :=
  (withInst_some _ hs.1).trans (valueOp_next hs fun _ => wordOut_flags _ _ _)

theorem exec_sread_value (htime : f.n ≠ 24) (hcycles : f.n ≠ 25) :
    exec (.sread f m) s = .next (s.modGroup c.team c.group fun G => G.retires c m (activeOf s c 0 (guardNeg m)) 1
      fun l => wordOut (sreadWide f.n.toNat) f.d (s.sreadValue c (s.instGrp c) l f.n.toNat)) := by
  refine (withInst_some _ hs.1).trans ?_
  have htime : f.n.toNat ≠ 24 := fun h => htime (BitVec.eq_of_toNat_eq h)
  have hcycles : f.n.toNat ≠ 25 := fun h => hcycles (BitVec.eq_of_toNat_eq h)
  dsimp only
  rw [if_neg htime, if_neg hcycles]
  exact valueOp_next hs fun _ => wordOut_flags _ _ _

theorem exec_sread_time (h : f.n = 24) :
    exec (.sread f m) s = .next (s.lookTime.2.modGroup c.team c.group fun G =>
      G.retires c m (activeOf s c 0 (guardNeg m)) 1 fun _ => out64 f.d s.lookTime.1) := by
  refine (withInst_some _ hs.1).trans ?_
  dsimp only
  rw [h]
  exact valueOp_next (s := s.lookTime.2) hs fun _ => wordOut_flags _ _ _

theorem exec_sread_cycles (h : f.n = 25) :
    exec (.sread f m) s = .next ((s.lookCycles (s.team c.team).core).2.modGroup c.team c.group fun G =>
      G.retires c m (activeOf s c 0 (guardNeg m)) 1 fun _ => out64 f.d (s.lookCycles (s.team c.team).core).1) := by
  refine (withInst_some _ hs.1).trans ?_
  dsimp only
  rw [h]
  exact valueOp_next (s := (s.lookCycles (s.team c.team).core).2) hs fun _ => wordOut_flags _ _ _

/-! ## SYSWR -/

theorem exec_syswr_epc (h : f.n = 6) :
    exec (.syswr f m) s = .next (s.modGroup c.team c.group fun G =>
      (if G.inh then G.mapLanes fun l L =>
        if c.mask.getLsbD l then { L with epc := src32 (s.instGrp c) m l f.a } else L
      else G).goesOn c (toNext c m)) := by
  refine (withInst_some _ hs.1).trans ?_
  dsimp only
  rw [h]
  refine (congrArg (finishSeq c m 0 s) (State.modGroup_ite s c.team c.group (·.inh) _)).trans ?_
  rw [finishSeq_modGroup hs]
  exact congrArg Host.Outcome.next (State.modGroup_congr _ _ _ rfl)

theorem exec_syswr_trapCtl {e : Nat} (hlead : electLane (s.instGrp c) c.mask = some e) (h : f.n = 11) :
    exec (.syswr f m) s = .next (s.modGroup c.team c.group fun G =>
      ({ G with trapCtl := src32 (s.instGrp c) m e f.a &&& 3 } : Group).goesOn c (toNext c m)) := by
  refine (withInst_some _ hs.1).trans ?_
  dsimp only
  rw [h, hlead]
  exact finishSeq_modGroup hs _ _

theorem exec_syswr_tapeDesc {e : Nat} (hlead : electLane (s.instGrp c) c.mask = some e) (h : f.n = 12) :
    exec (.syswr f m) s = .next ((s.modTeam c.team fun T =>
      { T with tapeDesc := BitVec.ofNat 64 ((src (s.instGrp c) m e f.a .b64).toNat % 2 ^ 57) }).modGroup c.team c.group fun G =>
        G.goesOn c (toNext c m)) := by
  refine (withInst_some _ hs.1).trans ?_
  dsimp only
  rw [h, hlead]
  exact finishSeq_goesOn hs _

theorem exec_syswr_ignored (h : f.n ≠ 6)
    (hlead : electLane (s.instGrp c) c.mask = none ∨ f.n ≠ 11 ∧ f.n ≠ 12) :
    exec (.syswr f m) s = .next (s.modGroup c.team c.group fun G => G.goesOn c (toNext c m)) := by
  refine (withInst_some _ hs.1).trans ((finishSeq_goesOn hs _).trans ?_)
  split
  · rename_i hn
    exact absurd (BitVec.eq_of_toNat_eq hn) h
  · rename_i hn hsome
    exact absurd (BitVec.eq_of_toNat_eq hn) (hlead.resolve_left (by simp [hsome])).1
  · rename_i hn hsome
    exact absurd (BitVec.eq_of_toNat_eq hn) (hlead.resolve_left (by simp [hsome])).2
  · rfl

/-! ## YIELD, TRAP and BKPT -/

theorem exec_yield :
    exec (.yield f m) s = .next ((s.lookCycles (s.team c.team).core).2.modGroup c.team c.group fun G =>
      (G.mapLanes fun l L => if c.mask.getLsbD l then
        { L with status := .yielding ((s.lookCycles (s.team c.team).core).1.toNat + 16 * f.n.toNat) } else L).goesOn c
        (toNext c m)) :=
  (withInst_some _ hs.1).trans (finishSeq_modGroup hs _ _)

/-- The lanes go on, and the group takes the trap at the instruction. -/
theorem retireAndTrap_traps (cause : Nat) {e : Nat} (hlead : electLane (s.instGrp c) c.mask = some e) :
    retireAndTrap cause f m s = .next ((s.modGroup c.team c.group fun G => G.mapLanes fun l L =>
        if c.mask.getLsbD l then { L with pc := afterUnit c.pc m, stall := none } else L).instTrap c m
      (trapAddr cause e 0 f.n.toNat (src (s.instGrp c) m e f.a .b64) c.mask)) := by
  refine (withInst_some _ hs.1).trans ?_
  dsimp only
  rw [hlead]
  exact if_neg (by simpa using hs.2)

/-- Helper lanes alone take no trap. -/
theorem retireAndTrap_goesOn (cause : Nat) (hlead : electLane (s.instGrp c) c.mask = none) :
    retireAndTrap cause f m s = .next (s.modGroup c.team c.group fun G => G.goesOn c (toNext c m)) := by
  refine (withInst_some _ hs.1).trans ?_
  dsimp only
  rw [hlead]
  exact finishSeq_goesOn hs s

theorem exec_bkpt_ignored (h : (s.instGrp c).trapCtl.getLsbD 1 = true) :
    exec (.bkpt f m) s = .next (s.modGroup c.team c.group fun G => G.goesOn c (toNext c m)) :=
  (withInst_some _ hs.1).trans ((if_pos h).trans (finishSeq_goesOn hs s))

theorem exec_bkpt (h : (s.instGrp c).trapCtl.getLsbD 1 = false) : exec (.bkpt f m) s = retireAndTrap 19 f m s :=
  (withInst_some _ hs.1).trans (if_neg (by rw [h]; exact Bool.false_ne_true))

theorem exec_bkpt_goesOn (hlead : electLane (s.instGrp c) c.mask = none) :
    exec (.bkpt f m) s = .next (s.modGroup c.team c.group fun G => G.goesOn c (toNext c m)) := by
  cases h : (s.instGrp c).trapCtl.getLsbD 1 with
  | true => exact exec_bkpt_ignored f hs h
  | false => exact (exec_bkpt f hs h).trans (retireAndTrap_goesOn f hs 19 hlead)

end

end Sys2Proof.Machine

open Sys2Proof Sys2Proof.Machine Sys2Proof.Forms

/-- Settles O23: each system instruction's outcome, one after the other. -/
theorem systemInstructions : Obligations.SystemInstructions := by
  intro v f m s c hs G act all lead M onward trap
  exact ⟨exec_flagclr hs v, exec_sysrd f hs, exec_sread_value f hs, exec_sread_time f hs, exec_sread_cycles f hs,
    exec_syswr_epc f hs, fun _ => exec_syswr_trapCtl f hs, fun _ => exec_syswr_tapeDesc f hs,
    fun hepc hctl htape => exec_syswr_ignored f hs hepc (.inr ⟨hctl, htape⟩), exec_yield f hs,
    fun _ => retireAndTrap_traps f hs 18,
    fun hlead => ⟨retireAndTrap_goesOn f hs 18 hlead, exec_bkpt_goesOn f hs hlead,
      fun hepc => exec_syswr_ignored f hs hepc (.inl hlead)⟩,
    exec_bkpt_ignored f hs, fun _ hlead h => (exec_bkpt f hs h).trans (retireAndTrap_traps f hs 19 hlead)⟩
end

section
/-! PROOFS of MMA (spec 14 R283, R284, R288-R290): its issuing lane, its parameter block, and what its tile takes. -/

namespace Sys2Proof.Machine

open Sys2Proof.Forms

/-! ## What the submitting forms share -/

/-- A tile without an undelivered failure lets a form go on. -/
theorem deliverOr_of_no_fails {s : State} {c : Inst} {m : Mods} {e i : Nat} {k : Res} (h : (s.tile c.team i).fails = []) :
    deliverOr c m e i s k = k := by
  unfold deliverOr
  rw [h]

/-- An engine that holds fewer than eight operations accepts one. -/
theorem acceptOp_accepted {s : State} {c : Inst} {m : Mods} {i : Nat} {o : TileOp} {first : State → State}
    (hs : s.Issues c m) (hload : s.engineLoad c.team i < 8) :
    acceptOp c m i o first s = .next (accepted (first s) c m i o) := by
  unfold acceptOp
  rw [if_neg (by simpa using hload)]
  exact finishSeq_goesOn hs _

/-- A block that the issuing lane can read is handed on. -/
theorem withBlock_of_hasBlock {s : State} {c : Inst} {m : Mods} {act : LaneMask} {e n : Nat} {off : W32} {k : List Byte → Res}
    (h : HasBlock s c e off n) : withBlock c m act e off n s k = k (blockAt s c off n) := by
  obtain ⟨hconds, hlines⟩ := h
  unfold withBlock
  dsimp only
  rw [LaneAcc.first_none _ hconds, hlines]
  rfl

/-- What a lane reads first, with the version word it reads again, is reached at once when it is here. -/
theorem reachPre_of_here {s : State} {c : Inst} {l : Nat} {more : Bool} {a : LaneAcc}
    (h : ∀ k ∈ a.pre ++ a.look, s.isPeerKey k.1 = false ∧ s.dirBlocks (k.1 / 128) true = false) :
    s.reachPre c l more a = (s, true) := by
  unfold State.reachPre
  dsimp only
  rw [reachAll_here s _ _ _ _ fun k hk => h k (List.mem_append_left _ hk), if_pos rfl]
  split
  · exact reachAll_here s _ _ _ _ fun k hk => h k (List.mem_append_right _ hk)
  · rfl

/-- A shape record that the issuing lane has fetched is handed on; only the record cache and the lane's answers change. -/
theorem withShape_fetched {s : State} {c : Inst} {e : Nat} {ra : W64} {r : Shape} {v : W32} {shape : List Byte} (m : Mods)
    (act : LaneMask) :
    let s0 := s.dropStale c [(e, ra)]
    let rf := s0.recordFor c e ra 0
    let x := s0.checkLane c e { pre := rf.pre, look := rf.look, own := rf.own, rep := ra }
    rf.got = some (r, v, shape) → x.conds = [] → x.pages = [] → x.busy = [] →
    (∀ k ∈ x.pre ++ x.look, s.isPeerKey k.1 = false ∧ s.dirBlocks (k.1 / 128) true = false) →
    ∃ u shapes, u = ({ s with mm := { s.mm with shapes := shapes } } : State).clearAnswers c.owns ∧
      ∀ k, withShape c m act e ra s k = k shape u := by
  intro s0 rf x hgot hconds hpages hbusy hhere
  obtain ⟨shapes0, h0⟩ := s.dropStale_shapes c [(e, ra)]
  have hhere0 : ∀ k ∈ x.pre ++ x.look, s0.isPeerKey k.1 = false ∧ s0.dirBlocks (k.1 / 128) true = false := by
    have hdir : ∀ l, s0.dirBlocks l true = s.dirBlocks l true := fun l => by
      show (s.dropStale c [(e, ra)]).dirBlocks l true = _
      rw [h0]
      rfl
    exact fun k hk => ⟨(hhere k hk).1, (hdir _).trans (hhere k hk).2⟩
  obtain ⟨shapes, hused⟩ := s0.useRecords_shapes c [(ra, rf)]
  refine ⟨(s0.useRecords c [(ra, rf)]).clearAnswers c.owns, shapes, ?_, fun k => ?_⟩
  · rw [hused, show s0 = _ from h0]
  · unfold withShape
    dsimp only
    change (if !x.busy.isEmpty then _ else match x.first with | some q => _ | none => _) = _
    rw [hbusy, LaneAcc.first_none x hconds, hpages, reachPre_of_here hhere0, hgot]
    rfl

/-! ## The issuing lane -/

section
variable {s : State} {c : Inst} {m : Mods} {f : V4} {act : LaneMask} {e : Nat}

theorem active_ne_zero_of_electLane {G : Group} (h : electLane G act ≠ none) : act ≠ 0 := by
  rintro rfl
  exact h rfl

theorem active_ne_zero_of_getLsbD {n : Nat} (h : act.getLsbD n = true) : act ≠ 0 := by
  rintro rfl
  simp at h

/-- The issuing lane that `.lane` names. -/
theorem mmaLane_named {G : Group} (hx : (xopOf m).getLsbD 0 = true) :
    mmaLane G m act = if act.getLsbD ((immOf m).toNat % 32) && !(G.lane ((immOf m).toNat % 32)).helper
      then some ((immOf m).toNat % 32) else none := by
  rw [mmaLane, if_pos hx]

/-- The issuing lane without `.lane`. -/
theorem mmaLane_elected {G : Group} (hx : (xopOf m).getLsbD 0 = false) : mmaLane G m act = electLane G act := by
  rw [mmaLane, if_neg (ne_true_of_eq_false hx)]

section
variable (hact : activeOf s c f.g.toNat (guardNeg m) = act)
include hact

/-- Steps 1 to 3 of Table 14-2. -/
theorem exec_mma (hcur : s.sched.cur = some c) :
    exec (.mma f m) s =
      if act = 0 then finishSeq c m 0 s s
      else if (xopOf m).getLsbD 0 = true then
        if ((s.instGrp c).lane ((immOf m).toNat % 32)).helper = true then finishSeq c m 0 s s
        else if act.getLsbD ((immOf m).toNat % 32) = true then mmaIssue c m f act ((immOf m).toNat % 32) s
        else if electLane (s.instGrp c) act = none then finishSeq c m 0 s s
        else trap14 c m ((immOf m).toNat % 32) 12 0 0 0 s
      else (electLane (s.instGrp c) act).elim (finishSeq c m 0 s s) fun e => mmaIssue c m f act e s := by
  subst hact
  refine (withInst_some _ hcur).trans ?_
  simp only [beq_iff_eq, Option.isNone_iff_eq_none, Bool.not_eq_true', ite_not, ← Bool.not_eq_true]
  cases electLane (s.instGrp c) (activeOf s c f.g.toNat (guardNeg m)) <;> rfl

/-- MMA with an issuing lane. -/
theorem exec_mma_issue (hcur : s.sched.cur = some c) (h : mmaLane (s.instGrp c) m act = some e) :
    exec (.mma f m) s = mmaIssue c m f act e s := by
  rw [exec_mma hact hcur]
  cases hx : (xopOf m).getLsbD 0 with
  | true =>
    rw [mmaLane_named hx, Option.ite_none_right_eq_some, Bool.and_eq_true, Bool.not_eq_true'] at h
    obtain ⟨⟨hin, hhelper⟩, he⟩ := h
    cases he
    rw [if_neg (active_ne_zero_of_getLsbD hin), if_pos rfl, if_neg (ne_true_of_eq_false hhelper), if_pos hin]
  | false =>
    rw [mmaLane_elected hx] at h
    rw [if_neg (active_ne_zero_of_electLane (by rw [h]; simp)), if_neg Bool.false_ne_true, h, Option.elim_some]

/-- MMA without an issuing lane only goes on, unless `.lane` names a lane outside Active(). -/
theorem exec_mma_goesOn (hs : s.Issues c m) (hnone : mmaLane (s.instGrp c) m act = none)
    (hwhy : act = 0 ∨ (xopOf m).getLsbD 0 = false ∨ electLane (s.instGrp c) act = none ∨
      act.getLsbD ((immOf m).toNat % 32) = true ∨ ((s.instGrp c).lane ((immOf m).toNat % 32)).helper = true) :
    exec (.mma f m) s = .next (s.modGroup c.team c.group fun G => G.goesOn c (toNext c m)) := by
  rw [exec_mma hact hs.1, ← finishSeq_goesOn hs s]
  split
  · rfl
  · rename_i hne
    cases hx : (xopOf m).getLsbD 0 with
    | true =>
      rw [mmaLane_named hx] at hnone
      rw [if_pos rfl]
      split
      · rfl
      · rename_i hhelper
        have hout : act.getLsbD ((immOf m).toNat % 32) ≠ true := fun hin => by simp [hin, hhelper] at hnone
        have hlead := ((hwhy.resolve_left hne).resolve_left (by simp [hx])).resolve_right (not_or.2 ⟨hout, hhelper⟩)
        rw [if_neg hout, if_pos hlead]
    | false =>
      rw [mmaLane_elected hx] at hnone
      rw [if_neg Bool.false_ne_true, hnone, Option.elim_none]

/-- `.lane` names a lane outside Active(). -/
theorem exec_mma_outside (hcur : s.sched.cur = some c) (hx : (xopOf m).getLsbD 0 = true)
    (hout : act.getLsbD ((immOf m).toNat % 32) = false) (hhelper : ((s.instGrp c).lane ((immOf m).toNat % 32)).helper = false)
    (hlead : electLane (s.instGrp c) act ≠ none) :
    exec (.mma f m) s = .next ((s.clearAnswers c.owns).instTrap c m (trapOf 14 ((immOf m).toNat % 32) 12 0 0 0 c.mask)) := by
  rw [exec_mma hact hcur, if_neg (active_ne_zero_of_electLane hlead), if_pos hx, if_neg (ne_true_of_eq_false hhelper),
    if_neg (ne_true_of_eq_false hout), if_neg hlead]
  rfl

end
end

/-! ## The parameter block -/

section
variable {s : State} {c : Inst} {m : Mods} {f : V4} {act : LaneMask} {e : Nat} {form : Bool} {pb fw : W32} {bs : List Byte}

theorem mem_performing {G : Group} {l : Nat} : l ∈ performing G act ↔ act.getLsbD l = true ∧ (G.lane l).helper = false := by
  rw [performing, List.mem_filter, mem_maskLanes, Bool.not_eq_true']

/-- No lane but helper lanes stands apart when the format words agree. -/
theorem agreeing_lanes {G : Group} (h : FormatsAgree G m act f e) :
    ((maskLanes (act &&& ~~~(laneMask fun l => act.getLsbD l && src32 G m l f.b == src32 G m e f.b))).any
      fun l => !(G.lane l).helper) = false := by
  refine any_false _ _ fun l hl => ?_
  have hl32 : l < 32 := BitVec.lt_of_getLsbD ((mem_maskLanes _ l).1 hl)
  rw [mem_maskLanes, BitVec.getLsbD_and, BitVec.getLsbD_not, getLsbD_laneMask, decide_eq_true hl32, Bool.and_eq_true] at hl
  obtain ⟨hin, hapart⟩ := hl
  cases hhelper : (G.lane l).helper with
  | true => rfl
  | false =>
    rw [hin, h l (mem_performing.2 ⟨hin, hhelper⟩), beq_self_eq_true] at hapart
    exact absurd hapart (by simp)

/-- Lanes that agree on a legal pair of formats, and a block that can be read: the block decides. -/
theorem mmaIssue_block :
    let pb := src32 (s.instGrp c) m e f.a
    let fw := src32 (s.instGrp c) m e f.b
    FormatsAgree (s.instGrp c) m act f e → formatPair fw = some form → pb.toNat % 128 = 0 →
    pb.toNat + 128 ≤ s.scratchBytes c.team → HasBlock s c e pb 128 →
    mmaIssue c m f act e s = mmaBlock c m f act e pb fw form s (blockAt s c pb 128) := by
  intro pb fw hagree hform halign hfit hblock
  unfold mmaIssue
  dsimp only
  rw [agreeing_lanes hagree, if_neg Bool.false_ne_true, show formatPair (src32 (s.instGrp c) m e f.b) = _ from hform]
  dsimp only
  rw [if_neg (by simpa using ⟨halign, hfit⟩), withBlock_of_hasBlock hblock]

/-- A block that fails a check traps with its number. -/
theorem mmaBlock_traps {r : Nat} (h : s.checkMma c.team bs fw form = some r) :
    mmaBlock c m f act e pb fw form s bs = .next ((s.clearAnswers c.owns).instTrap c m
      (trapOf 14 e r (bitsOf (fieldAt bs 4 4) 4 3 * 2 ^ 16) (if r = 5 then fw else 0) pb c.mask)) := by
  unfold mmaBlock
  dsimp only
  rw [h]
  simp only [beq_iff_eq]
  rfl

/-- The end of an MMA whose block and metadata are in order: its tile takes the operation and PSTAT is cleared (spec 14 R284). -/
def acceptMma (G : Group) (c : Inst) (m : Mods) (f : V4) (pb fw : W32) (form : Bool) (bs shape : List Byte) (u : State) : Res :=
  acceptOp c m (bitsOf (fieldAt bs 4 4) 4 3) (mmaOp G c m f pb fw form bs shape)
    (fun u => u.blockWrite c.team (pb.toNat + 0x50) [0, 0, 0, 0]) u

section
variable (hcheck : s.checkMma c.team bs fw form = none) (htile : TileTakes s c (bitsOf (fieldAt bs 4 4) 4 3))
  (hmeta : bitsOf (fieldAt bs 4 4) 1 1 = 1 →
    badMeta (s.instGrp c) m f.c act (dimM (fieldAt bs 8 4) * fieldAt bs 12 4 / 8) = none)
include hcheck htile hmeta

/-- A block in order is accepted, after its shape record has been fetched if it names one. -/
theorem mmaBlock_in_order :
    mmaBlock c m f act e pb fw form s bs =
      if bitsOf (fieldAt bs 4 4) 2 2 = 0 then acceptMma (s.instGrp c) c m f pb fw form bs [] s
      else withShape c m act e (BitVec.ofNat 64 (fieldAt bs 0x38 8)) s (acceptMma (s.instGrp c) c m f pb fw form bs) := by
  obtain ⟨_, hfails, _⟩ := htile
  have hsparse : (if bitsOf (fieldAt bs 4 4) 1 1 == 1 then
      badMeta (s.instGrp c) m f.c act (dimM (fieldAt bs 8 4) * fieldAt bs 12 4 / 8) else none) = none :=
    ite_eq_right_iff.2 fun h => hmeta (beq_iff_eq.1 h)
  unfold mmaBlock
  dsimp only
  rw [hcheck]
  dsimp only
  rw [deliverOr_of_no_fails hfails, hsparse]
  exact ite_congr (propext beq_iff_eq) (fun _ => rfl) fun _ => rfl

/-- A block without shape record. -/
theorem mmaBlock_accepted (hs : s.Issues c m) (hdense : bitsOf (fieldAt bs 4 4) 2 2 = 0) :
    mmaBlock c m f act e pb fw form s bs = .next (accepted (s.blockWrite c.team (pb.toNat + 0x50) [0, 0, 0, 0]) c m
      (bitsOf (fieldAt bs 4 4) 4 3) (mmaOp (s.instGrp c) c m f pb fw form bs [])) := by
  rw [mmaBlock_in_order hcheck htile hmeta, if_pos hdense]
  exact acceptOp_accepted hs htile.2.2

/-- A block whose shape record the issuing lane has fetched. -/
theorem mmaBlock_accepted_shape (hs : s.Issues c m) (hragged : bitsOf (fieldAt bs 4 4) 2 2 ≠ 0) :
    let ra : W64 := BitVec.ofNat 64 (fieldAt bs 0x38 8)
    let s0 := s.dropStale c [(e, ra)]
    let rf := s0.recordFor c e ra 0
    let x := s0.checkLane c e { pre := rf.pre, look := rf.look, own := rf.own, rep := ra }
    ∀ r v shape, rf.got = some (r, v, shape) → x.conds = [] → x.pages = [] → x.busy = [] →
      (∀ k ∈ x.pre ++ x.look, s.isPeerKey k.1 = false ∧ s.dirBlocks (k.1 / 128) true = false) →
      ∃ u : State, mmaBlock c m f act e pb fw form s bs =
          .next (accepted (u.blockWrite c.team (pb.toNat + 0x50) [0, 0, 0, 0]) c m (bitsOf (fieldAt bs 4 4) 4 3)
            (mmaOp (s.instGrp c) c m f pb fw form bs shape)) ∧
        u.mem = s.mem ∧ u.teams = s.teams ∧ u.eng = s.eng := by
  intro ra s0 rf x r v shape hgot hconds hpages hbusy hhere
  obtain ⟨u, shapes, hu, hshape⟩ := withShape_fetched m act hgot hconds hpages hbusy hhere
  have hissues : u.Issues c m := by rwa [hu]
  have hroom : u.engineLoad c.team (bitsOf (fieldAt bs 4 4) 4 3) < 8 := by
    rw [hu]
    exact htile.2.2
  refine ⟨u, ?_, by rw [hu]; rfl, by rw [hu]; rfl, by rw [hu]; rfl⟩
  rw [mmaBlock_in_order hcheck htile hmeta, if_neg hragged, hshape]
  exact acceptOp_accepted hissues hroom

end
end

end Sys2Proof.Machine

open Sys2Proof Sys2Proof.Machine Sys2Proof.Forms

/-- Settles O38: MMA with an issuing lane comes down to its parameter block. -/
theorem mmaAccepted : Obligations.MmaAccepted := by
  intro f m s c hs _ G act n
  refine ⟨exec_mma_goesOn rfl hs, exec_mma_outside rfl hs.1, ?_⟩
  intro e he pb fw bs tile sparse fields form hagree hform halign hfit hblock
  have hexec : exec (.mma f m) s = mmaBlock c m f act e pb fw form s bs :=
    (exec_mma_issue rfl hs.1 he).trans (mmaIssue_block hagree hform halign hfit hblock)
  rw [hexec]
  exact ⟨fun _ => mmaBlock_traps, fun hcheck htile hmeta =>
    ⟨mmaBlock_accepted hcheck htile hmeta hs, mmaBlock_accepted_shape hcheck htile hmeta hs⟩⟩
end

section
/-! PROOFS of the encoding (spec 05 R90-R96, R106, 06 R113): a legal packet that begins with the words of an instruction decodes to
it at slot 0, and such packets exist. -/

namespace Sys2Proof.Laws.WordRoundTrip

/-- Every instruction's own word is read as that instruction: one lemma per constructor, in the order of `Instr`. -/
theorem decodeWord_word (i : Instr) : Statement i :=
  Instr.rec (motive := Statement)
    qwriteWrite queueDisable segrelGo readLaunchPacket beginDispatch dispatchTeam releaseTimeReached deadlineReached
    deadlinePreemptRequest replayLaunchPacket gridComplete teamEnd fetchPacket groupSwitchIn asyncTrapDelivery syncTimeout
    yieldExpire faultRecordDeliver fqreadWrite fqbaseWrite fresolveMapped fresolveUnresolvable invcmdPage invcmdContext
    invcmdAll invalidationDone migreqGo holdExpire fabricReadShared fabricReadExclusive fabricUpgrade fabricWriteback
    fabricEvictNotice fabricInvalidate fabricRecall fabricInvalAck fabricAtomic fabricResponse fabricTimeout
    fabricRequestArrival flowPause flowResume replayEvent linkNak linkAck laneLoss linkRetrainDone keyInstall keyClearFlit
    linkTraining routedataWrite matrixOpStart matrixKgroup mloadRow drainBlock updateBlock cardItemStart cardLineWrite
    cardItemEnd rasterWalk vertexGradientContrib edgeSample vaccmdGo vacate ctxcmdGo eccCorrection poisonLine stateError
    deviceError deviceReset powerOnReset fwcmdGo fwcmdReset spdmGetMeasurements spdmChallenge spdmSecuredSession fabricBringup
    bar2Access bar0UnmappedAccess ptpMessage ptmRequest ppsEdge holdoverTimeout ppsLossTimeout timectlSrcWrite powerPredict
    powerRestoreStep thermal105 thermal115 ellostRead ppscountRead pwrcapnsRead portstatRead registerWrite contextEnd
    cardReltimeReached bulkPrefetchLine ptmResponse firmwareUpdateDone powerLoss nop hint trap eret bkpt yield sysrd syswr
    sread regn iaddS32 isubS32 imulS32 imulhS32 idivS32 iremS32 iminS32 imaxS32 iabsS32 inegS32 shlS32 shrS32 sarS32 popcS32
    clzS32 brevS32 iaddN32 isubN32 imulN32 imulhN32 idivN32 iremN32 iminN32 imaxN32 inegN32 shlN32 shrN32 popcN32 clzN32
    brevN32 iaddS64 isubS64 imulS64 imulhS64 idivS64 iremS64 iminS64 imaxS64 iabsS64 inegS64 shlS64 shrS64 sarS64 popcS64
    clzS64 brevS64 iaddN64 isubN64 imulN64 imulhN64 idivN64 iremN64 iminN64 imaxN64 inegN64 shlN64 shrN64 popcN64 clzN64
    brevN64 iaddS16X2 isubS16X2 imulS16X2 iminS16X2 imaxS16X2 iminN16X2 imaxN16X2 iabsS16X2 inegS16X2 shlB16X2 shrB16X2
    sarS16X2 icmp32 icmp64 movB32 movB64 movsB32 movsB64 mvrd leaSh0 leaSh1 leaSh2 leaSh3 bfxS32 bfxN32 bfxS64 bfxN64 imadS32
    imadN32 imadS64 imadN64 logic3B32 logic3B64 fshfLB32 fshfRB32 bfiB32 bfiB64 selB32 selB64 mvwr plogic voteAny voteAll
    voteBallot sadd ssub smul sand sor sxor sshl sshr scmp smov br brsZ brsNz call ret enrol rejoin exit jmpi faddF32 fsubF32
    fmulF32 fminF32 fmaxF32 frndF32 fclassF32 faddF64 fsubF64 fmulF64 fminF64 fmaxF64 frndF64 fclassF64 faddF16X2 fsubF16X2
    fmulF16X2 fminF16X2 fmaxF16X2 frndF16X2 faddBf16X2 fsubBf16X2 fmulBf16X2 fminBf16X2 fmaxBf16X2 frndBf16X2 ffmaF32 ffmaF64
    ffmaF16X2 ffmaBf16X2 fcmpF32 fcmpF64 fdivF32 fsqrtF32 frcpF32 frsqF32 fexp2F32 flog2F32 fsinF32 fcosF32 fdivF64 fsqrtF64
    frcpF64 frsqF64 cvt cvtsr cvtmxMxe4m3F32 cvtmxMxe5m2F32 cvtmxMxe2m1F32 cvtmxMxe4m3Bf16 cvtmxMxe5m2Bf16 cvtmxMxe2m1Bf16
    expandE4m3I4 expandE4m3E2m3 expandE4m3E3m2 expandE5m2E3m2 blkscaleMxe4m3 blkscaleMxe5m2 blkscaleMxe2m1 shflIdxB32
    shflUpB32 shflDownB32 shflXorB32 qswapHB32 qswapVB32 qswapDB32 qbcastB32 qderivXFineF32 qderivYFineF32 qderivXCoarseF32
    qderivYCoarseF32 flagrd flagclr shflIdxB64 shflUpB64 shflDownB64 shflXorB64 qswapHB64 qswapVB64 qswapDB64 qbcastB64
    qderivXFineF64 qderivYFineF64 qderivXCoarseF64 qderivYCoarseF64 gredSumF32 gredMinF32 gredMaxF32 gredSumS32 gredMinS32
    gredMaxS32 gredSumF64 gredSumS64 gredSegSumF32 gredSegMinF32 gredSegMaxF32 gredSegSumS32 gredSegMinS32 gredSegMaxS32
    gredSegSumF64 gredSegSumS64 ldN8 ldS8 ldN16 ldS16 ldB32 ldB64 ldB128 stB8 stB16 stB32 stB64 stB128 pref discard lastuse
    ldN8Scr ldS8Scr ldN16Scr ldS16Scr ldB32Scr ldB64Scr ldB128Scr stB8Scr stB16Scr stB32Scr stB64Scr stB128Scr ldN8Cscr
    ldS8Cscr ldN16Cscr ldS16Cscr ldB32Cscr ldB64Cscr ldB128Cscr stB8Cscr stB16Cscr stB32Cscr stB64Cscr stB128Cscr tld tldVer
    tst tstWhole rld rst tldScr tldVerScr tstScr tstWholeScr rldScr rstScr atomAddB32 atomMinSB32 atomMaxSB32 atomMinNB32
    atomMaxNB32 atomAndB32 atomOrB32 atomXorB32 atomExchB32 atomCasB32 atomFaddF32 atomAddB64 atomMinSB64 atomMaxSB64
    atomMinNB64 atomMaxNB64 atomAndB64 atomOrB64 atomXorB64 atomExchB64 atomCasB64 atomFaddF64 atomAddB32Scr atomMinSB32Scr
    atomMaxSB32Scr atomMinNB32Scr atomMaxNB32Scr atomAndB32Scr atomOrB32Scr atomXorB32Scr atomExchB32Scr atomCasB32Scr
    atomFaddF32Scr atomAddB64Scr atomMinSB64Scr atomMaxSB64Scr atomMinNB64Scr atomMaxNB64Scr atomAndB64Scr atomOrB64Scr
    atomXorB64Scr atomExchB64Scr atomCasB64Scr atomFaddF64Scr sldB32 sldB64 sstB32 sstB64 atomsAddB32 atomsMaxN32 atomsExchB32
    atomsAddB64 atomsMaxN64 atomsExchB64 scataddF32 bpref bprefBo shinv shinvAll mma mzero mload mdrain mupd mwait mcompress
    amaxrd amaxrdSync amaxclr fence barteam barclu boinit boarr bowait tokwait kick scatflush glaunch srammode texs texg
    texadj trace traceadj edgeq trecB32 trecB64 tpopB32 tpopB64 tmark tseal i

end Sys2Proof.Laws.WordRoundTrip

namespace Sys2Proof

/-! ## The word of an instruction -/

/-- Bit 31 of an instruction's word is its chain bit, in each of the six formats (spec 05 Table 5-1). -/
theorem chainOf_word {i : Instr} {w : W32} {m : Mods} (hw : i.word = some w) (hm : i.mods = some m) : chainOf w = m.chain := by
  cases i <;> cases hw <;> cases hm <;>
    simp only [chainOf_packV3, chainOf_packV4, chainOf_packS, chainOf_packB, chainOf_packBrs, chainOf_packY]

/-- No instruction has the major of an extension word. -/
theorem majorOf_ne_ext {i : Instr} {w : W32} {m : Mods} (h : decodeWord w m = some i) : majorOf w ≠ 63 := by
  intro hmajor
  simp [decodeWord, hmajor] at h

theorem encode_of_word {i : Instr} {w : W32} {m : Mods} (hw : i.word = some w) (hm : i.mods = some m) :
    encode i = w :: (m.lit.toList ++ (m.ext.map packExt).toList) := by
  simp [encode, hw, hm]

/-- An instruction's encoding has as many words as its unit. -/
theorem length_encode {i : Instr} {w : W32} {m : Mods} (hw : i.word = some w) (hm : i.mods = some m) :
    (encode i).length = (⟨0, w, m⟩ : PUnit).len := by
  rw [encode_of_word hw hm, PUnit.len]
  cases m.ext <;> simp [Nat.add_comm]

/-! ## The first unit of a packet (spec 05 R94) -/

/-- The slot that follows an instruction word at slot `i` and its literal. -/
def afterLit (w : W32) (i : Nat) : Nat := if hasLit w then i + 2 else i + 1

/-- Whether an extension word follows an instruction word at slot `i`. -/
def hasExt (ws : List W32) (w : W32) (i : Nat) : Bool := chainOf w && extAt ws (afterLit w i)

/-- The unit of the instruction word `w` at slot `i`, as the procedure of R94 reads it. -/
def unitAt (ws : List W32) (w : W32) (i : Nat) : PUnit :=
  ⟨i, w, ⟨chainOf w, if hasLit w then ws[i + 1]? else none,
    if hasExt ws w i then (ws[afterLit w i]?).map unpackExt else none⟩⟩

/-- Whether a unit's last word is tied to the word after it. -/
def PUnit.ties (u : PUnit) : Bool :=
  match u.mods.ext with
  | some x => x.chain
  | none => if hasLit u.word then false else chainOf u.word

/-- The slot after a unit whose literal, if it has one, is there. -/
theorem slot_after_unit {ws : List W32} {w : W32} {i : Nat} (hlit : hasLit w = true → (ws[i + 1]?).isSome = true) :
    (if hasExt ws w i then afterLit w i + 1 else afterLit w i) = i + (unitAt ws w i).len := by
  have hext : hasExt ws w i = true → (ws[afterLit w i]?).isSome = true := by
    unfold hasExt extAt
    cases ws[afterLit w i]? <;> simp
  unfold PUnit.len unitAt
  cases hl : hasLit w <;> cases he : hasExt ws w i <;> simp_all [afterLit, Nat.add_assoc]

/-- A check that refuses did not, when the procedure ends well. -/
theorem ok_of_check {α : Type} {c : Prop} [Decidable c] {r : Nat × Nat} {x : Except (Nat × Nat) α} {y : α}
    (h : (if c then .error r else x) = .ok y) : x = .ok y := by
  split at h
  · cases h
  · exact h

/-- The procedure reads the word at its slot as the unit that `unitAt` gives. -/
theorem packetUnits_head {ws : List W32} {w : W32} {fuel i nV : Nat} {tied : Bool} {used : List Pipe} {us : List PUnit}
    (hw : ws[i]? = some w) (h : packetUnits ws (fuel + 1) i tied nV used = .ok us) : us.head? = some (unitAt ws w i) := by
  unfold packetUnits at h
  simp only [hw] at h
  replace h := ok_of_check (ok_of_check (ok_of_check (ok_of_check (ok_of_check (ok_of_check h)))))
  split at h <;> cases h
  rfl

/-- A check that does not refuse lets the procedure go on. -/
theorem exists_ok_of_check {α : Type} {c : Prop} [Decidable c] {r : Nat × Nat} {x : Except (Nat × Nat) α}
    (hc : ¬ c) (hx : ∃ y, x = .ok y) : ∃ y, (if c then .error r else x) = .ok y := by
  rwa [if_neg hc]

/-- An untied unit that passes the checks, and whose last word is untied, leaves the rest of its packet to be read. -/
theorem packetUnits_untied {ws : List W32} {w : W32} {fuel i nV : Nat} {used : List Pipe}
    (hw : ws[i]? = some w) (hmajor : majorOf w ≠ 63) (hlit : hasLit w = true → chainOf w = true ∧ i < 2)
    (huntied : (unitAt ws w i).ties = false)
    (hrest : ∀ n ps, ∃ us, packetUnits ws fuel (if hasExt ws w i then afterLit w i + 1 else afterLit w i) false n ps = .ok us) :
    ∃ us, packetUnits ws (fuel + 1) i false nV used = .ok us := by
  have hplaced : ¬ (hasLit w && (!chainOf w || decide (2 < i + 1))) = true := by
    cases hl : hasLit w with
    | false => simp
    | true => simp [(hlit hl).1, Nat.not_lt.2 (hlit hl).2]
  have hcontrol : ¬ (isControl w && (unitAt ws w i).ties) = true := by simp [huntied]
  have hlast (n : Nat) : ¬ (decide (2 < n) && (unitAt ws w i).ties) = true := by simp [huntied]
  rw [← huntied] at hrest
  unfold packetUnits
  simp only [hw]
  refine exists_ok_of_check (by simpa using hmajor) (exists_ok_of_check (by cases pipeOf w == some .v <;> simp)
    (exists_ok_of_check (by simp) (exists_ok_of_check hplaced (exists_ok_of_check hcontrol
      (exists_ok_of_check (hlast _) ?_)))))
  split
  · exact ⟨_, rfl⟩
  · next r hr =>
    obtain ⟨us, hus⟩ := hrest _ _
    cases hr.symm.trans hus

/-- No word of zero is an extension word. -/
theorem extAt_zeros (n : Nat) : extAt (List.replicate n 0) 0 = false := by
  cases n <;> rfl

/-- Words of zero, which are NOPs, are read to the end of the packet. -/
theorem packetUnits_zeros {ws : List W32} {fuel i nV : Nat} {used : List Pipe}
    (hws : ∀ j, i ≤ j → ∀ w, ws[j]? = some w → w = 0) : ∃ us, packetUnits ws fuel i false nV used = .ok us := by
  induction fuel generalizing i nV used with
  | zero => exact ⟨[], rfl⟩
  | succ fuel ih =>
    cases hw : ws[i]? with
    | none => exact ⟨[], by simp [packetUnits, hw]⟩
    | some w =>
      obtain rfl := hws i (Nat.le_refl i) w hw
      have hlit : hasLit 0 = false := by decide
      have hext : hasExt ws 0 i = false := rfl
      have hunit : unitAt ws 0 i = ⟨i, 0, {}⟩ := by
        simp only [unitAt, hlit, hext]
        rfl
      refine packetUnits_untied hw (by decide) (fun h => absurd (hlit.symm.trans h) Bool.false_ne_true) ?_ fun n ps => ?_
      · rw [hunit]
        change (if hasLit 0 then false else chainOf 0) = false
        rw [hlit]
        rfl
      rw [hext, afterLit, hlit]
      exact ih fun j hj => hws j (Nat.le_of_succ_le hj)

/-! ## The slot decoder -/

/-- A legal packet whose first unit stands at slot 0 and is read as an instruction decodes to it there. -/
theorem decodeSlot_head {ws : List W32} {us : List PUnit} {u : PUnit} {i : Instr}
    (hlegal : packetUnits ws 3 0 false 0 [] = .ok us) (hhead : us.head? = some u) (hslot : u.slot = 0)
    (hword : decodeWord u.word u.mods = some i) : decodeSlot ws 0 = .instr i u := by
  obtain ⟨rest, rfl⟩ := List.head?_eq_some_iff.1 hhead
  simp [decodeSlot, hlegal, hslot, hword]

section
variable {i : Instr} {w : W32} {m : Mods} (hw : i.word = some w) (hm : i.mods = some m) (hlit : m.lit.isSome = hasLit w)
include hw hm hlit

/-- The first unit of a packet that begins with an instruction's words is that instruction's. -/
theorem unitAt_encode {rest : List W32} (hext : m.ext.isSome = true → m.chain = true)
    (hrest : m.ext = none → m.chain = true → extAt rest 0 = false) : unitAt (encode i ++ rest) w 0 = ⟨0, w, m⟩ := by
  have hchain := chainOf_word hw hm
  rw [encode_of_word hw hm]
  obtain ⟨chain, lit, ext⟩ := m
  cases lit <;> cases ext <;> simp_all [unitAt, hasExt, afterLit, extAt]

/-- The words of an instruction whose chain bits tie nothing to what follows, with NOPs after them, are a legal packet. -/
theorem packetUnits_encode (hmajor : majorOf w ≠ 63) (hchain : m.chain = (m.lit.isSome || m.ext.isSome))
    (htie : ∀ e, m.ext = some e → e.chain = false) :
    ∃ us, packetUnits (encode i ++ List.replicate (3 - (encode i).length) 0) 3 0 false 0 [] = .ok us := by
  have hwords := encode_of_word hw hm
  have hc := chainOf_word hw hm
  generalize 3 - (encode i).length = n
  have hunit := unitAt_encode hw hm hlit (by simp_all) fun _ _ => extAt_zeros n
  refine packetUnits_untied (by simp [hwords]) hmajor (fun hl => by simp_all) ?_ fun _ _ => packetUnits_zeros fun j hj v hv => ?_
  · rw [hunit]
    obtain ⟨chain, lit, ext⟩ := m
    cases lit <;> cases ext <;> simp_all [PUnit.ties]
  · have hlen : (encode i).length ≤ j := by
      rw [slot_after_unit fun hl => ?_, hunit] at hj
      · rwa [Nat.zero_add, ← length_encode hw hm] at hj
      · obtain ⟨l, hl⟩ := Option.isSome_iff_exists.1 (hlit.trans hl)
        simp [hwords, hl]
    rw [List.getElem?_append_right hlen] at hv
    exact List.eq_of_mem_replicate (List.mem_of_getElem? hv)

end

end Sys2Proof

open Sys2Proof Sys2Proof.Laws.WordRoundTrip

/-- Settles O1: the first unit that the procedure of R94 reads is the encoded one, and its word is read as the instruction. -/
theorem decodeOfEncode : Obligations.DecodeOfEncode := by
  intro i w m hw hm hlit hext
  have hword := decodeWord_word i w m hw hm
  have hfirst (rest : List W32) : (encode i ++ rest)[0]? = some w := by simp [encode_of_word hw hm]
  have hdecodes (rest : List W32) (hrest : m.ext = none → m.chain = true → extAt rest 0 = false)
      (hlegal : ∃ us, packetUnits (encode i ++ rest) 3 0 false 0 [] = .ok us) :
      decodeSlot (encode i ++ rest) 0 = .instr i ⟨0, w, m⟩ := by
    obtain ⟨us, hus⟩ := hlegal
    have hhead := packetUnits_head (hfirst rest) hus
    rw [unitAt_encode hw hm hlit hext hrest] at hhead
    exact decodeSlot_head hus hhead rfl hword
  exact ⟨hdecodes, fun hchain htie => hdecodes _ (fun _ _ => extAt_zeros _)
    (packetUnits_encode hw hm hlit (majorOf_ne_ext hword) hchain htie)⟩

/-- Settles O7: the packet procedure and the decoder run on each of the thirteen words. -/
theorem wordsOfEveryFamily : Obligations.WordsOfEveryFamily :=
  ⟨rfl, rfl, rfl, rfl, rfl, rfl, rfl, rfl, rfl, rfl, rfl, rfl, rfl⟩
end

section
/-! PROOFS of the fetch of a packet and of the step that runs the word it holds (spec 05 R90-R97, 10 R210, 07 R127). -/

namespace Sys2Proof.Machine

open Sys2Proof.Forms

/-! ## The fetch of a packet that is here -/

/-- Leaves entered into a core's translation buffer change that buffer alone. -/
theorem foldl_tlbAdd (core ctx : Nat) (fs : List Leaf) (s : State) :
    ∃ tlb, fs.foldl (fun s f => s.tlbAdd core ctx f) s = { s with mm := { s.mm with tlb := tlb } } := by
  induction fs generalizing s with
  | nil => exact ⟨s.mm.tlb, rfl⟩
  | cons f fs ih =>
    rw [List.foldl_cons, State.tlbAdd]
    split
    · exact ih s
    · exact ih _

/-- Bytes none of which another package owns have no answers that report a failure. -/
theorem fabricConds_here {s : State} {ks : List (Nat × Bool)} (h : KeysHere s ks) (who : Nat × Nat × Nat) (rep : W64) :
    s.fabricConds who rep ks = [] := by
  have haway : ks.filter (fun k => s.isPeerKey k.1) = [] := filter_false _ _ fun k hk => (h k hk).1
  simp [State.fabricConds, haway]

/-- Bytes none of which another package owns stand as they are, without answers. -/
theorem foldl_useAnswer_here {s : State} {ks : List (Nat × Bool)} (h : KeysHere s ks) (who : Nat × Nat × Nat) :
    ks.foldl (fun s k => if s.isPeerKey k.1 then s.useAnswer who false k.1 else s) s = s :=
  foldl_fixed _ _ _ fun k hk => by simp [(h k hk).1]

/-- What the checks of a packet's bytes found, when its keys could be had at once. -/
theorem checkSeg_of_packetKeys {s : State} {c : Inst} {ks : List (Nat × Bool)} (h : s.packetKeys c = some ks) :
    let va : W64 := BitVec.ofNat 64 ((s.instKernel c).codeBase + packetOf c.pc)
    let acc := s.checkSeg c.team {} va ⟨.global, va, 12, .fetch, false⟩
    acc.keys = ks ∧ acc.conds = [] ∧ acc.pages = [] ∧ acc.busy = [] := by
  simp only [State.packetKeys, Option.ite_none_right_eq_some, Bool.and_eq_true, List.isEmpty_iff, Option.some.injEq] at h
  obtain ⟨⟨⟨⟨hconds, hpages⟩, hbusy⟩, -⟩, hkeys⟩ := h
  exact ⟨hkeys, hconds, hpages, hbusy⟩

/-- Lanes none of which meets a condition do not trap. -/
theorem rowTrap_of_none (ls : List Nat) : rowTrap (ls.filterMap fun _ => none) = none := by
  rw [List.filterMap_eq_nil_iff.2 fun _ _ => rfl, rowTrap_nil]

/-- The fetch of a packet whose bytes are all here, by lanes none of which has found a page unresolvable. -/
theorem fetch_here {s : State} {c : Inst} {ks : List (Nat × Bool)} (hkeys : s.packetKeys c = some ks) (hhere : KeysHere s ks)
    (hbad : ∀ l, c.mask.getLsbD l = true → ((s.instGrp c).lane l).bad = []) :
    ∃ tlb, s.fetch c = .packet (ks.map fun k => memRead s.mem k.1)
      { s.clearAnswers (fun w => w == (c.team, c.group, 32)) with mm := { s.mm with tlb := tlb } } := by
  have hlane : ({ bad := (maskLanes c.mask).flatMap fun l => ((s.instGrp c).lane l).bad } : Lane) = {} := by
    rw [List.flatMap_eq_nil_iff.2 fun l hl => hbad l ((mem_maskLanes _ l).1 hl)]
  obtain ⟨hk, hconds, hpages, hbusy⟩ := checkSeg_of_packetKeys hkeys
  unfold State.fetch
  dsimp only
  rw [hlane]
  generalize s.checkSeg c.team {} _ _ = acc at *
  subst hk
  obtain ⟨tlb, htlb⟩ := foldl_tlbAdd (s.team c.team).core (s.ctxOf c.team) acc.leaves s
  rw [hconds, hbusy, hpages, fabricConds_here hhere, reachAll_here _ _ _ _ _ hhere]
  refine ⟨tlb, ?_⟩
  simp only [LaneAcc.first, List.append_nil, List.foldl_nil, Option.map_none, rowTrap_of_none, List.isEmpty_nil,
    Bool.not_true, Bool.false_eq_true, if_false, foldl_useAnswer_here hhere, htlb]
  rfl

/-! ## The step of the lanes chosen -/

/-- When the group chosen has no asynchronous cause due, the step is the run of the lanes chosen. -/
theorem step_runInst {s s0 s1 : State} {t g : Nat} {c : Inst} (hinbox : s.sched.inbox = []) (hagenda : s.sched.agenda = [])
    (hs0 : s0 = (if s.sched.turn then { s with sched := { s.sched with turn := false } }.lookTime.2
      else { s with sched := { s.sched with turn := true } }))
    (hturn : s.sched.turn = false ∨ s0.nextEvent = none) (hgroup : s0.nextGroup = some (t, g))
    (hasync : s0.asyncDue t g = false) (hinst : s0.selectInst t g = some (c, s1)) : step s = endIssue (runInst c s1) := by
  have hissue : issueStep t g s0 = endIssue (runInst c s1) := by
    simp [issueStep, hinst, hasync]
  unfold step
  rw [hinbox, hagenda]
  cases hflag : s.sched.turn with
  | false =>
    obtain rfl : s0 = { s with sched := { s.sched with turn := true } } := by simpa [hflag] using hs0
    simp [hgroup, hissue]
  | true =>
    obtain rfl : s0 = { s with sched := { s.sched with turn := false } }.lookTime.2 := by simpa [hflag] using hs0
    have hnone : State.nextEvent { s with sched := { s.sched with turn := false } }.lookTime.2 = none :=
      hturn.resolve_left (by simp [hflag])
    simp [hnone, hgroup, hissue]

section
variable {c : Inst} {s s' : State} {bs : List Byte} (hfetch : s.fetch c = .packet bs s')
include hfetch

/-- An illegal packet traps (R94). -/
theorem runInst_illegal {r slot : Nat} (hdec : decodeBytes bs (slotOf c.pc) = .illegal r slot) :
    runInst c s = .next (s'.illegalPacket c r slot ((packetWords bs).getD slot 0)) := by
  unfold decodeBytes at hdec
  simp [runInst, hfetch, hdec]

/-- A word of an unassigned major or minor traps (R95). -/
theorem runInst_undefinedWord {r : Nat} {u : Sys2Proof.PUnit} (hdec : decodeBytes bs (slotOf c.pc) = .undefinedWord r u) :
    runInst c s = .next (s'.badWord c u.mods r u.word) := by
  unfold decodeBytes at hdec
  simp [runInst, hfetch, hdec]

section
variable {i : Instr} {u : Sys2Proof.PUnit} (hdec : decodeBytes bs (slotOf c.pc) = .instr i u)
include hdec

/-- A word that fails a check of its own fields traps (R95). -/
theorem runInst_badWord {r : Nat} (hreason : i.decodeReason = some r) :
    runInst c s = .next (s'.badWord c u.mods r u.word) := by
  unfold decodeBytes at hdec
  simp [runInst, hfetch, hdec, hreason]

/-- A word that names a register beyond the allotment traps (R97). -/
theorem runInst_badRegister {x : Sig} {k : Nat} (hreason : i.decodeReason = none) (hsig : i.sig = some x)
    (hover : x.overAllotment (s'.instKernel c).regs = some k) : runInst c s = .next (s'.badRegister c u.mods k) := by
  unfold decodeBytes at hdec
  simp [runInst, hfetch, hdec, hreason, hsig, hover]

/-- A word that passes the checks is performed. -/
theorem runInst_exec (hwf : i.wellFormed = true) (hregs : ∀ x, i.sig = some x → x.overAllotment (s'.instKernel c).regs = none)
    (hsick : s'.sickRead c i = none) : runInst c s = exec i s' := by
  have hreason : i.decodeReason = none := Option.isNone_iff_eq_none.1 hwf
  have hover : (i.sig.bind fun x => x.overAllotment (s'.instKernel c).regs) = none := Option.bind_eq_none_iff.2 hregs
  unfold decodeBytes at hdec
  simp [runInst, hfetch, hdec, hreason, hover, hsick]

end

end

end Sys2Proof.Machine

open Sys2Proof Sys2Proof.Machine Sys2Proof.Forms

/-- Settles O5: the packet's bytes meet no condition and need nothing from another package. -/
theorem fetchReadsPacket : Obligations.FetchReadsPacket := by
  intro s c ks hkeys hhere hbad
  obtain ⟨tlb, h⟩ := fetch_here hkeys hhere hbad
  exact ⟨_, h, tlb, rfl⟩

/-- Settles O4: the step is the run of the lanes chosen, whose word passes the checks. -/
theorem stepRunsDecoded : Obligations.StepRunsDecoded := by
  intro s s0 s1 s2 t g c bs i u hinbox hagenda hs0 hturn hgroup hasync hinst hfetch hdec hwf hregs hsick
  rw [step_runInst hinbox hagenda hs0 hturn hgroup hasync hinst, runInst_exec hfetch hdec hwf hregs hsick]

/-- Settles O6: the step is the run of the lanes chosen, which ends at the first check that fails. -/
theorem badWordsTrap : Obligations.BadWordsTrap := by
  intro s s0 s1 s2 t g c bs hinbox hagenda hs0 hturn hgroup hasync hinst hfetch
  rw [step_runInst hinbox hagenda hs0 hturn hgroup hasync hinst]
  exact ⟨fun _ _ hdec => congrArg endIssue (runInst_illegal hfetch hdec),
    fun _ _ hdec => congrArg endIssue (runInst_undefinedWord hfetch hdec),
    fun _ _ _ hdec hreason => congrArg endIssue (runInst_badWord hfetch hdec hreason),
    fun _ _ _ _ hdec hreason hsig hover => congrArg endIssue (runInst_badRegister hfetch hdec hreason hsig hover)⟩
end

section
/-! PROOFS of the events of groups: packet fetches, groups switched in, asynchronous causes, bounded waits, the end of a YIELD (spec
10 R212, 19 R388, 20 R402-R410). -/

namespace Sys2Proof.Machine

open Sys2Proof.Forms

variable {s : State} {t g l : Nat}

/-! ## Fetch and switch-in -/

section
variable {c : Inst} {s' : State} {bs : List Byte} (hcur : s.sched.cur = some c) (hfetch : s.fetch c = .packet bs s')
include hcur hfetch

theorem exec_fetchPacket_legal {us : List Sys2Proof.PUnit} (hlegal : packetUnits (packetWords bs) 3 0 false 0 [] = .ok us) :
    exec .fetchPacket s = .next s' := by
  refine (withInst_some _ hcur).trans ?_
  simp [hfetch, hlegal]

theorem exec_fetchPacket_illegal {r k : Nat} (hillegal : packetUnits (packetWords bs) 3 0 false 0 [] = .error (r, k)) :
    exec .fetchPacket s = .next (s'.illegalPacket c r k ((packetWords bs).getD k 0)) := by
  refine (withInst_some _ hcur).trans ?_
  simp [hfetch, hillegal]

end

/-- A group that is there stands in its team's list. -/
theorem State.groups_getElem? (hg : g < (s.team t).groups.length) : (s.team t).groups[g]? = some (s.grp t g) := by
  simp [State.grp, List.getD, List.getElem?_eq_getElem hg]

/-- A group that can issue becomes resident when its core has a slot for it (R212). -/
theorem exec_groupSwitchIn (hg : g < (s.team t).groups.length) (hrun : (s.team t).status = .running)
    (hout : (s.grp t g).resident = false) (hlive : (s.grp t g).ended = false) (hready : s.groupReady t (s.grp t g) = true)
    (hslot : s.slotsUsed (s.team t).core < 16) :
    exec (.groupSwitchIn t g) s = .next (s.modGroup t g fun G => { G with resident := true }) := by
  change execGroupSwitchIn t g s = _
  simp [execGroupSwitchIn, State.groups_getElem? hg, hrun, hout, hlive, hready, Nat.not_le.2 hslot]

/-! ## Asynchronous causes -/

/-- The first lane of a group that runs. -/
theorem find?_stopsRunning {G : Group} {e : Nat} (he : e < G.lanes.length) (hrun : (G.lane e).stopsRunning = true)
    (hlow : ∀ i, i < e → (G.lane i).stopsRunning = false) : G.lanes.find? Lane.stopsRunning = some (G.lane e) := by
  have hlane (i : Nat) (hi : i < G.lanes.length) : G.lane i = G.lanes[i] := by simp [Group.lane, hi]
  rw [List.find?_eq_some_iff_getElem]
  refine ⟨hrun, e, he, (hlane e he).symm, fun i hi => ?_⟩
  rw [← hlane i (Nat.lt_trans hi he), hlow i hi]
  rfl

/-- A notice that TRAPCTL asks for is the one pending. -/
theorem Group.noticed_of_asked {G : Group} (h : G.trapCtl.getLsbD 0 = true) : G.noticed = G.pend20 := if_pos h

theorem Group.noticed_eq_none {G : Group} (h : ¬ G.trapCtl.getLsbD 0 = true ∨ G.pend20 = none) : G.noticed = none := by
  unfold Group.noticed
  split
  · next hask => exact h.resolve_left (not_not_intro hask)
  · rfl

/-- A notice that is not asked for is discarded (R402). -/
theorem exec_asyncTrapDelivery_discards (hdue : s.asyncDue t g = true) (hnone : (s.grp t g).noticed = none)
    (hnone22 : (s.grp t g).pend22 = none) :
    exec (.asyncTrapDelivery t g) s = .next (s.modGroup t g fun G => { G with pend20 := none }) := by
  change execAsyncTrapDelivery t g s = _
  unfold execAsyncTrapDelivery
  simp [hdue, hnone, hnone22]

section
variable {e : Nat} (hdue : s.asyncDue t g = true) (he : e < (s.grp t g).lanes.length)
  (hrun : ((s.grp t g).lane e).stopsRunning = true) (hlow : ∀ i, i < e → ((s.grp t g).lane i).stopsRunning = false)
include hdue he hrun hlow

/-- A notice is taken before any other cause (R402). -/
theorem exec_asyncTrapDelivery_notice {a : AsyncCause} (ha : (s.grp t g).noticed = some a) :
    exec (.asyncTrapDelivery t g) s = .next ((s.modGroup t g fun G => { G with pend20 := none }).takeTrap t g
      (trapOf 20 0x3F a.reason.toNat a.aux.toNat a.d1 a.d2 0) true ((s.grp t g).lane e).pc 0) := by
  change execAsyncTrapDelivery t g s = _
  unfold execAsyncTrapDelivery
  simp [hdue, find?_stopsRunning he hrun hlow, ha]

/-- Without a notice that is asked for, the cause of a deadline is taken (R402). -/
theorem exec_asyncTrapDelivery_deadline {a : AsyncCause} (hnone : (s.grp t g).noticed = none) (ha : (s.grp t g).pend22 = some a) :
    exec (.asyncTrapDelivery t g) s = .next (((s.modGroup t g fun G => { G with pend20 := none }).modGroup t g fun G =>
      { G with pend22 := none }).takeTrap t g
      (trapOf 22 0x3F a.reason.toNat a.aux.toNat a.d1 a.d2 0) true ((s.grp t g).lane e).pc 0) := by
  change execAsyncTrapDelivery t g s = _
  unfold execAsyncTrapDelivery
  simp [hdue, find?_stopsRunning he hrun hlow, hnone, ha]

end

/-! ## Waits that are bounded -/

/-- Device time raised to at least `n`: the clock alone changes. -/
theorem State.timeAtLeast_clock (s : State) (n : Nat) :
    ∃ now, s.timeAtLeast n = { s with hub := { s.hub with clock := { s.hub.clock with now := now } } } ∧
      (n < 2 ^ 64 → n ≤ now.toNat) := by
  unfold State.timeAtLeast
  split
  · exact ⟨timeWord n, rfl, fun hn => by rw [toNat_timeWord]; omega⟩
  · next h => exact ⟨s.hub.clock.now, rfl, fun _ => by simpa using h⟩

theorem State.waitEnds_eq_false (s : State) (t : Nat) (L : Lane) :
    s.waitEnds t L = false ↔ ∀ off n, L.status = .boWait off n → s.boEnds t off = false := by
  unfold State.waitEnds
  cases L.status <;> simp

/-- Whether lane `i` of group `g` waits at `pc`, in a wait that has not ended and that the group may give up. -/
def State.waitsAt (s : State) (t g : Nat) (pc : W32) (i : Nat) : Bool :=
  let G := s.grp t g
  (G.lane i).waitsSince.isSome && (G.lane i).pc == pc && !s.waitEnds t (G.lane i) && (!G.inh || G.hmask.getLsbD i)

theorem State.waitsAt_iff (s : State) (t g : Nat) (pc : W32) (i : Nat) :
    s.waitsAt t g pc i = true ↔ ((s.grp t g).lane i).waitsSince.isSome = true ∧ ((s.grp t g).lane i).pc = pc ∧
      (∀ off n, ((s.grp t g).lane i).status = .boWait off n → s.boEnds t off = false) ∧
      ((s.grp t g).inh = true → (s.grp t g).hmask.getLsbD i = true) := by
  rw [← State.waitEnds_eq_false]
  cases hinh : (s.grp t g).inh <;> simp [State.waitsAt, hinh, and_assoc]

/-- The state in which the lanes of `here` have withdrawn from their waits, at time `bound`. -/
def State.withdraw (s : State) (t g : Nat) (here : LaneMask) (bound : Nat) : State :=
  (s.timeAtLeast bound).modGroup t g fun G =>
    { G.mapLanes (fun i L => if here.getLsbD i then { L with status := .run } else L) with resident := true }

/-- A withdrawal frees its lanes, passes the time up to the bound, and leaves memory, grids and the other lanes alone. -/
theorem State.withdraw_spec (here : LaneMask) (bound : Nat) (ht : t < s.teams.length) (hg : g < (s.team t).groups.length) :
    (s.withdraw t g here bound).mem = s.mem ∧ (s.withdraw t g here bound).grids = s.grids ∧
    (∀ i, i < (s.grp t g).lanes.length → ((s.withdraw t g here bound).grp t g).lane i =
      if here.getLsbD i then { (s.grp t g).lane i with status := .run } else (s.grp t g).lane i) ∧
    (bound < 2 ^ 64 → bound ≤ (s.withdraw t g here bound).hub.clock.now.toNat) := by
  obtain ⟨now, htime, hbound⟩ := s.timeAtLeast_clock bound
  unfold State.withdraw
  rw [htime]
  refine ⟨rfl, rfl, fun i hi => (congrArg (Group.lane · i) (State.grp_modGroup_same _ t g _ ht hg)).trans ?_, hbound⟩
  exact Group.lane_mapLanes (s.grp t g) (fun i L => if here.getLsbD i then { L with status := .run } else L) i hi

/-- A bounded wait that has not ended: the lanes that wait at the same word withdraw, and the group takes cause group 17 (R388). -/
theorem exec_syncTimeout {since e : Nat} (hsince : ((s.grp t g).lane l).waitsSince = some since) (hbounded : s.regs.syncTo ≠ 0)
    (hrun : (s.team t).status = .running) (hwaits : s.waitsAt t g ((s.grp t g).lane l).pc l = true)
    (he : e < 32) (hfirst : s.waitsAt t g ((s.grp t g).lane l).pc e = true)
    (hlow : ∀ i, i < e → s.waitsAt t g ((s.grp t g).lane l).pc i = false) :
    let L := (s.grp t g).lane l
    let d := s.waitDetail t ((s.grp t g).lane e).status
    let here := laneMask (s.waitsAt t g L.pc)
    exec (.syncTimeout t g l) s = .next ((s.withdraw t g here (since + s.regs.syncTo.toNat * 1000)).takeTrap t g
      (trapOf 17 e d.1 d.2.1 d.2.2.1 d.2.2.2 here) false L.pc L.resume) := by
  intro L d here
  have hhead : (maskLanes here).headD l = e := by
    cases hlanes : maskLanes here with
    | nil => exact absurd ((maskLanes_laneMask_nil _).1 hlanes e he) (Bool.ne_false_iff.2 hfirst)
    | cons k ls =>
      exact (lowest_of_maskLanes_laneMask hlanes (fun _ _ => Iff.rfl) he hfirst fun i hi => Bool.eq_false_iff.1 (hlow i hi)).1
  obtain ⟨-, -, hends, hmask⟩ := (s.waitsAt_iff t g _ l).1 hwaits
  rw [← State.waitEnds_eq_false] at hends
  change execSyncTimeout t g l s = _
  have hthere : ((s.grp t g).inh && !(s.grp t g).hmask.getLsbD l) = false := by
    cases hinh : (s.grp t g).inh with
    | false => rfl
    | true => simp [hmask hinh]
  unfold execSyncTimeout
  simp only [hsince]
  rw [if_neg (by simpa [hrun, hthere] using hbounded), if_neg (by simp [hends])]
  subst hhead
  rfl

/-! ## The end of a YIELD -/

/-- A core's cycle counter raised: the engines alone change. -/
theorem State.cyclesAtLeast_eng (s : State) (core n : Nat) :
    ∃ cs, s.cyclesAtLeast core n = { s with eng := { s.eng with cycles := cs } } := by
  unfold State.cyclesAtLeast
  split
  · exact ⟨_, rfl⟩
  · exact ⟨s.eng.cycles, rfl⟩

theorem Group.lane_default (l : Nat) : ({} : Group).lane l = {} := by
  simp only [Group.lane, List.getD, List.getElem?_replicate]
  split <;> rfl

/-- A lane that does not run is a lane of a group that is there. -/
theorem State.there_of_status (h : ((s.grp t g).lane l).status ≠ .run) : t < s.teams.length ∧ g < (s.team t).groups.length := by
  have hg : g < (s.team t).groups.length := by
    refine Nat.lt_of_not_le fun hg => ?_
    have hgrp : s.grp t g = {} := by simp [State.grp, List.getD, List.getElem?_eq_none hg]
    rw [hgrp] at h
    exact h (congrArg Lane.status (Group.lane_default l))
  refine ⟨Nat.lt_of_not_le fun ht => ?_, hg⟩
  have hteam : s.team t = noTeam := by simp [State.team, List.getD, List.getElem?_eq_none ht]
  rw [hteam] at hg
  exact absurd hg (Nat.not_lt_zero g)

/-- At the end of a YIELD its lanes run again, and every other group stands (R410). -/
theorem exec_yieldExpire {n : Nat} (hyield : ((s.grp t g).lane l).status = .yielding n) :
    ∃ u, exec (.yieldExpire t g l) s = .next u ∧ u.mem = s.mem ∧ u.grids = s.grids ∧
      (∀ v h, (v, h) ≠ (t, g) → u.grp v h = s.grp v h) ∧
      ∀ i, i < (s.grp t g).lanes.length → (u.grp t g).lane i = ((s.grp t g).lane i).endYield n ((s.grp t g).lane l).pc := by
  obtain ⟨cs, hcs⟩ := s.cyclesAtLeast_eng (s.team t).core n
  obtain ⟨ht, hg⟩ := State.there_of_status (s := s) (by rw [hyield]; nofun)
  have hexec : exec (.yieldExpire t g l) s = .next (({ s with eng := { s.eng with cycles := cs } } : State).modGroup t g
      fun G => { G with lanes := G.lanes.map (Lane.endYield n ((s.grp t g).lane l).pc) }) := by
    change execYieldExpire t g l s = _
    unfold execYieldExpire
    simp only [hyield, hcs]
  refine ⟨_, hexec, rfl, rfl, fun v h hne => ?_, fun i hi => ?_⟩
  · by_cases hv : v = t
    · subst hv
      exact State.grp_modGroup_other_group _ _ _ _ _ fun hh => hne (by rw [hh])
    · exact State.grp_modGroup_other_team _ _ _ _ _ _ hv
  · refine (congrArg (Group.lane · i) (State.grp_modGroup_same _ t g _ ht hg)).trans ?_
    simp [Group.lane, hi]

end Sys2Proof.Machine

open Sys2Proof Sys2Proof.Machine Sys2Proof.Forms

/-- Settles O47: each event by its own lemma; the lanes that withdraw from a bounded wait are those of `State.waitsAt`. -/
theorem groupEvents : Obligations.GroupEvents := by
  intro s t g l G T L
  refine ⟨?fetch, ?switchIn, ?async, ?timeout, ?yield⟩
  case fetch =>
    intro c ks hcur hkeys hhere hbad words p
    obtain ⟨tlb, hfetch⟩ := fetch_here hkeys hhere hbad
    exact ⟨tlb, fun _ hlegal => exec_fetchPacket_legal hcur hfetch hlegal,
      fun _ _ hillegal => exec_fetchPacket_illegal hcur hfetch hillegal⟩
  case switchIn =>
    intro hg hrun hout hlive hready hslot
    exact exec_groupSwitchIn hg hrun hout hlive hready hslot
  case async =>
    intro hdue e he hrun hlow told asks
    exact ⟨fun a hask ha => exec_asyncTrapDelivery_notice hdue he hrun hlow ((Group.noticed_of_asked hask).trans ha),
      fun a hnone ha => exec_asyncTrapDelivery_deadline hdue he hrun hlow (Group.noticed_eq_none hnone) ha,
      fun hask hnone => exec_asyncTrapDelivery_discards hdue (Group.noticed_eq_none (.inl hask)) hnone⟩
  case timeout =>
    intro since hl ht hg hlen hsince hbounded hrun hmask hends here e hfirst hlow d
    have hhere (i : Nat) : (laneMask (s.waitsAt t g L.pc)).getLsbD i = true ↔ here i := by
      rw [getLsbD_laneMask, Bool.and_eq_true, decide_eq_true_eq, State.waitsAt_iff]
    have hwaits : s.waitsAt t g L.pc l = true := (s.waitsAt_iff t g _ l).2 ⟨by rw [hsince]; rfl, rfl, hends, hmask⟩
    have he : s.waitsAt t g L.pc e = true := (s.waitsAt_iff t g _ e).2 hfirst.2
    have hlow' (i : Nat) (hi : i < e) : s.waitsAt t g L.pc i = false :=
      Bool.eq_false_iff.2 fun h => hlow i hi ⟨Nat.lt_trans hi hfirst.1, (s.waitsAt_iff t g _ i).1 h⟩
    obtain ⟨hmem, hgrids, hlanes, htime⟩ :=
      State.withdraw_spec (laneMask (s.waitsAt t g L.pc)) (since + s.regs.syncTo.toNat * 1000) ht hg
    refine ⟨_, _, exec_syncTimeout hsince hbounded hrun hwaits hfirst.1 he hlow', hhere, hmem, hgrids, fun i hi => ?_, htime⟩
    have hlane := hlanes i (hlen.symm ▸ hi)
    exact ⟨fun h => hlane.trans (if_pos ((hhere i).2 h)), fun h => hlane.trans (if_neg (mt (hhere i).1 h))⟩
  case yield =>
    intro n hyield
    obtain ⟨u, hexec, hmem, hgrids, hother, hlanes⟩ := exec_yieldExpire hyield
    refine ⟨u, hexec, hmem, hgrids, hother, fun i hi => ?_⟩
    rw [hlanes i hi]
    simp [Lane.endYield, L, G]
end

section
/-! PROOFS of moves, compares, bit fields, truth tables and votes (spec 08 R154-R163), and of the scalar instructions (R168, R169). -/

namespace Sys2Proof.Machine

open Sys2Proof.Forms

/-! ## Truth tables -/

/-- The row of a truth table that three bits choose (spec 08 R156). -/
def tableRow (x y z : Bool) : Nat := (if x then 4 else 0) + (if y then 2 else 0) + (if z then 1 else 0)

section
variable {w : Nat} (n : BitVec 8)

/-- A bit of the rows of a table, ORed together. -/
theorem getLsbD_foldl_rows (term : Nat → BitVec w) (ks : List Nat) (r : BitVec w) (i : Nat) :
    (ks.foldl (fun r k => if n.getLsbD k then r ||| term k else r) r).getLsbD i =
      (r.getLsbD i || ks.any fun k => n.getLsbD k && (term k).getLsbD i) := by
  induction ks generalizing r with
  | nil => simp
  | cons k ks ih =>
    rw [List.foldl_cons, ih, List.any_cons, ← Bool.or_assoc]
    cases n.getLsbD k <;> simp

/-- An operand or its complement, as a bit of the row's number says, holds where the operand has that bit. -/
theorem getLsbD_ite_not {i : Nat} (hi : i < w) (b : Bool) (x : BitVec w) :
    (if b then x else ~~~x).getLsbD i = (b == x.getLsbD i) := by
  cases b <;> simp [hi]

/-- Of the eight rows three bits choose one. -/
theorem any_row_eq (x y z : Bool) :
    ((List.range 8).any fun k => n.getLsbD k && (k.testBit 2 == x && k.testBit 1 == y && k.testBit 0 == z)) =
      n.getLsbD (tableRow x y z) := by
  have hrow (k : Nat) (hk : k < 8) :
      (k.testBit 2 == x && k.testBit 1 == y && k.testBit 0 == z) = decide (k = tableRow x y z) := by
    revert k x y z
    decide
  have hlt : tableRow x y z < 8 := by
    revert x y z
    decide
  rw [Bool.eq_iff_iff, List.any_eq_true]
  constructor
  · rintro ⟨k, hk, hb⟩
    rw [hrow k (List.mem_range.1 hk), Bool.and_eq_true, decide_eq_true_eq] at hb
    exact hb.2 ▸ hb.1
  · intro hb
    exact ⟨_, List.mem_range.2 hlt, by rw [hrow _ hlt, hb, decide_eq_true rfl, Bool.and_self]⟩

/-- Bit i of LOGIC3 is the bit of the table that the operands' bits i choose (spec 08 R156). -/
theorem getLsbD_logic3 (a b c : BitVec w) {i : Nat} (hi : i < w) :
    (logic3 n a b c).getLsbD i = n.getLsbD (tableRow (a.getLsbD i) (b.getLsbD i) (c.getLsbD i)) := by
  simp only [logic3, getLsbD_foldl_rows, BitVec.getLsbD_and, getLsbD_ite_not hi, any_row_eq, BitVec.ofNat_eq_ofNat,
    BitVec.getLsbD_zero, Bool.false_or]

variable {n}

/-- A table that holds a function of three bits computes that function in every bit position. -/
theorem logic3_eq {fn : Bool → Bool → Bool → Bool} (htable : ∀ x y z, n.getLsbD (tableRow x y z) = fn x y z)
    {a b c r : BitVec w} (hr : ∀ i, i < w → r.getLsbD i = fn (a.getLsbD i) (b.getLsbD i) (c.getLsbD i)) :
    logic3 n a b c = r :=
  BitVec.eq_of_getLsbD_eq fun i hi => by rw [getLsbD_logic3 n a b c hi, htable, hr i hi]

variable (a b c : BitVec w)

theorem logic3_zero : logic3 0 a b c = 0 :=
  logic3_eq (fn := fun _ _ _ => false) (by decide) fun _ _ => by simp

theorem logic3_and : logic3 0x80 a b c = a &&& b &&& c :=
  logic3_eq (fn := fun x y z => x && y && z) (by decide) fun _ _ => by simp

theorem logic3_or : logic3 0xFE a b c = a ||| b ||| c :=
  logic3_eq (fn := fun x y z => x || y || z) (by decide) fun _ _ => by simp

theorem logic3_xor : logic3 0x96 a b c = a ^^^ b ^^^ c :=
  logic3_eq (fn := fun x y z => x ^^ y ^^ z) (by decide) fun _ _ => by simp

theorem logic3_not : logic3 0x0F a b c = ~~~a :=
  logic3_eq (fn := fun x _ _ => !x) (by decide) fun i hi => by simp [hi]

theorem logic3_choose_by_first : logic3 0xCA a b c = (a &&& b) ||| (~~~a &&& c) :=
  logic3_eq (fn := fun x y z => (x && y) || (!x && z)) (by decide) fun i hi => by simp [hi]

theorem logic3_choose_by_third : logic3 0xE4 a b c = (c &&& a) ||| (~~~c &&& b) :=
  logic3_eq (fn := fun x y z => (z && x) || (!z && y)) (by decide) fun i hi => by simp [hi]

end

theorem tableOf_some {m : Mods} {e : Ext} (h : m.ext = some e) : tableOf m = e.imm16.extractLsb' 0 8 := by
  rw [tableOf, immOf, h]

theorem tableOf_none {m : Mods} (h : m.ext = none) : tableOf m = 0 := by
  rw [tableOf, immOf, h]
  rfl

/-! ## LOGIC3 -/

section
variable {s : State} {c : Inst} {m : Mods} (f : V4) (hs : s.Issues c m)
include hs

theorem exec_logic3B32 :
    exec (.logic3B32 f m) s = .next (s.modGroup c.team c.group fun G =>
      G.retires c m (activeOf s c f.g.toNat (guardNeg m)) 1 fun l =>
        { pushes := [(logic3 (tableOf m) (src32 (s.instGrp c) m l f.a) (src32 (s.instGrp c) m l f.b)
          (src32 (s.instGrp c) m l f.c)).zeroExtend 64] }) :=
  valueOp_next hs fun _ => rfl

theorem exec_logic3B64 :
    exec (.logic3B64 f m) s = .next (s.modGroup c.team c.group fun G =>
      G.retires c m (activeOf s c f.g.toNat (guardNeg m)) 1 fun l =>
        { pushes := [logic3 (tableOf m) (src (s.instGrp c) m l f.a .b64) (src (s.instGrp c) m l f.b .b64)
          (src (s.instGrp c) m l f.c .b64)] }) :=
  valueOp_next hs fun _ => rfl

end

/-! ## Scalar instructions -/

/-- Each row of the table writes the row's operation of its operands, once for the instance. -/
theorem exec_scalar {i : Instr} {f : FS} {m : Mods} {op : W64 → W64 → W64} (h : Scalar i f m op) (s : State) :
    exec i s = scalarOp f m op s := by
  cases h <;> rfl

end Sys2Proof.Machine

open Sys2Proof Sys2Proof.Machine Sys2Proof.Forms

/-- Settles O12: each row of the table performs its form. -/
theorem moveResults : Obligations.MoveResults :=
  fun _ _ h => h.performs.retires

/-- Settles O21: the write of the scalar register and the lanes' going on are one update of the group. -/
theorem scalarResults : Obligations.ScalarResults := by
  intro i f m op h s c hs
  rw [exec_scalar h, scalarOp, withInst_some _ hs.1, finishSeq_modGroup hs]

/-- Settles O60: `logic3` under the extension's table has the bits that the table gives, at both widths. -/
theorem truthTables : Obligations.TruthTables := by
  intro f m n at_ common codes
  have hn : tableOf m = n := by
    cases h : m.ext with
    | some e => simp only [tableOf_some h, n, h]
    | none => simp only [tableOf_none h, n, h]
  have hcommon {w : Nat} (a b c : BitVec w) : common w a b c (logic3 (tableOf m) a b c) :=
    ⟨fun _ hi => hn ▸ getLsbD_logic3 _ a b c hi, fun h => by rw [tableOf_none h, logic3_zero],
      fun h => by rw [hn, h, logic3_and], fun h => by rw [hn, h, logic3_or], fun h => by rw [hn, h, logic3_xor],
      fun h _ _ => by rw [hn, h, logic3_not], fun h => by rw [hn, h, logic3_choose_by_first],
      fun h => by rw [hn, h, logic3_choose_by_third]⟩
  refine ⟨⟨_, rfl, ?_⟩, ⟨_, rfl, ?_⟩, fun s c hs => ?_⟩
  · exact ⟨majorOf_packV4 .., minorOf_packV4 .., unpackV4_packV4 ..⟩
  · exact ⟨majorOf_packV4 .., minorOf_packV4 .., unpackV4_packV4 ..⟩
  · exact ⟨⟨_, fun l => hcommon _ _ _, exec_logic3B32 f hs⟩, _, fun l => hcommon _ _ _, exec_logic3B64 f hs⟩
end

section
/-! PROOFS of the floating-point instructions (spec 09 R175-R183) and of what lanes exchange (spec 09 R189-R193). -/

open Sys2Proof Sys2Proof.Forms

/-- Settles O13: each row of the table performs its form, and an instruction that performs its form retires with it. -/
theorem floatResults : Obligations.FloatResults := by
  intro i v hrow
  have hperforms : Performs i v := hrow.performs
  exact hperforms.retires

/-- Settles O15: each row of the table performs its form over the lanes of Active() at issue, so that what a lane receives is
fixed before any lane is written. -/
theorem exchangeResults : Obligations.ExchangeResults := by
  intro i v hrow
  have hperforms : Performs i v := hrow.performs
  exact hperforms.retires
end
